-- ==== Sys2Proof/Word.lean ====
section
/-! DEFINITION. The word types of the Swieth (R3, R10, R24). -/

namespace Sys2Proof

/-- A byte of memory (R3). -/
abbrev Byte := BitVec 8

/-- A word of the instruction set is 32 bits (R3). -/
abbrev Word := BitVec 32

/-- A set of the 96 lanes of a wave, lane `l` at bit `l` (R10, R55). -/
abbrev Mask := BitVec 96

/-- One vector register: 32 bits for each lane (R24). -/
abbrev Lanes := Vector Word 96

/-- The number of a register, or a 6-bit field (R24). -/
abbrev Reg := BitVec 6

end Sys2Proof
end

