-- ==== Sys2Proof/Config.lean ====
section
/-! DEFINITION. What the spec leaves open: values no proof can see (log entries 2, 12, 13).

Each constant here is opaque. A statement that mentions one holds whatever its value. -/

namespace Sys2Proof.Config

/-- Arithmetic clocks that pass in the step with the given stamp (R4; log entry 2). -/
opaque clockTick : Nat → Nat

/-- Nanoseconds that pass in the step with the given stamp (R358; log entry 2). -/
opaque timeTick : Nat → Nat

/-- Whether lane `l` of released vector register `r` reads zero in the step with the given stamp (R81; log entry 12). -/
opaque vecReleased : Nat → Nat → Nat → Bool

/-- Whether released scalar register `r` reads zero in the step with the given stamp (R81; log entry 12). -/
opaque scalarReleased : Nat → Nat → Bool

/-- Whether released vector register `r` reports tag U in the step with the given stamp (R81; log entry 12). -/
opaque tagReleased : Nat → Nat → Bool

/-- Whether an interlock or a busy pipe holds split `sp` of thread `ix` of workgroup `wg` in the step with the given stamp (R82;
log entry 111). -/
opaque interlocked : Nat → Nat → Nat → Nat → Bool

/-- Whether CLM bank `b` in cache mode holds L1 line `line` in the step with the given stamp (R147, R152; log entry 14). -/
opaque l1InBank : Nat → Nat → Nat → Bool

/-- The set of its home slice that may hold a physical line (R155; log entry 14). -/
opaque l2Set : Nat → Nat

/-- The place of the line that leaves a full L1 in the step with the given stamp (R152; log entry 14). -/
opaque l1Victim : Nat → Nat

/-- The place of the line that leaves a full scalar cache in the step with the given stamp (R138; log entry 14). -/
opaque scalarVictim : Nat → Nat

/-- Which of the runs of an EGEN lane with different homes goes on in the step with the given stamp (R203; log entry 50). -/
opaque genOrder : Nat → Nat

/-- Whether a node cache still holds a line that it filled, at visit `n` of a traversal that runs in the step with the
given stamp (R265; log entry 14). -/
opaque nodeKept : Nat → Nat → Bool

/-- SHAKE256 of a byte string, to the given number of bytes (R48, R393; log entry 13). -/
opaque shake256 : List Byte → Nat → List Byte

/-- Whether a Falcon-1024 signature over a digest holds under the key that Trestle holds with an identifier (R48, R49; log
entry 13). -/
opaque signatureOk : List Byte → List Byte → List Byte → Bool

/-- The DRAM row that holds a physical address of a channel (R384, R386; log entry 16). -/
opaque rowOf : Nat → Nat

/-- The SHAKE256 hash of a public key that is fused into the I-die (R393; log entry 13). -/
opaque fusedKeyHash : List Byte

/-- Whether a Falcon-1024 signature over a digest holds under a public key (R393; log entry 13). -/
opaque bootSignatureOk : List Byte → List Byte → List Byte → Bool

/-- The bit of a Bloom filter that its hash function `i` gives a row (R384; log entry 16). -/
opaque bloomHash : Nat → Nat → Nat

/-- Falcon-1024 signing with the part's identity key (R393; log entry 13). -/
opaque falconSign : List Byte → List Byte

end Sys2Proof.Config
end

