-- ==== Sys2Proof/Machine/Flags.lean ====
section
/-! DEFINITION. The flags of a lane (R96): their places in fl, and how a word's flags join it. -/

namespace Sys2Proof.Machine

/-- fl of one lane: NV [4], DZ [3], OF [2], UF [1], NX [0] (R96). -/
abbrev Fl := BitVec 5

/-- No flag. -/
abbrev flNone : Fl := 0
/-- Inexact. -/
abbrev flNX : Fl := 1
/-- Underflow: tiny after rounding and inexact. -/
abbrev flUF : Fl := 2
/-- Overflow. -/
abbrev flOF : Fl := 4
/-- Division of a finite non-zero value by zero. -/
abbrev flDZ : Fl := 8
/-- Invalid operation. -/
abbrev flNV : Fl := 16

/-- The flag `f` when `c` holds. -/
def flWhen (c : Bool) (f : Fl) : Fl := if c then f else 0

/-- Flags are sticky: an instruction sets flags and never clears them (R96). -/
def flRaise (old raised : Fl) : Fl := old ||| raised

/-- WFLCLR clears the flags that are set in its mask (R130). -/
def flClear (old mask : Fl) : Fl := old &&& ~~~mask

theorem flRaise_none (f : Fl) : flRaise f flNone = f := by simp [flRaise]

/-- A raised flag is set. -/
theorem flRaise_sets (old r : Fl) (i : Nat) (h : r.getLsbD i = true) : (flRaise old r).getLsbD i = true := by
  simp [flRaise, h]

/-- A flag once set stays set. -/
theorem flRaise_sticky (old r : Fl) (i : Nat) (h : old.getLsbD i = true) : (flRaise old r).getLsbD i = true := by
  simp [flRaise, h]

end Sys2Proof.Machine
end

