-- ==== Sys2Proof/Machine/Num.lean ====
section
/-! DEFINITION. The element formats and the rounding helpers (R85 to R95), over exact rationals.

An exact real of the spec is a `Rat` here. Square roots and π, the only irrational numbers the spec names, enter
through rationals that round as they do (see `sqrtRep` and `halfPi`). -/

namespace Sys2Proof.Machine

/-! ## Formats -/

/-- The floating formats of R85. -/
inductive FFmt where
  | fp32 | fp16 | bf16 | e4m3 | e5m2 | e3m2 | e2m3 | e2m1
  deriving DecidableEq, Repr

/-- The integer formats of R88. -/
inductive IFmt where
  | int32 | uint32 | int16 | int8 | uint8 | int4 | uint4
  deriving DecidableEq, Repr

/-- The rounding modes of R31 other than DYN. -/
inductive RMode where
  | rne | rz | ru | rd | rna | rs
  deriving DecidableEq, Repr

/-- The mode of the codes 0 to 5 (R31); ctl.round never holds another code (R95). -/
def RMode.ofCode (c : Nat) : RMode :=
  match c with
  | 1 => .rz
  | 2 => .ru
  | 3 => .rd
  | 4 => .rna
  | 5 => .rs
  | _ => .rne

/-- Width of the E field (R85). -/
def FFmt.ebits : FFmt → Nat
  | .fp32 => 8 | .fp16 => 5 | .bf16 => 8 | .e4m3 => 4 | .e5m2 => 5 | .e3m2 => 3 | .e2m3 => 2 | .e2m1 => 2

/-- Width m of the M field (R85). -/
def FFmt.mbits : FFmt → Nat
  | .fp32 => 23 | .fp16 => 10 | .bf16 => 7 | .e4m3 => 3 | .e5m2 => 2 | .e3m2 => 2 | .e2m3 => 3 | .e2m1 => 1

/-- The bias (R85). -/
def FFmt.bias : FFmt → Nat
  | .fp32 => 127 | .fp16 => 15 | .bf16 => 127 | .e4m3 => 7 | .e5m2 => 15 | .e3m2 => 3 | .e2m3 => 1 | .e2m1 => 1

/-- Width in bits. -/
def FFmt.width (f : FFmt) : Nat := 1 + f.ebits + f.mbits

/-- The format has infinities, coded E all ones and M = 0 (R85). -/
def FFmt.hasInf : FFmt → Bool
  | .fp32 | .fp16 | .bf16 | .e5m2 => true
  | .e4m3 | .e3m2 | .e2m3 | .e2m1 => false

/-- E3M2, E2M3 and E2M1 have neither infinity nor NaN (R86). -/
def FFmt.finiteOnly : FFmt → Bool
  | .e3m2 | .e2m3 | .e2m1 => true
  | .fp32 | .fp16 | .bf16 | .e4m3 | .e5m2 => false

/-- The magnitude bits (all but S) of the largest finite value (R85). -/
def FFmt.maxMag : FFmt → Nat
  | .fp32 => 0x7F7FFFFF | .fp16 => 0x7BFF | .bf16 => 0x7F7F | .e4m3 => 0x7E | .e5m2 => 0x7B | .e3m2 => 0x1F
  | .e2m3 => 0x1F | .e2m1 => 0x7

/-- The magnitude bits of infinity, for a format that has it. -/
def FFmt.infMag (f : FFmt) : Nat := (2 ^ f.ebits - 1) * 2 ^ f.mbits

/-- canon(fmt) (R86); a format with no NaN has none, and its callers give +0 (R109, R114). -/
def FFmt.canon : FFmt → Word
  | .fp32 => 0x7FC00000 | .fp16 => 0x7E00 | .bf16 => 0x7FC0 | .e4m3 => 0x7F | .e5m2 => 0x7E
  | .e3m2 | .e2m3 | .e2m1 => 0

/-- The bits of a magnitude with a sign. -/
def FFmt.pack (f : FFmt) (neg : Bool) (mag : Nat) : Word :=
  BitVec.ofNat 32 ((if neg then 2 ^ (f.ebits + f.mbits) else 0) + mag)

/-- The zero with the sign given. -/
def FFmt.zero (f : FFmt) (neg : Bool) : Word := f.pack neg 0

/-- The largest finite value with the sign given. -/
def FFmt.max (f : FFmt) (neg : Bool) : Word := f.pack neg f.maxMag

/-- The infinity with the sign given. -/
def FFmt.inf (f : FFmt) (neg : Bool) : Word := f.pack neg f.infMag

/-- A power of two. -/
def pow2 (k : Int) : Rat := if 0 ≤ k then ((2 ^ k.toNat : Nat) : Rat) else mkRat 1 (2 ^ (-k).toNat)

/-- What a floating pattern stands for. `fin` is a finite value other than zero. -/
inductive Val where
  | nan
  | inf (neg : Bool)
  | zero (neg : Bool)
  | fin (x : Rat)
  deriving DecidableEq, Repr

/-- The value of the low bits of a word read in format `f` (R85, R87). -/
def FFmt.read (f : FFmt) (w : Word) : Val :=
  let m := f.mbits
  let v := w.toNat
  let man := v % 2 ^ m
  let e := v / 2 ^ m % 2 ^ f.ebits
  let neg := v / 2 ^ (m + f.ebits) % 2 == 1
  let isNan := match f with
    | .fp32 | .fp16 | .bf16 | .e5m2 => e == 2 ^ f.ebits - 1 && man != 0
    | .e4m3 => e == 15 && man == 7
    | .e3m2 | .e2m3 | .e2m1 => false
  let isInf := f.hasInf && e == 2 ^ f.ebits - 1 && man == 0
  if isNan then .nan
  else if isInf then .inf neg
  else
    let mag : Rat :=
      if e = 0 then (man : Rat) * pow2 (1 - f.bias - m) else ((2 ^ m + man : Nat) : Rat) * pow2 (e - f.bias - m)
    if e = 0 ∧ man = 0 then .zero neg else .fin (if neg then -mag else mag)

/-- The number a finite value stands for; 0 for a NaN or an infinity, which no caller asks about. -/
def Val.toRat : Val → Rat
  | .fin x => x
  | .nan | .inf _ | .zero _ => 0

/-- The sign of a value (false for a NaN). -/
def Val.neg : Val → Bool
  | .nan => false
  | .inf n | .zero n => n
  | .fin x => decide (x < 0)

/-- The value with its sign inverted. -/
def Val.negate : Val → Val
  | .nan => .nan
  | .inf n => .inf !n
  | .zero n => .zero !n
  | .fin x => .fin (-x)

/-- The value is finite. -/
def Val.finite : Val → Bool
  | .nan | .inf _ => false
  | .zero _ | .fin _ => true

/-- The least and greatest value of an integer format (R88). -/
def IFmt.range : IFmt → Int × Int
  | .int32 => (-2147483648, 2147483647)
  | .uint32 => (0, 4294967295)
  | .int16 => (-32768, 32767)
  | .int8 => (-128, 127)
  | .uint8 => (0, 255)
  | .int4 => (-8, 7)
  | .uint4 => (0, 15)

/-- Width in bits of an integer format. -/
def IFmt.width : IFmt → Nat
  | .int32 | .uint32 => 32
  | .int16 => 16
  | .int8 | .uint8 => 8
  | .int4 | .uint4 => 4

/-- The integer format is two's complement (R88). -/
def IFmt.signed : IFmt → Bool
  | .int32 | .int16 | .int8 | .int4 => true
  | .uint32 | .uint8 | .uint4 => false

/-- sext(v, n): the low n bits as a signed integer (R94). -/
def sext (v : Nat) (n : Nat) : Int :=
  let u := v % 2 ^ n
  if n ≠ 0 ∧ 2 ^ (n - 1) ≤ u then (u : Int) - 2 ^ n else u

/-- zext(v, n): the low n bits as an unsigned integer (R94). -/
def zext (v : Nat) (n : Nat) : Nat := v % 2 ^ n

/-- The integer in the low bits of a word read in format `f` (R87, R88). -/
def IFmt.read (f : IFmt) (w : Word) : Int := if f.signed then sext w.toNat f.width else zext w.toNat f.width

/-- clamp(x, lo, hi) on integers (R94). -/
def clampInt (x lo hi : Int) : Int := min (max x lo) hi

/-- sat_int(x, fmt) (R94). -/
def satInt (x : Int) (f : IFmt) : Int := clampInt x f.range.1 f.range.2

/-- An integer modulo 2^32 as a word; also the placement of a signed (sign-extended) or unsigned (zero-extended)
element in a lane (R87). -/
def wordOfInt (x : Int) : Word := BitVec.ofInt 32 x

/-- key32 (R94). -/
def key32 (h : Word) : Word :=
  if FFmt.fp32.read h = .nan then 0xFFFFFFFF else if h.getLsbD 31 then ~~~h else h ||| 0x80000000

/-- key16 of a half held in bits [15:0] (R94). -/
def key16 (h : Word) : Word :=
  let h := h &&& 0xFFFF
  if FFmt.fp16.read h = .nan then 0xFFFF else if h.getLsbD 15 then ~~~h &&& 0xFFFF else h ||| 0x8000

/-! ## Rounding -/

/-- floor(log2 x) of a positive rational. -/
def log2Floor (x : Rat) : Int :=
  let g : Int := (Nat.log2 x.num.natAbs : Int) - (Nat.log2 x.den : Int)
  if pow2 g ≤ x then (if pow2 (g + 1) ≤ x then g + 1 else g) else g - 1

/-- The rounding decision of R92 and R93 for a fraction `f` above an integer `n`: does the magnitude round up?
`r` is bits [15:0] of the lane's next draw, which mode RS compares with floor(f × 2^16). -/
def roundUp (mode : RMode) (neg : Bool) (n : Nat) (f : Rat) (r : BitVec 16) : Bool :=
  if f = 0 then false
  else match mode with
    | .rne => decide (f > 1 / 2) || (decide (f = 1 / 2) && n % 2 == 1)
    | .rna => decide (f ≥ 1 / 2)
    | .rz => false
    | .ru => !neg
    | .rd => neg
    | .rs => decide ((r.toNat : Int) < (f * 65536).floor)

/-- A rounded result: its bits, the flags raised, and whether the lane's stream was drawn from (R93). -/
structure FRes where
  v    : Word
  fl   : Fl
  drew : Bool
  deriving DecidableEq, Repr

/-- A result given directly, exactly and without flags. -/
def FRes.exact (v : Word) : FRes := ⟨v, flNone, false⟩

/-- The canonical NaN with NV. -/
def FRes.invalid (f : FFmt) : FRes := ⟨f.canon, flNV, false⟩

/-- round_to(x, fmt, mode, sat) of a non-zero rational (R92); `r` as in `roundUp`. The magnitude bits of the value
n × 2^(e − m) are (e − emin) × 2^m + n, in every binade and below normal_min alike. -/
def roundTo (x : Rat) (fmt : FFmt) (mode : RMode) (sat : Bool) (r : BitVec 16) : FRes :=
  let neg := decide (x < 0)
  let ax := if neg then -x else x
  let m := fmt.mbits
  let emin : Int := 1 - fmt.bias
  let e := max (log2Floor ax) emin
  let t := ax / pow2 (e - m)
  let n := t.floor.toNat
  let f := t - (n : Rat)
  let up := roundUp mode neg n f r
  let n' := if up then n + 1 else n
  let mag := (e - emin).toNat * 2 ^ m + n'
  let inexact := decide (f ≠ 0)
  let drew := inexact && decide (mode = .rs)
  if mag > fmt.maxMag then
    let big := match mode with
      | .rne | .rna | .rs => true
      | .ru => !neg
      | .rd => neg
      | .rz => false
    let v := if sat || !fmt.hasInf then fmt.max neg else if big then fmt.inf neg else fmt.max neg
    ⟨v, flOF ||| flNX, drew⟩
  else
    ⟨fmt.pack neg mag, flWhen inexact flNX ||| flWhen (inexact && decide (mag < 2 ^ m)) flUF, drew⟩

/-- round_int(x, mode) (R92): the integer, and whether x was integral. -/
def roundInt (x : Rat) (mode : RMode) (r : BitVec 16) : Int × Bool :=
  let neg := decide (x < 0)
  let ax := if neg then -x else x
  let n := ax.floor.toNat
  let f := ax - (n : Rat)
  let n' : Int := if roundUp mode neg n f r then n + 1 else n
  (if neg then -n' else n', decide (f = 0))

/-- The FP32 value of an exact rational, rounded RN-even: round_to without its flags. -/
def fp32Of (x : Rat) : Word := if x = 0 then 0 else (roundTo x .fp32 .rne false 0).v

/-! ## Addition, multiplication and fused forms (R104) -/

/-- The exact sum of terms before rounding: a special result given directly, or a number to round. -/
inductive Exact where
  | nan
  | invalid
  | inf (neg : Bool)
  | zero (neg : Bool)
  | num (x : Rat)
  deriving DecidableEq, Repr

/-- Round an exact result into format `f` (R92, R104). -/
def Exact.round (x : Exact) (f : FFmt) (mode : RMode) (sat : Bool) (r : BitVec 16) : FRes :=
  match x with
  | .nan => .exact f.canon
  | .invalid => .invalid f
  | .inf n => .exact (f.inf n)
  | .zero n => .exact (f.zero n)
  | .num q => roundTo q f mode sat r

/-- The product of two values as one term; `none` for 0 × ∞. -/
def mulVal (a b : Val) : Option Val :=
  match a, b with
  | .nan, _ => some .nan
  | _, .nan => some .nan
  | .inf _, .zero _ => none
  | .zero _, .inf _ => none
  | .inf n, b => some (.inf (n != b.neg))
  | a, .inf n => some (.inf (a.neg != n))
  | .zero n, b => some (.zero (n != b.neg))
  | a, .zero n => some (.zero (a.neg != n))
  | .fin x, .fin y => some (.fin (x * y))

/-- The exact sum of terms that are not NaN (R103, R104): an infinity, an invalid sum of infinities, or a number.
`zneg` is the sign of an exact zero total. -/
def sumVals (ts : List Val) (zneg : Bool) : Exact :=
  let pos := ts.any (fun t => t == .inf false)
  let neg := ts.any (fun t => t == .inf true)
  if pos && neg then .invalid
  else if pos then .inf false
  else if neg then .inf true
  else
    let x := (ts.map Val.toRat).foldl (· + ·) 0
    if x = 0 then .zero zneg else .num x

/-- The sign of an exact zero sum of two terms (R104): non-zero terms that cancel give −0 under RD alone; zeros give
−0 when both are −0, or when the mode is RD and they differ in sign. -/
def zeroSign2 (a b : Val) (mode : RMode) : Bool :=
  match a, b with
  | .zero x, .zero y => (x && y) || (decide (mode = .rd) && x != y)
  | _, _ => decide (mode = .rd)

/-- a + b exactly (R104). -/
def addExact (a b : Val) (mode : RMode) : Exact :=
  if a = .nan ∨ b = .nan then .nan else sumVals [a, b] (zeroSign2 a b mode)

/-- a × b exactly (R104). -/
def mulExact (a b : Val) : Exact :=
  match mulVal a b with
  | none => .invalid
  | some .nan => .nan
  | some (.inf n) => .inf n
  | some (.zero n) => .zero n
  | some (.fin x) => .num x

/-- ±(a × b) ± c exactly, `np` and `nc` negating the product and the addend (R104). A NaN operand comes before an
invalid product. -/
def fmaExact (a b c : Val) (np nc : Bool) (mode : RMode) : Exact :=
  if a = .nan ∨ b = .nan ∨ c = .nan then .nan
  else
    match mulVal a b with
    | none => .invalid
    | some p =>
      let p := if np then p.negate else p
      let c := if nc then c.negate else c
      sumVals [p, c] (zeroSign2 p c mode)

/-- a / b exactly for XDIV (R115): the quotient, and DZ where a finite non-zero value meets zero. -/
def divExact (a b : Val) : Exact × Fl :=
  match a, b with
  | .nan, _ => (.nan, 0)
  | _, .nan => (.nan, 0)
  | .zero _, .zero _ => (.invalid, 0)
  | .inf _, .inf _ => (.invalid, 0)
  | .fin x, .zero n => (.inf (decide (x < 0) != n), flDZ)
  | .inf n, b => (.inf (n != b.neg), 0)
  | a, .inf n => (.zero (a.neg != n), 0)
  | .zero n, .fin y => (.zero (n != decide (y < 0)), 0)
  | .fin x, .fin y => (.num (x / y), 0)

/-- VFADD in format `f` (R104). -/
def fadd (f : FFmt) (mode : RMode) (r : BitVec 16) (a b : Word) : FRes :=
  (addExact (f.read a) (f.read b) mode).round f mode false r

/-- VFSUB in format `f`. -/
def fsub (f : FFmt) (mode : RMode) (r : BitVec 16) (a b : Word) : FRes :=
  (addExact (f.read a) (f.read b).negate mode).round f mode false r

/-- VFMUL in format `f`. -/
def fmul (f : FFmt) (mode : RMode) (r : BitVec 16) (a b : Word) : FRes :=
  (mulExact (f.read a) (f.read b)).round f mode false r

/-- VFMA, VFMS and VFNMA in format `f`. -/
def ffma (f : FFmt) (mode : RMode) (r : BitVec 16) (np nc : Bool) (a b c : Word) : FRes :=
  (fmaExact (f.read a) (f.read b) (f.read c) np nc mode).round f mode false r

/-- XDIV (R115): rounded RN-even whatever the mode. -/
def fdiv32 (a b : Word) : FRes :=
  let q := divExact (FFmt.fp32.read a) (FFmt.fp32.read b)
  let x := q.1.round .fp32 .rne false 0
  { x with fl := x.fl ||| q.2 }

/-! RN-even FP32 operations without flags, for the helpers fma and round of R94. -/

/-- a + b. -/
def add32 (a b : Word) : Word := (fadd .fp32 .rne 0 a b).v
/-- a − b. -/
def sub32 (a b : Word) : Word := (fsub .fp32 .rne 0 a b).v
/-- a × b. -/
def mul32 (a b : Word) : Word := (fmul .fp32 .rne 0 a b).v
/-- a / b. -/
def div32 (a b : Word) : Word := (fdiv32 a b).v
/-- fma(a, b, c) (R94). -/
def fma32 (a b c : Word) : Word := (ffma .fp32 .rne 0 false false a b c).v
/-- The FP32 value is a NaN. -/
def isNan32 (a : Word) : Bool := FFmt.fp32.read a == .nan
/-- The FP32 value is NaN or infinite. -/
def notFinite32 (a : Word) : Bool := !(FFmt.fp32.read a).finite
/-- The FP32 value as a number, for a finite one. -/
def rat32 (a : Word) : Rat := (FFmt.fp32.read a).toRat

/-! ## Square roots -/

/-- The integer square root, by `fuel` binary digits from the top: the largest s with s² ≤ n among numbers below
2^fuel. -/
def isqrtAux (n : Nat) : Nat → Nat → Nat
  | 0, s => s
  | k + 1, s => if (s + 2 ^ k) * (s + 2 ^ k) ≤ n then isqrtAux n k (s + 2 ^ k) else isqrtAux n k s

/-- floor(√n). -/
def isqrt (n : Nat) : Nat := isqrtAux n (Nat.log2 n / 2 + 1) 0

/-- A rational that rounds to any grid of at most 40 significant bits as √x does, for x > 0: √x itself where it is
rational on a grid of 2^−64 relative size, else the middle of the cell of that grid that holds it. -/
def sqrtRep (x : Rat) : Rat :=
  let a := x.num.natAbs * x.den
  let k := 64 + Nat.log2 x.den
  let n := a * 4 ^ k
  let s := isqrt n
  if s * s = n then mkRat s (x.den * 2 ^ k) else mkRat (2 * s + 1) (x.den * 2 ^ (k + 1))

/-- √x in FP32, RN-even, with the special cases of XSQRT (R115). -/
def fsqrt32 (a : Word) : FRes :=
  match FFmt.fp32.read a with
  | .nan => .exact FFmt.fp32.canon
  | .zero _ => .exact a
  | .inf false => .exact a
  | .inf true => .invalid .fp32
  | .fin x => if x < 0 then .invalid .fp32 else roundTo (sqrtRep x) .fp32 .rne false 0

/-- 1/√x in FP32, RN-even, with the special cases of XRSQ (R115). -/
def frsqrt32 (a : Word) : FRes :=
  match FFmt.fp32.read a with
  | .nan => .exact FFmt.fp32.canon
  | .zero n => ⟨FFmt.fp32.inf n, flDZ, false⟩
  | .inf false => .exact 0
  | .inf true => .invalid .fp32
  | .fin x => if x < 0 then .invalid .fp32 else roundTo (sqrtRep (1 / x)) .fp32 .rne false 0

/-- 1/x in FP32, RN-even, with the special cases of XRCP (R115). -/
def frcp32 (a : Word) : FRes :=
  match FFmt.fp32.read a with
  | .nan => .exact FFmt.fp32.canon
  | .zero n => ⟨FFmt.fp32.inf n, flDZ, false⟩
  | .inf n => .exact (FFmt.fp32.zero n)
  | .fin x => roundTo (1 / x) .fp32 .rne false 0

/-! ## Scales and group quantisation -/

/-- The E8M0+2 block scale in bits [9:0] (R90); `none` for NaN. -/
def blockScale (w : Word) : Option Rat :=
  let e := w.toNat / 4 % 256
  let f := w.toNat % 4
  if e = 255 then none else some (pow2 ((e : Int) - 127) * (1 + (f : Rat) / 4))

/-- The E5M3 block scale in bits [7:0] (R91); `none` for NaN. -/
def fineScale (w : Word) : Option Rat :=
  let v := w.toNat % 256
  let e := v / 8
  let m := v % 8
  if v = 255 then none
  else if e = 0 then some (pow2 (-14) * ((m : Rat) / 8))
  else some (pow2 ((e : Int) - 15) * (1 + (m : Rat) / 8))

/-- The value of group element q under FP16 scale s and zero point z (R89), as a value. The product of a scale and an
exact integer; a zero product takes the product's sign. -/
def groupVal (s : Val) (q z : Int) : Val :=
  let k := q - z
  let kv : Val := if k = 0 then .zero false else .fin k
  match mulVal s kv with
  | none => .nan
  | some v => v

/-- A value that is exact in FP32, as its FP32 pattern (fp32 of R94). -/
def valTo32 (v : Val) : Word :=
  match v with
  | .nan => FFmt.fp32.canon
  | .inf n => FFmt.fp32.inf n
  | .zero n => FFmt.fp32.zero n
  | .fin x => fp32Of x

/-- The format of an element code of R30 from 0 to 7. -/
def FFmt.ofCode (c : Nat) : FFmt :=
  match c with
  | 1 => .fp16 | 2 => .bf16 | 3 => .e4m3 | 4 => .e5m2 | 5 => .e3m2 | 6 => .e2m3 | 7 => .e2m1 | _ => .fp32

/-- The format of an element code of R30 from 8 to 14. -/
def IFmt.ofCode (c : Nat) : IFmt :=
  match c with
  | 9 => .uint32 | 10 => .int16 | 11 => .int8 | 12 => .uint8 | 13 => .int4 | 14 => .uint4 | _ => .int32

end Sys2Proof.Machine
end

