-- ==== Sys2Proof/Syntax.lean ====
section
/-! DEFINITION. The instruction set as data: one constructor for every row of spec/opcode_table.json.

The first 279 constructors are the words of the opcode map (R27). Their operands are the fields of the word, in the
order the assembly writes them (destination first, R34), without the chain bit C and the switch marker K, which belong
to the word's place in its group (R16, R19, R78) and not to what it does. The last 98 are the part's events: steps that
other agents take (spec/95_what_each_step_holds.md). An event has no word; its operands name the thing it happens to,
and carry what an agent outside the part (Trestle, a host client, a sensor) chose. -/

namespace Sys2Proof

/-- A thread of a workgroup: `ix` is the wave index 0 to 15 (R10), or 16 for the workgroup's MCC thread (the bit the
barrier image gives it, R373). `wg` is the model's own number of the workgroup, one for each placement of a dispatch's
workgroup (log entry 3). -/
structure TKey where
  wg : Nat
  ix : Nat
  deriving DecidableEq, Repr

/-- The platform registers that PLATFORM_REGISTER_WRITE reaches (R385, R388, R391). -/
inductive PfReg where
  | duty | scrub | cxl0 | cxl1
  deriving DecidableEq, Repr

/-- What the scrubber finds in a sector (R385). -/
inductive ScrubFinding where
  | clean | correctable | mismatch
  deriving DecidableEq, Repr

/-- What commissioning finds of a DRAM row (R384): its retention class, or that it fails the 32 ms test. -/
inductive RowClass where
  | ms32 | ms64 | ms128 | fails
  deriving DecidableEq, Repr

/-- The client ring a request came by and its tag (R389, R390). -/
structure HostReq where
  client : BitVec 6
  tag    : Word
  deriving DecidableEq, Repr

/-- What stands beside the supervisor's firmware on the boot drive (R393): the public key and the Falcon-1024 signature. -/
structure BootSeal where
  key : List Byte
  sig : List Byte
  deriving DecidableEq, Repr

/-- A lane of a RAY word, and the visits that its traversal makes before it stands still (R266, R274). -/
structure LaneVisits where
  lane   : Nat
  visits : Nat
  deriving DecidableEq, Repr

/-- Trestle's choices for a load (R51): the image base, the entries it writes into its page tables, and the ring address
of each node and the address of each region template's RCB, in order. -/
structure LoadPlan where
  base  : Nat
  ents  : List (Nat × BitVec 64)
  rings : List Nat
  rcbs  : List Nat
  deriving DecidableEq, Repr

/-- The arguments of ALLOC (R390). -/
structure AllocArgs where
  bytes : Nat
  psize : Byte
  type  : Byte
  attrs : Byte
  deriving DecidableEq, Repr

/-- The arguments of COPY (R390): for host to device, `data` are the bytes the endpoint read from the host buffer. -/
structure CopyArgs where
  dva   : Nat
  bytes : Nat
  dir   : Word
  data  : List Byte
  deriving DecidableEq, Repr

/-- Every step of the part: the words of R27 and the events. -/
inductive Instr where
  /-- NOP (R76). -/
  | nop
  /-- MJOIN (R67). -/
  | mjoin (o : BitVec 19)
  /-- JOIN (R68). -/
  | join
  /-- RET (R62). -/
  | ret
  /-- JMPR (R62). -/
  | jmpr (n : BitVec 6)
  /-- LOOP (R72). -/
  | loop (s : BitVec 6) (n : BitVec 7)
  /-- LOOPI (R72). -/
  | loopi (t : BitVec 12) (n : BitVec 7)
  /-- LBRK (R74). -/
  | lbrk
  /-- YIELD (R76). -/
  | yield (y : BitVec 19)
  /-- WAITX (R76). -/
  | waitx (w : BitVec 4)
  /-- BR (R60). -/
  | br (o : BitVec 23)
  /-- CALL (R60). -/
  | call (o : BitVec 23)
  /-- BRU (R61). -/
  | bru (s : BitVec 6) (q : BitVec 2) (o : BitVec 16)
  /-- BRS (R65). -/
  | brs (m : BitVec 6) (e : BitVec 2) (o : BitVec 16)
  /-- SADD (R57). -/
  | sadd (d : BitVec 6) (a : BitVec 6) (b : BitVec 6) (l : Bool)
  /-- SSUB (R57). -/
  | ssub (d : BitVec 6) (a : BitVec 6) (b : BitVec 6) (l : Bool)
  /-- SMUL (R57). -/
  | smul (d : BitVec 6) (a : BitVec 6) (b : BitVec 6) (l : Bool)
  /-- SMULH (R57). -/
  | smulh (d : BitVec 6) (a : BitVec 6) (b : BitVec 6) (l : Bool)
  /-- SDIV (R58). -/
  | sdiv (d : BitVec 6) (a : BitVec 6) (b : BitVec 6) (l : Bool)
  /-- SDIVU (R58). -/
  | sdivu (d : BitVec 6) (a : BitVec 6) (b : BitVec 6) (l : Bool)
  /-- SREM (R58). -/
  | srem (d : BitVec 6) (a : BitVec 6) (b : BitVec 6) (l : Bool)
  /-- SAND (R57). -/
  | sand (d : BitVec 6) (a : BitVec 6) (b : BitVec 6) (l : Bool)
  /-- SOR (R57). -/
  | sor (d : BitVec 6) (a : BitVec 6) (b : BitVec 6) (l : Bool)
  /-- SXOR (R57). -/
  | sxor (d : BitVec 6) (a : BitVec 6) (b : BitVec 6) (l : Bool)
  /-- SSHL (R57). -/
  | sshl (d : BitVec 6) (a : BitVec 6) (b : BitVec 6) (l : Bool)
  /-- SSHR (R57). -/
  | sshr (d : BitVec 6) (a : BitVec 6) (b : BitVec 6) (l : Bool)
  /-- SSRA (R57). -/
  | ssra (d : BitVec 6) (a : BitVec 6) (b : BitVec 6) (l : Bool)
  /-- SSHLI (R57). -/
  | sshli (d : BitVec 6) (a : BitVec 6) (n : BitVec 6) (l : Bool)
  /-- SSHRI (R57). -/
  | sshri (d : BitVec 6) (a : BitVec 6) (n : BitVec 6) (l : Bool)
  /-- SSRAI (R57). -/
  | ssrai (d : BitVec 6) (a : BitVec 6) (n : BitVec 6) (l : Bool)
  /-- SMIN (R57). -/
  | smin (d : BitVec 6) (a : BitVec 6) (b : BitVec 6) (l : Bool)
  /-- SMAX (R57). -/
  | smax (d : BitVec 6) (a : BitVec 6) (b : BitVec 6) (l : Bool)
  /-- SCEQ (R57). -/
  | sceq (d : BitVec 6) (a : BitVec 6) (b : BitVec 6) (l : Bool)
  /-- SCLT (R57). -/
  | sclt (d : BitVec 6) (a : BitVec 6) (b : BitVec 6) (l : Bool)
  /-- SCLTU (R57). -/
  | scltu (d : BitVec 6) (a : BitVec 6) (b : BitVec 6) (l : Bool)
  /-- SSEL (R57). -/
  | ssel (d : BitVec 6) (a : BitVec 6) (b : BitVec 6) (l : Bool)
  /-- SCLZ (R57). -/
  | sclz (d : BitVec 6) (a : BitVec 6) (l : Bool)
  /-- SPOP (R57). -/
  | spop (d : BitVec 6) (a : BitVec 6) (l : Bool)
  /-- SMOV (R57). -/
  | smov (d : BitVec 6) (a : BitVec 6) (l : Bool)
  /-- SADDI (R59). -/
  | saddi (d : BitVec 6) (a : BitVec 6) (i : BitVec 12)
  /-- SANDI (R59). -/
  | sandi (d : BitVec 6) (a : BitVec 6) (i : BitVec 12)
  /-- SORI (R59). -/
  | sori (d : BitVec 6) (a : BitVec 6) (i : BitVec 12)
  /-- VADD (R99). -/
  | vadd (d : BitVec 6) (a : BitVec 6) (b : BitVec 6) (l : Bool)
  /-- VSUB (R99). -/
  | vsub (d : BitVec 6) (a : BitVec 6) (b : BitVec 6) (l : Bool)
  /-- VMUL (R99). -/
  | vmul (d : BitVec 6) (a : BitVec 6) (b : BitVec 6) (l : Bool)
  /-- VMULH (R99). -/
  | vmulh (d : BitVec 6) (a : BitVec 6) (b : BitVec 6) (l : Bool)
  /-- VMAD (R99). -/
  | vmad (d : BitVec 6) (a : BitVec 6) (b : BitVec 6) (l : Bool)
  /-- VAND (R99). -/
  | vand (d : BitVec 6) (a : BitVec 6) (b : BitVec 6) (l : Bool)
  /-- VOR (R99). -/
  | vor (d : BitVec 6) (a : BitVec 6) (b : BitVec 6) (l : Bool)
  /-- VXOR (R99). -/
  | vxor (d : BitVec 6) (a : BitVec 6) (b : BitVec 6) (l : Bool)
  /-- VNOT (R99). -/
  | vnot (d : BitVec 6) (a : BitVec 6) (l : Bool)
  /-- VSHL (R99). -/
  | vshl (d : BitVec 6) (a : BitVec 6) (b : BitVec 6) (l : Bool)
  /-- VSHR (R99). -/
  | vshr (d : BitVec 6) (a : BitVec 6) (b : BitVec 6) (l : Bool)
  /-- VSRA (R99). -/
  | vsra (d : BitVec 6) (a : BitVec 6) (b : BitVec 6) (l : Bool)
  /-- VSHLI (R99). -/
  | vshli (d : BitVec 6) (a : BitVec 6) (n : BitVec 6) (l : Bool)
  /-- VSHRI (R99). -/
  | vshri (d : BitVec 6) (a : BitVec 6) (n : BitVec 6) (l : Bool)
  /-- VSRAI (R99). -/
  | vsrai (d : BitVec 6) (a : BitVec 6) (n : BitVec 6) (l : Bool)
  /-- VMIN (R99). -/
  | vmin (d : BitVec 6) (a : BitVec 6) (b : BitVec 6) (l : Bool)
  /-- VMAX (R99). -/
  | vmax (d : BitVec 6) (a : BitVec 6) (b : BitVec 6) (l : Bool)
  /-- VABS (R99). -/
  | vabs (d : BitVec 6) (a : BitVec 6) (l : Bool)
  /-- VNEG (R99). -/
  | vneg (d : BitVec 6) (a : BitVec 6) (l : Bool)
  /-- VCLZ (R99). -/
  | vclz (d : BitVec 6) (a : BitVec 6) (l : Bool)
  /-- VPOP (R99). -/
  | vpop (d : BitVec 6) (a : BitVec 6) (l : Bool)
  /-- VMOV (R99). -/
  | vmov (d : BitVec 6) (a : BitVec 6) (l : Bool)
  /-- VSELZ (R99). -/
  | vselz (d : BitVec 6) (a : BitVec 6) (b : BitVec 6) (l : Bool)
  /-- VADDI (R100). -/
  | vaddi (d : BitVec 6) (a : BitVec 6) (i : BitVec 12)
  /-- VANDI (R100). -/
  | vandi (d : BitVec 6) (a : BitVec 6) (i : BitVec 12)
  /-- VLI (R100). -/
  | vli (d : BitVec 6) (i : BitVec 12)
  /-- VCEQ (R102). -/
  | vceq (d : BitVec 6) (a : BitVec 6) (b : BitVec 6) (l : Bool)
  /-- VCNE (R102). -/
  | vcne (d : BitVec 6) (a : BitVec 6) (b : BitVec 6) (l : Bool)
  /-- VCLT (R102). -/
  | vclt (d : BitVec 6) (a : BitVec 6) (b : BitVec 6) (l : Bool)
  /-- VCLE (R102). -/
  | vcle (d : BitVec 6) (a : BitVec 6) (b : BitVec 6) (l : Bool)
  /-- VCLTU (R102). -/
  | vcltu (d : BitVec 6) (a : BitVec 6) (b : BitVec 6) (l : Bool)
  /-- VCLEU (R102). -/
  | vcleu (d : BitVec 6) (a : BitVec 6) (b : BitVec 6) (l : Bool)
  /-- VFCEQ (R102). -/
  | vfceq (d : BitVec 6) (a : BitVec 6) (b : BitVec 6) (l : Bool)
  /-- VFCNE (R102). -/
  | vfcne (d : BitVec 6) (a : BitVec 6) (b : BitVec 6) (l : Bool)
  /-- VFCLT (R102). -/
  | vfclt (d : BitVec 6) (a : BitVec 6) (b : BitVec 6) (l : Bool)
  /-- VFCLE (R102). -/
  | vfcle (d : BitVec 6) (a : BitVec 6) (b : BitVec 6) (l : Bool)
  /-- VFCUN (R102). -/
  | vfcun (d : BitVec 6) (a : BitVec 6) (b : BitVec 6) (l : Bool)
  /-- VDOTB (R103). -/
  | vdotb (d : BitVec 6) (a : BitVec 6) (b : BitVec 6) (l : Bool)
  /-- VDOTBS (R103). -/
  | vdotbs (d : BitVec 6) (a : BitVec 6) (b : BitVec 6) (l : Bool)
  /-- VDOTUB (R103). -/
  | vdotub (d : BitVec 6) (a : BitVec 6) (b : BitVec 6) (l : Bool)
  /-- VDOTUBS (R103). -/
  | vdotubs (d : BitVec 6) (a : BitVec 6) (b : BitVec 6) (l : Bool)
  /-- VDOTN (R103). -/
  | vdotn (d : BitVec 6) (a : BitVec 6) (b : BitVec 6) (l : Bool)
  /-- VDOTNS (R103). -/
  | vdotns (d : BitVec 6) (a : BitVec 6) (b : BitVec 6) (l : Bool)
  /-- VDOTH (R103). -/
  | vdoth (d : BitVec 6) (a : BitVec 6) (b : BitVec 6) (l : Bool)
  /-- VDOTBF (R103). -/
  | vdotbf (d : BitVec 6) (a : BitVec 6) (b : BitVec 6) (l : Bool)
  /-- VFADD (R104). -/
  | vfadd (d : BitVec 6) (a : BitVec 6) (b : BitVec 6) (l : Bool)
  /-- VFSUB (R104). -/
  | vfsub (d : BitVec 6) (a : BitVec 6) (b : BitVec 6) (l : Bool)
  /-- VFMUL (R104). -/
  | vfmul (d : BitVec 6) (a : BitVec 6) (b : BitVec 6) (l : Bool)
  /-- VFMA (R104). -/
  | vfma (d : BitVec 6) (a : BitVec 6) (b : BitVec 6) (l : Bool)
  /-- VFMS (R104). -/
  | vfms (d : BitVec 6) (a : BitVec 6) (b : BitVec 6) (l : Bool)
  /-- VFNMA (R104). -/
  | vfnma (d : BitVec 6) (a : BitVec 6) (b : BitVec 6) (l : Bool)
  /-- VFMIN (R105). -/
  | vfmin (d : BitVec 6) (a : BitVec 6) (b : BitVec 6) (l : Bool)
  /-- VFMAX (R105). -/
  | vfmax (d : BitVec 6) (a : BitVec 6) (b : BitVec 6) (l : Bool)
  /-- VFMINN (R105). -/
  | vfminn (d : BitVec 6) (a : BitVec 6) (b : BitVec 6) (l : Bool)
  /-- VFMAXN (R105). -/
  | vfmaxn (d : BitVec 6) (a : BitVec 6) (b : BitVec 6) (l : Bool)
  /-- VFABS (R105). -/
  | vfabs (d : BitVec 6) (a : BitVec 6) (l : Bool)
  /-- VFNEG (R105). -/
  | vfneg (d : BitVec 6) (a : BitVec 6) (l : Bool)
  /-- VFCPS (R105). -/
  | vfcps (d : BitVec 6) (a : BitVec 6) (b : BitVec 6) (l : Bool)
  /-- VFRND (R105). -/
  | vfrnd (d : BitVec 6) (a : BitVec 6) (l : Bool)
  /-- VFTRC (R105). -/
  | vftrc (d : BitVec 6) (a : BitVec 6) (l : Bool)
  /-- VFCLASS (R105). -/
  | vfclass (d : BitVec 6) (a : BitVec 6) (l : Bool)
  /-- HADD (R106). -/
  | hadd (d : BitVec 6) (a : BitVec 6) (b : BitVec 6) (l : Bool)
  /-- HSUB (R106). -/
  | hsub (d : BitVec 6) (a : BitVec 6) (b : BitVec 6) (l : Bool)
  /-- HMUL (R106). -/
  | hmul (d : BitVec 6) (a : BitVec 6) (b : BitVec 6) (l : Bool)
  /-- HFMA (R106). -/
  | hfma (d : BitVec 6) (a : BitVec 6) (b : BitVec 6) (l : Bool)
  /-- HMIN (R106). -/
  | hmin (d : BitVec 6) (a : BitVec 6) (b : BitVec 6) (l : Bool)
  /-- HMAX (R106). -/
  | hmax (d : BitVec 6) (a : BitVec 6) (b : BitVec 6) (l : Bool)
  /-- BADD (R106). -/
  | badd (d : BitVec 6) (a : BitVec 6) (b : BitVec 6) (l : Bool)
  /-- BMUL (R106). -/
  | bmul (d : BitVec 6) (a : BitVec 6) (b : BitVec 6) (l : Bool)
  /-- BFMA (R106). -/
  | bfma (d : BitVec 6) (a : BitVec 6) (b : BitVec 6) (l : Bool)
  /-- XCVT (R109). -/
  | xcvt (d : BitVec 6) (a : BitVec 6) (s : BitVec 4) (t : BitVec 4) (r : BitVec 3) (u : Bool)
  /-- XRCP (R115). -/
  | xrcp (d : BitVec 6) (a : BitVec 6) (l : Bool)
  /-- XRSQ (R115). -/
  | xrsq (d : BitVec 6) (a : BitVec 6) (l : Bool)
  /-- XSQRT (R115). -/
  | xsqrt (d : BitVec 6) (a : BitVec 6) (l : Bool)
  /-- XEXP2 (R116). -/
  | xexp2 (d : BitVec 6) (a : BitVec 6) (l : Bool)
  /-- XLOG2 (R116). -/
  | xlog2 (d : BitVec 6) (a : BitVec 6) (l : Bool)
  /-- XSIN (R116). -/
  | xsin (d : BitVec 6) (a : BitVec 6) (l : Bool)
  /-- XCOS (R116). -/
  | xcos (d : BitVec 6) (a : BitVec 6) (l : Bool)
  /-- XTANH (R116). -/
  | xtanh (d : BitVec 6) (a : BitVec 6) (l : Bool)
  /-- XDIV (R115). -/
  | xdiv (d : BitVec 6) (a : BitVec 6) (b : BitVec 6) (l : Bool)
  /-- XPACK6 (R110). -/
  | xpack6 (d : BitVec 6) (a : BitVec 6) (l : Bool)
  /-- XUNPK6 (R110). -/
  | xunpk6 (d : BitVec 6) (a : BitVec 6) (l : Bool)
  /-- XPACK4 (R110). -/
  | xpack4 (d : BitVec 6) (a : BitVec 6) (b : BitVec 6) (l : Bool)
  /-- XUNPK4 (R110). -/
  | xunpk4 (d : BitVec 6) (a : BitVec 6) (l : Bool)
  /-- XPACKH (R110). -/
  | xpackh (d : BitVec 6) (a : BitVec 6) (b : BitVec 6) (l : Bool)
  /-- XPACKB (R110). -/
  | xpackb (d : BitVec 6) (a : BitVec 6) (b : BitVec 6) (l : Bool)
  /-- XQNT4 (R112). -/
  | xqnt4 (d : BitVec 6) (a : BitVec 6) (b : BitVec 6) (l : Bool)
  /-- XQNT8 (R112). -/
  | xqnt8 (d : BitVec 6) (a : BitVec 6) (b : BitVec 6) (l : Bool)
  /-- XDQNT4 (R112). -/
  | xdqnt4 (d : BitVec 6) (a : BitVec 6) (b : BitVec 6) (l : Bool)
  /-- XDQNT8 (R112). -/
  | xdqnt8 (d : BitVec 6) (a : BitVec 6) (b : BitVec 6) (l : Bool)
  /-- XQMX (R114). -/
  | xqmx (d : BitVec 6) (a : BitVec 6) (b : BitVec 6) (l : Bool)
  /-- XDQMX (R114). -/
  | xdqmx (d : BitVec 6) (a : BitVec 6) (b : BitVec 6) (l : Bool)
  /-- XAMAX (R113). -/
  | xamax (d : BitVec 6) (a : BitVec 6) (b : BitVec 6) (l : Bool)
  /-- XRNGB (R118). -/
  | xrngb (d : BitVec 6)
  /-- XRNGU (R118). -/
  | xrngu (d : BitVec 6)
  /-- XRNGK (R118). -/
  | xrngk (d : BitVec 6) (a : BitVec 6) (b : BitVec 6) (l : Bool)
  /-- XRNGJ (R118). -/
  | xrngj (a : BitVec 6) (b : BitVec 6) (l : Bool)
  /-- WSHF (R123). -/
  | wshf (d : BitVec 6) (a : BitVec 6) (b : BitVec 6) (l : Bool)
  /-- WSHFI (R123). -/
  | wshfi (d : BitVec 6) (a : BitVec 6) (n : BitVec 6) (l : Bool)
  /-- WXOR (R123). -/
  | wxor (d : BitVec 6) (a : BitVec 6) (n : BitVec 6) (l : Bool)
  /-- WUP (R123). -/
  | wup (d : BitVec 6) (a : BitVec 6) (n : BitVec 6) (l : Bool)
  /-- WDN (R123). -/
  | wdn (d : BitVec 6) (a : BitVec 6) (n : BitVec 6) (l : Bool)
  /-- WBC (R123). -/
  | wbc (d : BitVec 6) (a : BitVec 6) (l : Bool)
  /-- WSCAN (R125). -/
  | wscan (d : BitVec 6) (a : BitVec 6) (l : Bool)
  /-- WSCANX (R125). -/
  | wscanx (d : BitVec 6) (a : BitVec 6) (l : Bool)
  /-- WSCANF (R126). -/
  | wscanf (d : BitVec 6) (a : BitVec 6) (l : Bool)
  /-- WSCANMIN (R125). -/
  | wscanmin (d : BitVec 6) (a : BitVec 6) (l : Bool)
  /-- WSCANMAX (R125). -/
  | wscanmax (d : BitVec 6) (a : BitVec 6) (l : Bool)
  /-- WRED (R127). -/
  | wred (d : BitVec 6) (a : BitVec 6) (l : Bool)
  /-- WREDF (R128). -/
  | wredf (d : BitVec 6) (a : BitVec 6) (l : Bool)
  /-- WREDMIN (R127). -/
  | wredmin (d : BitVec 6) (a : BitVec 6) (l : Bool)
  /-- WREDMAX (R127). -/
  | wredmax (d : BitVec 6) (a : BitVec 6) (l : Bool)
  /-- WREDAND (R127). -/
  | wredand (d : BitVec 6) (a : BitVec 6) (l : Bool)
  /-- WREDOR (R127). -/
  | wredor (d : BitVec 6) (a : BitVec 6) (l : Bool)
  /-- WVOTE (R129). -/
  | wvote (d : BitVec 6) (a : BitVec 6) (l : Bool)
  /-- WANY (R129). -/
  | wany (d : BitVec 6) (a : BitVec 6) (l : Bool)
  /-- WALL (R129). -/
  | wall (d : BitVec 6) (a : BitVec 6) (l : Bool)
  /-- WCOMP (R124). -/
  | wcomp (d : BitVec 6) (a : BitVec 6) (b : BitVec 6) (l : Bool)
  /-- WMAXI (R131). -/
  | wmaxi (d : BitVec 6) (a : BitVec 6) (b : BitVec 6) (l : Bool)
  /-- WFLG (R130). -/
  | wflg (d : BitVec 6) (g : BitVec 6)
  /-- WFLCLR (R130). -/
  | wflclr (m : BitVec 5)
  /-- LDB (R136). -/
  | ldb (d : BitVec 6) (a : BitVec 6) (s : BitVec 5) (h : BitVec 2)
  /-- LDBU (R136). -/
  | ldbu (d : BitVec 6) (a : BitVec 6) (s : BitVec 5) (h : BitVec 2)
  /-- LDH (R136). -/
  | ldh (d : BitVec 6) (a : BitVec 6) (s : BitVec 5) (h : BitVec 2)
  /-- LDHU (R136). -/
  | ldhu (d : BitVec 6) (a : BitVec 6) (s : BitVec 5) (h : BitVec 2)
  /-- LDW (R136). -/
  | ldw (d : BitVec 6) (a : BitVec 6) (s : BitVec 5) (h : BitVec 2)
  /-- LDD (R136). -/
  | ldd (d : BitVec 6) (a : BitVec 6) (s : BitVec 5) (h : BitVec 2)
  /-- LDQ (R136). -/
  | ldq (d : BitVec 6) (a : BitVec 6) (s : BitVec 5) (h : BitVec 2)
  /-- SLDW (R138). -/
  | sldw (d : BitVec 6) (a : BitVec 6) (s : BitVec 5) (h : BitVec 2)
  /-- SLDD (R138). -/
  | sldd (d : BitVec 6) (a : BitVec 6) (s : BitVec 5) (h : BitVec 2)
  /-- SLDQ (R138). -/
  | sldq (d : BitVec 6) (a : BitVec 6) (s : BitVec 5) (h : BitVec 2)
  /-- STB (R137). -/
  | stb (d : BitVec 6) (a : BitVec 6) (s : BitVec 5) (h : BitVec 2)
  /-- STH (R137). -/
  | sth (d : BitVec 6) (a : BitVec 6) (s : BitVec 5) (h : BitVec 2)
  /-- STW (R137). -/
  | stw (d : BitVec 6) (a : BitVec 6) (s : BitVec 5) (h : BitVec 2)
  /-- STD (R137). -/
  | std (d : BitVec 6) (a : BitVec 6) (s : BitVec 5) (h : BitVec 2)
  /-- STQ (R137). -/
  | stq (d : BitVec 6) (a : BitVec 6) (s : BitVec 5) (h : BitVec 2)
  /-- ST64 (R137). -/
  | st64 (d : BitVec 6) (a : BitVec 6) (s : BitVec 5) (h : BitVec 2)
  /-- SSTW (R138). -/
  | sstw (d : BitVec 6) (a : BitVec 6) (s : BitVec 5) (h : BitVec 2)
  /-- SSTD (R138). -/
  | sstd (d : BitVec 6) (a : BitVec 6) (s : BitVec 5) (h : BitVec 2)
  /-- LLDW (R144). -/
  | lldw (d : BitVec 6) (a : BitVec 6) (s : BitVec 5)
  /-- LLDQ (R144). -/
  | lldq (d : BitVec 6) (a : BitVec 6) (s : BitVec 5)
  /-- LSTW (R144). -/
  | lstw (d : BitVec 6) (a : BitVec 6) (s : BitVec 5)
  /-- LSTQ (R144). -/
  | lstq (d : BitVec 6) (a : BitVec 6) (s : BitVec 5)
  /-- LPUSH (R145). -/
  | lpush (d : BitVec 6) (a : BitVec 6) (s : BitVec 5)
  /-- LPOP (R145). -/
  | lpop (d : BitVec 6) (a : BitVec 6) (s : BitVec 5)
  /-- LAADD (R144). -/
  | laadd (d : BitVec 6) (a : BitVec 6) (s : BitVec 5)
  /-- LAMIN (R144). -/
  | lamin (d : BitVec 6) (a : BitVec 6) (s : BitVec 5)
  /-- LAMAX (R144). -/
  | lamax (d : BitVec 6) (a : BitVec 6) (s : BitVec 5)
  /-- LAXCH (R144). -/
  | laxch (d : BitVec 6) (a : BitVec 6) (s : BitVec 5)
  /-- AADD (R140). -/
  | aadd (d : BitVec 6) (a : BitVec 6) (s : BitVec 5) (h : BitVec 2)
  /-- AMIN (R140). -/
  | amin (d : BitVec 6) (a : BitVec 6) (s : BitVec 5) (h : BitVec 2)
  /-- AMAX (R140). -/
  | amax (d : BitVec 6) (a : BitVec 6) (s : BitVec 5) (h : BitVec 2)
  /-- AAND (R140). -/
  | aand (d : BitVec 6) (a : BitVec 6) (s : BitVec 5) (h : BitVec 2)
  /-- AOR (R140). -/
  | aor (d : BitVec 6) (a : BitVec 6) (s : BitVec 5) (h : BitVec 2)
  /-- AXOR (R140). -/
  | axor (d : BitVec 6) (a : BitVec 6) (s : BitVec 5) (h : BitVec 2)
  /-- AXCH (R140). -/
  | axch (d : BitVec 6) (a : BitVec 6) (s : BitVec 5) (h : BitVec 2)
  /-- ACAS (R140). -/
  | acas (d : BitVec 6) (a : BitVec 6) (s : BitVec 5) (h : BitVec 2)
  /-- AFADD (R140). -/
  | afadd (d : BitVec 6) (a : BitVec 6) (s : BitVec 5) (h : BitVec 2)
  /-- AFMIN (R140). -/
  | afmin (d : BitVec 6) (a : BitVec 6) (s : BitVec 5) (h : BitVec 2)
  /-- AFMAX (R140). -/
  | afmax (d : BitVec 6) (a : BitVec 6) (s : BitVec 5) (h : BitVec 2)
  /-- AMXI (R141). -/
  | amxi (d : BitVec 6) (a : BitVec 6) (s : BitVec 5) (h : BitVec 2)
  /-- ACQ (R175). -/
  | acq
  /-- REL (R175). -/
  | rel
  /-- ACQREL (R175). -/
  | acqrel
  /-- FSMP (R176). -/
  | fsmp
  /-- FBVH (R176). -/
  | fbvh
  /-- FFAR (R177). -/
  | ffar (s : BitVec 5) (n : BitVec 8)
  /-- PREF (R178). -/
  | pref (h : BitVec 2) (s : BitVec 5) (n : BitVec 8)
  /-- INVL (R177). -/
  | invl (s : BitVec 5) (n : BitVec 8)
  /-- ESTA (R199). -/
  | esta (d : BitVec 6) (a : BitVec 6) (s : BitVec 5) (h : BitVec 2)
  /-- ESTW (R199). -/
  | estw (d : BitVec 6) (a : BitVec 6) (s : BitVec 5) (h : BitVec 2)
  /-- ESTG (R199). -/
  | estg (d : BitVec 6) (a : BitVec 6) (s : BitVec 5) (h : BitVec 2)
  /-- EMRG (R202). -/
  | emrg (d : BitVec 6) (a : BitVec 6) (s : BitVec 5) (h : BitVec 2)
  /-- ELD (R204). -/
  | eld (d : BitVec 6) (a : BitVec 6) (s : BitVec 5) (h : BitVec 2)
  /-- ELDR (R205). -/
  | eldr (d : BitVec 6) (a : BitVec 6) (s : BitVec 5) (h : BitVec 2)
  /-- EGEN (R203). -/
  | egen (d : BitVec 6) (a : BitVec 6) (s : BitVec 5) (h : BitVec 2)
  /-- EWATCH (R212). -/
  | ewatch (d : BitVec 6) (a : BitVec 6) (s : BitVec 5)
  /-- EUNW (R215). -/
  | eunw (d : BitVec 6) (a : BitVec 6)
  /-- CMPT (R226). -/
  | cmpt (d : BitVec 6) (a : BitVec 6) (s : BitVec 5) (h : BitVec 2)
  /-- CLDA (R232). -/
  | clda (d : BitVec 6) (a : BitVec 6) (s : BitVec 5) (h : BitVec 2)
  /-- CFLUSH (R232). -/
  | cflush (a : BitVec 6) (s : BitVec 5) (h : BitVec 2)
  /-- CCLR (R233). -/
  | cclr (a : BitVec 6) (s : BitVec 5) (h : BitVec 2)
  /-- CREP (R231). -/
  | crep (d : BitVec 6) (a : BitVec 6) (s : BitVec 5) (h : BitVec 2)
  /-- CBIND (R223). -/
  | cbind (d : BitVec 6) (a : BitVec 6) (s : BitVec 5)
  /-- BAR (R182). -/
  | bar (b : BitVec 4)
  /-- BARA (R182). -/
  | bara (b : BitVec 4)
  /-- BARW (R182). -/
  | barw (b : BitVec 4)
  /-- BARX (R182). -/
  | barx (b : BitVec 4) (n : BitVec 6)
  /-- OAPP (R340). -/
  | oapp (d : BitVec 6) (n : BitVec 6) (h : BitVec 4)
  /-- ODECL (R340). -/
  | odecl (h : BitVec 4)
  /-- LGET (R343). -/
  | lget
  /-- LPASS (R343). -/
  | lpass
  /-- SMPP (R252). -/
  | smpp (d : BitVec 6) (a : BitVec 6) (s : BitVec 5) (h : BitVec 2)
  /-- SMPB (R252). -/
  | smpb (d : BitVec 6) (a : BitVec 6) (s : BitVec 5) (h : BitVec 2)
  /-- SMPT (R252). -/
  | smpt (d : BitVec 6) (a : BitVec 6) (s : BitVec 5) (h : BitVec 2)
  /-- SMPA (R252). -/
  | smpa (d : BitVec 6) (a : BitVec 6) (s : BitVec 5) (h : BitVec 2)
  /-- SMPG (R252). -/
  | smpg (d : BitVec 6) (a : BitVec 6) (s : BitVec 5) (h : BitVec 2)
  /-- SFET (R252). -/
  | sfet (d : BitVec 6) (a : BitVec 6) (s : BitVec 5) (h : BitVec 2)
  /-- SLAT (R252). -/
  | slat (d : BitVec 6) (a : BitVec 6) (s : BitVec 5) (h : BitVec 2)
  /-- SQRY (R252). -/
  | sqry (d : BitVec 6) (a : BitVec 6) (s : BitVec 5) (h : BitVec 2)
  /-- DTBIND (R250). -/
  | dtbind (d : BitVec 6) (s : BitVec 5)
  /-- DTUNB (R250). -/
  | dtunb (d : BitVec 6)
  /-- DTQRY (R250). -/
  | dtqry (d : BitVec 6)
  /-- TRACE (R269). -/
  | trace (d : BitVec 6) (a : BitVec 6) (s : BitVec 5)
  /-- TRACEA (R269). -/
  | tracea (d : BitVec 6) (a : BitVec 6) (s : BitVec 5)
  /-- TCALL (R272). -/
  | tcall (p : BitVec 6) (a : BitVec 6) (s : BitVec 5)
  /-- TRRES (R273). -/
  | trres (d : BitVec 6)
  /-- RDRAW (R275). -/
  | rdraw (d : BitVec 6) (s : BitVec 5)
  /-- RWAIT (R275). -/
  | rwait (d : BitVec 6)
  /-- WGENQ (R332). -/
  | wgenq (d : BitVec 6) (n : BitVec 6) (a : BitVec 6)
  /-- LAUNCH (R328). -/
  | launch (d : BitVec 6) (s : BitVec 5)
  /-- WGFIN (R333). -/
  | wgfin
  /-- MLDF (R290). -/
  | mldf (d : BitVec 6) (n : BitVec 6)
  /-- MMA (R294). -/
  | mma (d : BitVec 6) (a : BitVec 6) (b : BitVec 6)
  /-- MMAZ (R294). -/
  | mmaz (d : BitVec 6) (a : BitVec 6) (b : BitVec 6)
  /-- MPOST (R294). -/
  | mpost (z : Bool) (d : BitVec 5) (a : BitVec 6) (b : BitVec 6)
  /-- MWAIT (R295). -/
  | mwait (e : Bool) (t : BitVec 5)
  /-- MDRAIN (R297). -/
  | mdrain (d : BitVec 6) (a : BitVec 6) (b : BitVec 6)
  /-- MFILL (R297). -/
  | mfill (d : BitVec 6) (a : BitVec 6) (b : BitVec 6)
  /-- MVNB (R300). -/
  | mvnb (d : BitVec 6) (a : BitVec 6)
  /-- MVWAIT (R295). -/
  | mvwait
  /-- HLOAD (R310). -/
  | hload (d : BitVec 6) (a : BitVec 6) (s : BitVec 5) (h : BitVec 2)
  /-- HSTORE (R311). -/
  | hstore (d : BitVec 6) (a : BitVec 6) (s : BitVec 5) (h : BitVec 2)
  /-- HMCAST (R312). -/
  | hmcast (d : BitVec 6) (a : BitVec 6) (s : BitVec 5) (h : BitVec 2)
  /-- HPREF (R313). -/
  | hpref (d : BitVec 6) (a : BitVec 6) (s : BitVec 5) (h : BitVec 2)
  /-- HBATCH (R314). -/
  | hbatch (d : BitVec 6)
  /-- WAITB (R314). -/
  | waitb (n : BitVec 6)
  /-- HQRY (R315). -/
  | hqry (d : BitVec 6) (a : BitVec 6) (s : BitVec 5) (h : BitVec 2)
  /-- TRAP (R355). -/
  | trap (n : BitVec 16)
  /-- RTE (R366). -/
  | rte
  /-- SCALL (R356). -/
  | scall (n : BitVec 16)
  /-- CTLR (R359). -/
  | ctlr (d : BitVec 6) (r : BitVec 12)
  /-- CTLW (R359). -/
  | ctlw (r : BitVec 12) (a : BitVec 6)
  /-- BKPT (R355). -/
  | bkpt (n : BitVec 16)
  /-- EXIT (R357). -/
  | exit
  /-- RDTIME (R358). -/
  | rdtime (d : BitVec 6)
  /-- CONST (R23). -/
  | const (p : BitVec 24)
  /-- event NON_INSTRUCTION (R29). -/
  | nonInstruction (slot : BitVec 2)
  /-- event LONG_LATENCY_RETURN (R77). -/
  | longLatencyReturn (id : Nat) (lanes : Mask) (regs : BitVec 8)
  /-- event JOIN_ARRIVE (R68). -/
  | joinArrive (t : TKey) (sp : BitVec 2)
  /-- event SPLIT_LEAVE (R69). -/
  | splitLeave (t : TKey) (sp : BitVec 2)
  /-- event WORKGROUP_RETIRE (R185). -/
  | workgroupRetire (wg : Nat)
  /-- event YIELD_EXPIRY (R76). -/
  | yieldExpiry (t : TKey) (sp : BitVec 2)
  /-- event PROGRESS_PROMOTE (R336). -/
  | progressPromote (t : TKey) (sp : BitVec 2)
  /-- event WRITE_QUEUE_ENTER (R151). -/
  | writeQueueEnter (core : Nat)
  /-- event STORE_REACH_HOME (R170). -/
  | storeReachHome (core id : Nat)
  /-- event REVOKE (R170). -/
  | revoke (core id cluster : Nat)
  /-- event STORE_ACK (R170). -/
  | storeAck (core id : Nat)
  /-- event LOAD_RETURN (R136). -/
  | loadReturn (id : Nat) (lanes : Mask) (regs : BitVec 8) (evict : Bool)
  /-- event ATOMIC_APPLY (R142). -/
  | atomicApply (id lane : Nat)
  /-- event ORDER_GATE_ADMIT (R346). -/
  | orderGateAdmit (id lane : Nat)
  /-- event ORDER_GATE_TIMEOUT (R346). -/
  | orderGateTimeout (rcb addr : Nat)
  /-- event FAULT_MAP (R161). -/
  | faultMap (rec : Nat) (ents : List (Nat × BitVec 64))
  /-- event FAULT_DENY (R161). -/
  | faultDeny (rec : Nat)
  /-- event FAULT_POISON (R165). -/
  | faultPoison (rec : Nat)
  /-- event FAULT_RETRY (R165). -/
  | faultRetry (rec : Nat)
  /-- event FAR_STORE_ACK (R164). -/
  | farStoreAck (core id : Nat)
  /-- event FAR_TIMEOUT (R165). -/
  | farTimeout (store : Bool) (core id : Nat)
  /-- event CXL_LINK_LOSS (R165). -/
  | cxlLinkLoss (port : Bool)
  /-- event POISON_TRAP_DEFERRED (R397). -/
  | poisonTrapDeferred (t : TKey) (sp : BitVec 2)
  /-- event SOFT_ERROR (R166). -/
  | softError (clm : Option Nat) (addr : Nat)
  /-- event RANGE_LOCK_RELEASE (R186). -/
  | rangeLockRelease (cluster entry : Nat)
  /-- event EST_CONTRIBUTE_APPLY (R200). -/
  | estContributeApply (id lane : Nat)
  /-- event EST_MERGE_APPLY (R202). -/
  | estMergeApply (id lane : Nat)
  /-- event EST_GEN_APPLY (R203). -/
  | estGenApply (id lane : Nat)
  /-- event ESTDROP_ACK (R201). -/
  | estdropAck (t : TKey)
  /-- event WATCH_SWEEP (R213). -/
  | watchSweep (handle : Nat)
  /-- event CMP_TERM_ARRIVE (R227). -/
  | cmpTermArrive (id lane : Nat)
  /-- event CRUCIBLE_HOLD_EXPIRE (R227). -/
  | crucibleHoldExpire (addr : Nat)
  /-- event MAT_GRANT (R296). -/
  | matGrant (cluster : Nat) (port : Bool)
  /-- event MAT_ENTRY_COMPLETE (R296). -/
  | matEntryComplete (cluster entry : Nat)
  /-- event MVNB_COMPLETE (R300). -/
  | mvnbComplete (cluster id : Nat)
  /-- event HAMPER_OP_START (R309). -/
  | hamperOpStart (t : TKey) (sp : BitVec 2)
  /-- event HAMPER_OP_COMPLETE (R314). -/
  | hamperOpComplete (cluster id : Nat)
  /-- event HMCAST_SHARE_LAND (R320). -/
  | hmcastShareLand (cluster id recv : Nat)
  /-- event TRACE_LANE_FINISH (R266, R274): the lane's traversal goes on for some visits. -/
  | traceLaneFinish (id : Nat) (lane : LaneVisits)
  /-- event TRACE_COMPLETE (R269). -/
  | traceComplete (id : Nat)
  /-- event RASTER_TRIANGLE (R277). -/
  | rasterTriangle (draw : Nat)
  /-- event RASTER_TILE_RECORD (R278). -/
  | rasterTileRecord (draw tile : Nat)
  /-- event NODE_GROUP_TIMER (R334). -/
  | nodeGroupTimer (rcb node : Nat)
  /-- event WORKGROUP_PLACE (R335). -/
  | workgroupPlace
  /-- event SHADOW_SWAP (R368). -/
  | shadowSwap (core : Nat) (rcb seq : Nat)
  /-- event SHADOW_SAVE_TIMEOUT (R368). -/
  | shadowSaveTimeout (core area : Nat)
  /-- event FULL_SAVE (R369). -/
  | fullSave (wg area : Nat)
  /-- event RESTORE (R370). -/
  | restore (wg : Nat)
  /-- event LADLE_HANDON (R344). -/
  | ladleHandon (rcb : Nat)
  /-- event LADLE_VISIT_TIMEOUT (R342). -/
  | ladleVisitTimeout (rcb : Nat)
  /-- event OAPP_GRANT (R340). -/
  | oappGrant (t : TKey) (sp : BitVec 2)
  /-- event SCALL_ANSWER (R356). -/
  | scallAnswer (t : TKey) (sp : BitVec 2) (ans : Option (List Word))
  /-- event BKPT_RESUME (R355). -/
  | bkptResume (t : TKey) (resume : Bool)
  /-- event CLM_BANK_MODE_WRITE (R147). -/
  | clmBankModeWrite (bank : BitVec 5) (val : Word)
  /-- event CLM_BANK_REFUSED_CLEAR (R146). -/
  | clmBankRefusedClear (bank : BitVec 5) (val : Word)
  /-- event LOOP_COUNTER_WRITE (R73). -/
  | loopCounterWrite (level : BitVec 2) (val : Word)
  /-- event HSTAT_CLEAR (R317). -/
  | hstatClear (val : Word)
  /-- event SSTAT_CLEAR (R254). -/
  | sstatClear (n : BitVec 2) (val : Word)
  /-- event MSTAT_CLEAR (R283). -/
  | mstatClear (val : Word)
  /-- event TRAP_STATE_WRITE (R361). -/
  | trapStateWrite (reg : BitVec 12) (val : Word)
  /-- event BAND_RISE (R378). -/
  | bandRise (band : BitVec 3) (temp : BitVec 10) (rate : BitVec 16)
  /-- event BAND_FALL (R378). -/
  | bandFall (band : BitVec 3) (temp : BitVec 10) (rate : BitVec 16)
  /-- event SOAK_STABLE (R380). -/
  | soakStable
  /-- event TRAIN_COMPLETE (R380). -/
  | trainComplete
  /-- event TRAIN_FAIL (R380). -/
  | trainFail
  /-- event EXCURSION_CLEAR (R380). -/
  | excursionClear
  /-- event FLASK_COOL (R380). -/
  | flaskCool
  /-- event FLASK_WARM (R380). -/
  | flaskWarm
  /-- event FLASK_RESUME (R382). -/
  | flaskResume
  /-- event FLASK_SERVICE (R380). -/
  | flaskService
  /-- event EXCURSION_CLR (R379). -/
  | excursionClr
  /-- event STACKWIN_WRITE (R387). -/
  | stackwinWrite (val : Word)
  /-- event CXL_DOWN_CLEAR (R391). -/
  | cxlDownClear (port : Bool)
  /-- event PLATFORM_REGISTER_WRITE (R388). -/
  | platformRegisterWrite (reg : PfReg) (val : Word)
  /-- event DUTY_REQUEST_ANSWER (R388). -/
  | dutyRequestAnswer (req : Nat)
  /-- event REFRESH_ROW (R384). -/
  | refreshRow (chan row : Nat)
  /-- event SCRUB_PASS_START (R385). -/
  | scrubPassStart (chan : Nat)
  /-- event SCRUB_SECTOR (R385). -/
  | scrubSector (chan addr : Nat) (found : ScrubFinding)
  /-- event SCRUB_ESCALATE (R385). -/
  | scrubEscalate (chan : Nat) (behind : Nat)
  /-- event DEVICE_RESET (R393). -/
  | deviceReset (firmware : Option (List Byte)) (good : BootSeal)
  /-- event HOST_LOAD (R49). -/
  | hostLoad (rq : HostReq) (rcb : Nat) (image : List Byte) (sig : Bool) (plan : LoadPlan)
  /-- event HOST_UNLOAD (R52). -/
  | hostUnload (rq : HostReq) (handle : Nat) (ents : List (Nat × BitVec 64))
  /-- event HOST_LAUNCH (R390). -/
  | hostLaunch (rq : HostReq) (rcb : Nat) (block : List Byte)
  /-- event HOST_ALLOC (R390). -/
  | hostAlloc (rq : HostReq) (rcb : Nat) (args : AllocArgs) (va : Nat) (ents : List (Nat × BitVec 64))
  /-- event HOST_COPY (R390). -/
  | hostCopy (rq : HostReq) (rcb : Nat) (args : CopyArgs)
  /-- event HOST_ATTEST (R393). -/
  | hostAttest (rq : HostReq) (nonce : List Byte)
  /-- event HOST_EVENTS (R390). -/
  | hostEvents (rq : HostReq) (capacity : Nat)
  /-- event HOST_FREE (R390). -/
  | hostFree (rq : HostReq) (rcb : Nat) (va bytes : Nat) (ents : List (Nat × BitVec 64))
  /-- event HOST_UNKNOWN_REQUEST (R389). -/
  | hostUnknownRequest (rq : HostReq) (code : Word)
  /-- event DECRO_TRANSFER_ARRIVE (R392). -/
  | decroTransferArrive (link addr : Nat) (data : List Byte)
  /-- event DECRO_LINK_LOSS (R392). -/
  | decroLinkLoss (link : Nat)
  /-- event LOAD_COMPLETE (R51). -/
  | loadComplete (handle : Nat)
  /-- event REGION_TEARDOWN (R212). -/
  | regionTeardown (rcb : Nat)
  /-- event RUN_END (R337). -/
  | runEnd (rcb : Nat)
  /-- event PAGE_RETIRE (R386). -/
  | pageRetire (old new : Nat) (ents : List (Nat × BitVec 64))
  /-- event CXL_LINK_UP (R391). -/
  | cxlLinkUp (port : Bool)
  /-- event ROW_BINNING (R384). -/
  | rowBinning (chan row : Nat) (cls : RowClass)
  /-- event BLOOM_FILTER_LOAD (R384). -/
  | bloomFilterLoad (chan : Nat) (bits32 bits64 : List Nat)
  deriving DecidableEq, Repr

end Sys2Proof
end

