-- ==== Sys2Proof/Machine/State.lean ====
section
/-! DEFINITION. The state of the part: everything the spec gives the machine, as plain data (INVENTORY.md, State).

The part holds threads (waves and MCC threads), the memory system, the clusters, the units shared by the part, and the
platform controllers. `thr` is the thread whose word is being executed; `threads` are the others (log entry 3). -/

namespace Sys2Proof.Machine

/-- Why the machine stops. -/
inductive Fault where
  /-- A Decro Link transfer or a soft error names a physical address that the map of R387 does not hold. Raised by the
  events DECRO_TRANSFER_ARRIVE and SOFT_ERROR only. Safe: the spec gives such an address no meaning. -/
  | physicalHole
  deriving DecidableEq, Repr

/-- Why an instruction has no meaning. -/
inductive Refusal where
  /-- The instruction has no meaning in the model yet. Raised by arms of `exec` only. Safe: nothing can be proved about
  a run through it. -/
  | notModelled (mnemonic : String)
  deriving DecidableEq, Repr

/-! ## Threads -/

/-- The shape tag of a vector register (R25); codes 0, 1, 2 in ctl.vtag (R361). -/
inductive Tag where
  | u | a | g
  deriving DecidableEq, Repr

/-- How a trap resumes (R362). -/
inductive Resume where
  | group | next | word
  deriving DecidableEq, Repr

/-- A trap before it is taken (R361, R362). `pc` and `slot` name where RTE resumes. -/
structure Trap where
  cls    : Nat
  cause  : Nat
  pc     : Word
  slot   : BitVec 2
  oslot  : BitVec 2
  replay : Bool
  addr   : BitVec 64
  lanes  : Mask
  deriving DecidableEq, Repr

/-- A place in the code: packet index and word slot (R18). -/
structure Place where
  pc   : Word
  slot : BitVec 2
  deriving DecidableEq, Repr

/-- A long-latency result that a word gives: its class (R76) and the runs of vector and scalar registers it writes. -/
structure Owed where
  cls : Nat
  vw  : List (Nat × Nat)
  sw  : List (Nat × Nat)
  deriving DecidableEq, Repr

/-- A decoder-table slot as a sampling word captured it (R249): its number, its bound bit, address and generation. -/
structure Capture where
  slot  : Nat
  bound : Bool
  addr  : Nat
  gen   : Nat
  deriving DecidableEq, Repr

/-- An M-pipe or T-pipe word that its split is parked at (R160, R174): its place, its unfinished lanes, how far it has
come (`stage` and `phase`, the word's own), the fault records it waits for, each with the lowest failing address, whether
one of them has been answered since it parked (`go`), its number in program order, and whether it is an ordering word, a
DS access or LGET (R341), a word that reads memory, or a store or contribution. `gslot` is the slot of its group's first
word. `owed` is the long-latency result it has still to give, if it gives one, and `splits` and `pends` say for which splits
and pending entries that result is outstanding (R77). `base` is the address that a ranged word read when it
issued (R173). `spans` are the virtual bytes, as address and length, that its unfinished lanes have still to write. A sampling
word keeps the slot that it captured (R249) and the texels that it has read, by address (R256). -/
structure ParkedWord where
  at_     : Place
  gslot   : BitVec 2
  owed    : Option Owed
  splits  : BitVec 4
  pends   : BitVec 16
  base    : Option (BitVec 64)
  spans   : List (Nat × Nat)
  cap     : Option Capture
  texels  : List (Nat × List Byte)
  lanes   : Mask
  stage   : Nat
  phase   : BitVec 16
  waits   : List (Nat × Nat)
  go      : Bool
  id      : Nat
  order   : Bool
  ds      : Bool
  reads   : Bool
  writes  : Bool
  deriving DecidableEq, Repr

/-- What an S-pipe word has the split wait for. -/
inductive Wait where
  /-- Nothing: the split may issue. -/
  | none
  /-- Parked at JOIN until its results return (R68). -/
  | join
  /-- Issued EXIT; leaves once its results return (R69, R357). -/
  | exit
  /-- WAITX on these classes (R76). -/
  | results (classes : BitVec 4)
  /-- YIELD until this clock (R76). -/
  | yield (clock : Nat)
  /-- YIELD 0: until each of these splits has moved on, or until the clock (R76). -/
  | yieldSet (set : List (TKey × BitVec 2)) (clock : Nat)
  /-- RTE, until the split's results return (R366). -/
  | rte
  /-- SCALL with this code before its request is written: it waits as REL does, for the words before number `op` (R356). -/
  | scallRel (code : BitVec 16) (op : Nat)
  /-- SCALL, until Trestle answers (R356). -/
  | scall
  /-- A fetch at the split's place found an unmapped page: waits for these fault records (R63). -/
  | fetch (waits : List (Nat × Nat))
  deriving DecidableEq, Repr

/-- A split (R55, R64). `next` is where it goes on once its parked words have finished: `parked`, then `also`, a second word
of the same group that did not finish. `since` is the clock from which it has been eligible, `promoted` says that it issues
ahead of R83 (R336). -/
structure Split where
  at_    : Place
  next   : Place
  fell   : Bool
  cur    : Mask
  owned  : Mask
  frame  : Option (BitVec 4)
  wait   : Wait
  mark   : Bool
  parked : Option ParkedWord
  also   : Option ParkedWord
  replay : Option Mask
  due    : Option Trap
  pend   : Option (Nat × Trap)
  xfer   : Option Place
  last   : Nat
  since  : Nat
  promoted : Bool
  deriving DecidableEq, Repr

/-- A rejoin entry (R64). -/
inductive Rejoin where
  | join (target : Word) (parent : Option (BitVec 4)) (arrCur arrOwned : Mask)
  | pending (at_ : Place) (cur owned : Mask) (parent : Option (BitVec 4))
  deriving DecidableEq, Repr

/-- The loop state (R71). -/
structure Loops where
  depth : BitVec 2
  len   : Vector (BitVec 7) 3
  lc    : Vector Word 3
  start : Vector Word 3
  deriving DecidableEq, Repr

/-- The loop state a wave starts with. -/
def Loops.start0 : Loops := ⟨0, Vector.replicate 3 0, Vector.replicate 3 0, Vector.replicate 3 0⟩

/-- A split table, its rejoin stack and its loop state: a level (R64, R71, R364). -/
structure Level where
  splits : Vector (Option Split) 4
  stack  : Vector (Option Rejoin) 16
  loops  : Loops
  deriving DecidableEq, Repr

/-- The result of the last traversal in a lane (R273). -/
structure RayResult where
  visits : Word
  leaf   : Word
  back   : Bool
  deriving DecidableEq, Repr

/-- A node record a lane holds (R331, R333): the region and index of its node, its slot counted from the first. -/
structure RecordHeld where
  rcb      : Nat
  node     : Nat
  slot     : Nat
  released : Bool
  deriving DecidableEq, Repr

/-- The matrix format set of an MCC thread (R288, R290), as MLDF loaded it. -/
structure MFormat where
  fa     : Nat
  fb     : Nat
  mode   : Nat
  glen   : Nat
  asc    : Word
  azp    : Word
  bsc    : Word
  bzp    : Word
  deriving DecidableEq, Repr

/-- A batch of Hamper operations (R314). -/
structure Batch where
  num  : Word
  ops  : List Nat
  deriving DecidableEq, Repr

/-- The control registers of a thread that no other field holds (R95, R201, R224, R254, R317, R348, R361, R283). -/
structure Ctl where
  round   : BitVec 3
  estdrop : Word
  cslot   : BitVec 6
  sstat   : Mask
  hbatch  : Word
  herr    : Bool
  hcause  : BitVec 3
  hbad    : BitVec 28
  shash   : BitVec 64
  ecause  : BitVec 16
  eclass  : BitVec 8
  epc     : Word
  replay  : Bool
  oslot   : BitVec 2
  rslot   : BitVec 2
  eaddr   : BitVec 64
  elanes  : Mask
  shadow  : Bool
  mtouch  : Word
  mpois   : Bool
  mvpois  : Bool
  deriving DecidableEq, Repr

/-- The reset values of the control registers. -/
def Ctl.start : Ctl :=
  { round := 0, estdrop := 0, cslot := 0, sstat := 0, hbatch := 0, herr := false, hcause := 0, hbad := 0, shash := 0,
    ecause := 0, eclass := 0, epc := 0, replay := false, oslot := 0, rslot := 0, eaddr := 0, elanes := 0,
    shadow := false, mtouch := 0, mpois := false, mvpois := false }

/-- The facts of a kernel descriptor (R44). -/
structure Kern where
  kdesc    : Nat
  image    : Nat
  hasMcc   : Bool
  handler  : Option Word
  entry    : Word
  mccEntry : Word
  vregs    : Nat
  waves    : Nat
  clmBytes : Nat
  depth    : Nat
  payregs  : Nat
  spill    : Nat
  input    : Option Nat
  template : Option Nat
  codeBase : BitVec 64
  deriving DecidableEq, Repr

/-- One region of the RCB chain with its budgets (R325, R326). -/
structure Budget where
  rcb   : Nat
  cores : Nat
  clm   : Option Nat
  regs  : Option Nat
  deriving DecidableEq, Repr

/-- The facts of a region, resolved along its RCB chain (R325, R326). -/
structure Env where
  rcb      : Nat
  ptroot   : Nat
  prio     : Nat
  fdomain  : Nat
  policy   : BitVec 5
  dmode    : Nat
  key      : BitVec 128
  l2ways   : Nat
  trbase   : Nat
  trcap    : Nat
  logbase  : Nat
  logcap   : Nat
  hashbase : Nat
  reptmo   : Nat
  chain    : List Budget
  deriving DecidableEq, Repr

/-- A thread: a wave, or an MCC thread (`mcc`), which has one lane and no vector state in use (R281). -/
structure Thread where
  key      : TKey
  mcc      : Bool
  disp     : Nat
  index    : Word
  core     : Nat
  part     : BitVec 2
  kern     : Kern
  env      : Env
  s        : Vector Word 64
  srel     : BitVec 64
  v        : Vector Lanes 64
  vtag     : Vector Tag 64
  vrel     : BitVec 64
  fl       : Vector Fl 96
  draw     : Vector (BitVec 64) 96
  ray      : Vector RayResult 96
  recs     : Vector (Option RecordHeld) 96
  ctl      : Ctl
  level    : Level
  base     : Option (Level × BitVec 2)
  arrived  : Vector (Option (BitVec 16)) 16
  progress : Nat
  birth    : Nat
  drops    : Nat
  openOps  : List Nat
  batches  : List Batch
  mfmt     : MFormat
  bkpt     : Option (Word × Word)
  deriving DecidableEq, Repr

/-! ## Workgroups, dispatches, regions -/

/-- A barrier (R180, R373). -/
structure Barrier where
  phase   : BitVec 16
  expect  : Nat
  arrived : BitVec 17
  counter : Word
  deriving DecidableEq, Repr

/-- Where a workgroup stands (R335, R368, R369). -/
inductive WgStatus where
  | resident | frozen | shadow | saving (area : Nat) | saved (area : Nat)
  deriving DecidableEq, Repr

/-- An ordered-append channel of a dispatch (R339, R340). -/
structure Channel where
  counter  : Word
  claimed  : List Nat
  declined : List Nat
  deriving DecidableEq, Repr

/-- A dispatch, or the stream of a node (`node`: its region and index), which counts as one (R329, R334). `next` is the
index of the next workgroup to start, `groups` are the slots of the waves of those that have fired and not started. -/
structure Dispatch where
  id      : Nat
  env     : Env
  kern    : Kern
  seq     : Word
  node    : Option (Nat × Nat)
  args    : BitVec 64
  count   : Nat
  next    : Nat
  done    : BitVec 64
  retired : List Nat
  chans   : Vector Channel 16
  groups  : List (List (List Nat))
  deriving DecidableEq, Repr

/-- A node queue (R45, R331, R334). `taken` is the count of records given to workgroups, `ages` are the times at which the
records after them were appended, oldest first; `solo` marks records that fill a wave alone (R278). -/
structure NodeQueue where
  image    : Nat
  kern     : Kern
  recBytes : Nat
  cap      : Nat
  timer    : Nat
  headCache : Bool
  ring     : BitVec 64
  appended : Nat
  freed    : Nat
  released : List Nat
  taken    : Nat
  ages     : List Nat
  solo     : List Nat
  stream   : Option Nat
  deriving DecidableEq, Repr

/-- The Ladle of a deterministic region (R341 to R344). -/
structure Ladle where
  holder   : Option TKey
  opened   : Bool
  count    : Nat
  want     : Nat
  leaving  : Bool
  last     : Option (Word × Word × Nat)
  since    : Nat
  fallback : Bool
  deriving DecidableEq, Repr

/-- What the part keeps of one recorded word (R345, R346). In record mode `chain` is the word's last log block, if it has
one, and `mark` the dispatch marked in it. In replay mode `chain` are the entries still to be admitted, `mark` the
dispatch marked, `admitted` the count of the run at its head; `held` says that the slice holds the chain, and `since` is the
time of the last admission or, if it is later, that at which an atomic began to wait. `fallback`: arrival order, or recording
stopped. -/
structure Gate where
  addr     : Nat
  slice    : Nat
  chain    : List Nat
  mark     : Option Nat
  admitted : Nat
  held     : Bool
  since    : Nat
  fallback : Bool
  deriving DecidableEq, Repr

/-- What the part holds of a region beyond its RCB (R329, R337, R345, R346). `runFrom` is the sequence number of the first
dispatch of the run under way. -/
structure Region where
  rcb       : Nat
  env       : Env
  nextSeq   : Nat
  runFrom   : Nat
  nodes     : List NodeQueue
  ticket    : Word
  ladle     : Ladle
  traceStop : Bool
  wgCursor  : Nat
  visitCursor : Nat
  wgFallback : Bool
  logStop   : Bool
  gates     : List Gate
  deriving DecidableEq, Repr

/-- An image as the loader left it (R51): the client and tag of its request, the region it was loaded for, its kernels, the
indices of its nodes in the region, its region templates and the RCBs made from them (template, launching region, address). -/
structure Image where
  handle  : Nat
  client  : Nat
  tag     : Word
  rcb     : Nat
  base    : Nat
  bytes   : Nat
  loading : Bool
  kerns   : List Kern
  nodes   : List Nat
  templates : List (List Byte)
  made    : List (Nat × Nat × Nat)
  deriving DecidableEq, Repr

/-! ## The memory system -/

/-- The type of a page (R156). -/
inductive PType where
  | normal | est | cmp | far
  deriving DecidableEq, Repr

/-- What a translation gives (R156): `size` is the size of the page that holds the address. -/
structure Page where
  pa    : Nat
  type  : PType
  ro    : Bool
  nx    : Bool
  ds    : Bool
  rec_  : Bool
  size  : Nat
  deriving DecidableEq, Repr

/-- An open fault record (R159). -/
structure FaultRec where
  id      : Nat
  va      : Nat
  types   : BitVec 8
  waiters : Nat
  cls     : Nat
  cause   : Nat
  cluster : Nat
  region  : Nat
  deriving DecidableEq, Repr

/-- How far a queued store has come (R151, R170): in the queue, or at its home with the clusters that have still to answer
a revoke. -/
inductive StoreStage where
  | queued
  | home (revokes : List Nat)
  deriving DecidableEq, Repr

/-- One sector of a store in a core's write queue (R151). `op` is the store's number in program order, `whole` says that
it is an ST64, whose two sectors go as one access (R137). `bytes` are the bytes written, with their offsets in the
sector; `va` is the sector's virtual address. `due` is the time at which a request to an expander times out (R391); `stuck`
says that it has completed as UNREACHABLE and waits for a replay-queue entry (R162, R165). -/
structure WqEntry where
  id     : Nat
  op     : Nat
  whole  : Bool
  core   : Nat
  key    : TKey
  sp     : BitVec 2
  sector : Nat
  bytes  : List (Nat × Byte)
  type   : PType
  ds     : Bool
  va     : Nat
  hint   : BitVec 2
  stage  : StoreStage
  due    : Nat
  stuck  : Bool
  deriving DecidableEq, Repr

/-- One lane's part of an access in flight. `wait` is the FAR fault record that it waits for (R165); `gated` says that it
waits at an order gate, and whether the gate's queue was full (R346). `due` is the time at which a request to an expander times
out (R391). -/
structure LaneAcc where
  lane : Nat
  va   : Nat
  pa   : Nat
  page : Page
  data : List Word
  wait : Option Nat
  gated : Option Bool
  due  : Nat
  deriving DecidableEq, Repr

/-- What a word in flight does when it reaches where it acts. -/
inductive Work where
  /-- A vector or scalar load of `size` bytes (R136, R138). -/
  | load (size : Nat) (signed : Bool) (scalar : Bool)
  /-- An atomic of R140, by its FN. -/
  | atomic (fn : Nat)
  /-- An estimator contribution ESTA, ESTW or ESTG (R199), by its FN. -/
  | estAdd (fn : Nat)
  /-- EMRG (R202). -/
  | estMerge
  /-- EGEN (R203). -/
  | estGen
  /-- ELD or ELDR (R204, R205). -/
  | estLoad (raw : Bool)
  /-- CMPT (R226). -/
  | cmpTerm
  /-- CFLUSH (R232). -/
  | cmpFlush
  /-- CCLR, with the slot it writes (R233). -/
  | cmpClear (slot : BitVec 6)
  /-- CLDA (R232). -/
  | cmpLoad
  /-- CREP (R231). -/
  | crep
  /-- A traversal (R266 to R274): TRACE, TRACEA or TCALL by its FN, TCALL's payload count, the scene descriptor's bytes. -/
  | ray (fn p : Nat) (desc : List Byte)
  /-- The status of an MLDF, on its way (R290). -/
  | format
  /-- Results already known, on their way to the registers (R77). -/
  | result
  deriving DecidableEq, Repr

/-- One entry of a core's replay queue (R162): a store, or a contribution (`work`). Each lane: lane number, virtual
address, bytes. `waits` is its fault record; `ladle` says that its record has been answered and that it waits for the Ladle,
behind which its page turned out to be (R210, R341). -/
structure RqEntry where
  id    : Nat
  op    : Nat
  core  : Nat
  key   : TKey
  split : BitVec 2
  inBase : Bool
  page  : Nat
  far   : Bool
  work  : Option Work
  whole : Bool
  hint  : BitVec 2
  ds    : Bool
  lanes : List (Nat × Nat × List Byte)
  waits : Nat
  ladle : Bool
  deriving DecidableEq, Repr

/-- A hit: its parameter and barycentrics, the leaf's node index and fields, the back-face bit (R266, R267). -/
structure Hit where
  t    : Rat
  b1   : Rat
  b2   : Rat
  leaf : Nat
  prim : Nat
  inst : Nat
  node : Word
  back : Bool
  deriving DecidableEq, Repr

/-- An entry of the stack of R266: a node's index, whether it is a leaf, its entry parameter. -/
structure StackEntry where
  k    : Nat
  leaf : Bool
  tin  : Rat
  deriving DecidableEq, Repr

/-- Where a lane's traversal stopped at a node that was not there (R271): the stack, latest first with that node on top,
the best hit and the visits so far. -/
structure TraceStop where
  stack  : List StackEntry
  best   : Option Hit
  visits : Nat
  deriving DecidableEq, Repr

/-- A word in flight: a long-latency result, or an access that has not been performed (R77, R175). `todo` are the lanes
not performed, `bad` those that met poison and `denied` those whose page was denied, with their addresses (and the
record's cause), `op` its word's number in program order, `ready` the register values known and not yet written: lane, register offset, value. `sp` is the split
that issued it; `splits` and `pends` say for which splits and pending entries it is outstanding, `inBase` that they are of
the base level. `stops` says where the traversals of lanes stopped. -/
structure Flight where
  id     : Nat
  op     : Nat
  key    : TKey
  sp     : BitVec 2
  splits : BitVec 4
  pends  : BitVec 16
  inBase : Bool
  cls    : Nat
  work   : Work
  scalar : Bool
  dst    : Nat
  count  : Nat
  at_    : Place
  hint   : BitVec 2
  todo   : List LaneAcc
  ready  : List (Nat × Nat × Word)
  later  : Bool
  bad    : List (Nat × Nat)
  denied : List (Nat × Nat × Nat)
  ds     : Bool
  stops  : List (Nat × TraceStop) := []
  deriving DecidableEq, Repr

/-- Retention priority of an L2 line (R155). -/
inductive Retention where
  | low | normal | retain
  deriving DecidableEq, Repr

/-- A valid L2 line (R154, R155): its line number, its dirty sectors, its retention, whether an evict-last access has touched
it, whether it is a FAR line, and the region whose access filled it. Its bytes are those of `State.mem` but for `State.stale`. -/
structure L2Line where
  line    : Nat
  dirty   : BitVec 8
  prio    : Retention
  touched : Bool
  far     : Bool
  rcb     : Nat
  deriving DecidableEq, Repr

/-- A line of a cluster's L1: its 64-byte line number, its bytes, a valid and an owned bit for each word (R170), and whether it
is the next to be replaced (R155). -/
structure L1Line where
  line  : Nat
  bytes : List Byte
  valid : BitVec 16
  owned : BitVec 16
  next  : Bool
  deriving DecidableEq, Repr

/-- A 64-byte line of a read-only cache with its bytes (R138, R260). -/
structure RoLine where
  line  : Nat
  bytes : List Byte
  deriving DecidableEq, Repr

/-- The caches of a core (R138, R249, R260). The sampler cache's lines and the decoder tables (slot, generation, bytes) stand
in order of use, latest first. -/
structure Core where
  id      : Nat
  scalar  : List RoLine
  sampler : List RoLine
  tables  : List (Nat × Nat × List Byte)
  deriving DecidableEq, Repr

/-- A CLM bank's control register (R146). -/
structure Bank where
  launched : Bool
  refused  : Bool
  mode     : BitVec 2
  deriving DecidableEq, Repr

/-- A range-lock entry (R186): its space (the CLM, by cluster address, or virtual memory), its lowest and highest byte, its
kind, its operation. -/
structure Lock where
  clm  : Bool
  lo   : Nat
  hi   : Nat
  dest : Bool
  op   : Nat
  deriving DecidableEq, Repr

/-- An entry of the matrix reservation table (R294 to R297). `win` is the start of its workgroup's CLM window; `landed`
says that its last write is done. -/
structure Resv where
  id      : Nat
  key     : TKey
  fn      : Nat
  tile    : Nat
  zero    : Bool
  offA    : Word
  offB    : Word
  ctl     : Word
  fmt     : MFormat
  cls     : Nat
  win     : Nat
  granted : Bool
  landed  : Bool
  deriving DecidableEq, Repr

/-- A running MVNB (R300): its descriptor, its window, the blocks of its ranges with their physical addresses. -/
structure Mvnb where
  id     : Nat
  key    : TKey
  desc   : List Byte
  win    : Nat
  pages  : List (Nat × Nat)
  landed : Bool
  deriving DecidableEq, Repr

/-- A Hamper operation (R309 to R314, R320). It is `started` once its word has passed step 7 of R309; before that its word
(`word` in program order, status register `dst`) waits. `image` is what has been read of its box; `shares` are the
receiving workgroups still to be written; `waits` are the fault records it waits for, each with the bytes that did not
answer; `denied` are the blocks denied to it; `lines` are the 64-byte lines that it has written in memory. -/
structure HamperOp where
  id      : Nat
  key     : TKey
  sp      : BitVec 2
  word    : Nat
  fn      : Nat
  command : List Byte
  desc    : List Byte
  hint    : BitVec 2
  dst     : Nat
  root    : Nat
  rcb     : Nat
  win     : Nat
  locked  : Bool
  started : Bool
  image   : Option (List Byte)
  shares  : List Nat
  landed  : Bool
  waits   : List (Nat × Nat × Nat)
  denied  : List Nat
  lines   : List Nat
  deriving DecidableEq, Repr

/-- A started workgroup. `frozenAt` is the clock of the shadow swap that froze it, `bank` says that it runs from its core's
shadow bank. While it is saved, `saved` are its threads, `ents` the reservation entries to be posted again, `queue` its
replay-queue entries, `far` the words with lanes that wait for an expander or a gate (R369). -/
structure Workgroup where
  id       : Nat
  disp     : Nat
  index    : Word
  core     : Nat
  window   : Option Nat
  kern     : Kern
  env      : Env
  status   : WgStatus
  frozenAt : Nat
  bars     : Vector Barrier 16
  left     : BitVec 17
  hash     : List (Nat × BitVec 64)
  bank     : Bool
  saved    : List Thread
  ents     : List Resv
  queue    : List RqEntry
  far      : List Flight
  deriving DecidableEq, Repr

/-- A cluster: CLM, L1, FIFOs, range locks, matrix engine, MVNB units and Hamper. -/
structure Cluster where
  id     : Nat
  clm    : List Host.Cell
  poison : List Nat
  l1     : List L1Line
  banks  : Vector Bank 32
  fifos  : List (Nat × List (Word × Bool))
  locks  : List (Nat × Lock)
  resv   : List Resv
  tiles  : List (Nat × List Word)
  mvnb   : List Mvnb
  hamper : List HamperOp
  deriving DecidableEq, Repr

/-! ## Part-wide units -/

/-- A compositing slot (R222, R223). `root` is the page-table root under which its log is reached: that of the region that
bound it. -/
structure CmpSlot where
  tau     : Word
  hold    : Nat
  logBase : Nat
  segLog  : Nat
  lflags  : BitVec 8
  root    : Nat
  cursors : List (Nat × Nat)
  deriving DecidableEq, Repr

/-- An entry of a Crucible buffer (R227), with the clock of its arrival. -/
structure CrucEntry where
  depth : Word
  alpha : Word
  c0    : Word
  c1    : Word
  c2    : Word
  clock : Nat
  deriving DecidableEq, Repr

/-- A decoder-table slot (R249). -/
structure DtSlot where
  bound : Bool
  addr  : Nat
  gen   : BitVec 24
  deriving DecidableEq, Repr

/-- A watch (R211 to R215). -/
structure Watch where
  handle  : Nat
  env     : Env
  base    : Nat
  count   : Nat
  tse     : Word
  tn      : Word
  node    : Nat
  outmap  : Nat
  period  : Nat
  started : Nat
  sweep   : Nat
  tile    : Nat
  running : Bool
  raised  : Nat
  skipped : Bool
  deriving DecidableEq, Repr

/-- A draw (R275 to R278): its descriptor's bytes, its shading node, the next step of the pipeline (0 the clearing of the
buffer, n the triangle n − 1), the pixels of each tile as its last triangle left them, the tiles recorded so far, whether its
last append found the queue full (which holds the pipeline); the fault records it waits for, each with the bytes that did
not answer. An ended draw stays for RWAIT. -/
structure Draw where
  id      : Nat
  env     : Env
  ticket  : Word
  desc    : List Byte
  node    : Nat
  next    : Nat
  counts  : List (Nat × Nat)
  tiles   : List Nat
  full    : Bool
  bad     : Bool
  denied  : Bool
  ended   : Bool
  cluster : Nat
  waits   : List (Nat × Nat × Nat)
  deriving DecidableEq, Repr

/-- A record in Trestle's event queue. -/
inductive EventRec where
  /-- A wave ended by a trap (R367), or stopped at BKPT (R355). -/
  | wave (bkpt : Bool) (rcb fdomain cls cause : Nat) (epc : Word) (addr : BitVec 64) (seq index : Word) (wave : Nat)
  /-- DIVERGE (R338). -/
  | diverge (rcb fdomain cause : Nat) (seq index : Word)
  /-- An excursion begins (R381). -/
  | excursion (band count : Nat)
  /-- A host-assisted function asks Trestle (R388): the request's number, the function, what it is for. -/
  | request (id fn a b : Nat)
  deriving DecidableEq, Repr

/-- A call in Trestle's call queue: the fields of R356. -/
structure CallRec where
  key   : TKey
  sp    : BitVec 2
  code  : BitVec 16
  rcb   : Nat
  seq   : Word
  index : Word
  args  : List Word
  deriving DecidableEq, Repr

/-- A response written to a client ring (R389, R390), with what the request moved to the host's buffer: bytes, or event
records. -/
structure Response where
  tag    : Word
  status : Word
  value  : BitVec 64
  index  : Word
  data   : List Byte
  events : List EventRec
  deriving DecidableEq, Repr

/-- A client ring (R389, R390): the request slots that the client has written, its doorbell word, the counts of requests read
and responses written, the responses (the k-th stands in response slot k mod 64 until another takes the slot), the ranges that
ALLOC mapped, the regions of its requests, and how much of the event queue EVENTS has gone through. -/
structure Client where
  id       : Nat
  slots    : List (Nat × List Byte)
  bell     : Nat
  read     : Nat
  written  : Nat
  answers  : List Response
  allocs   : List (Nat × Nat)
  regions  : List Nat
  seen     : Nat
  deriving DecidableEq, Repr

/-- The states of Flask, by their codes 0 to 8 (R380). -/
inductive FlaskState where
  | ambient | purge | descend | soak | train | run | excursion | ascend | service
  deriving DecidableEq, Repr

/-- A CXL port register (R391). -/
structure CxlPort where
  link : Bool
  down : Bool
  tmo  : Byte
  deriving DecidableEq, Repr

/-- A memory channel's refresh and scrub state (R384, R385): whether its filters are loaded, the bits set in each, the time
of each row's last refresh; the next sector of the pass under way, when the last pass began and whether in host-assisted
mode (R388), the escalation level, the correctable errors of its rows in this pass, and the rows to be retired. -/
structure MemChannel where
  id      : Nat
  loaded  : Bool
  bits32  : List Nat
  bits64  : List Nat
  fresh   : List (Nat × Nat)
  pos     : Option Nat
  begun   : Option Nat
  asked   : Bool
  level   : BitVec 2
  errors  : List (Nat × Nat)
  marked  : List Nat
  deriving DecidableEq, Repr

/-- A Decro Link transfer: outstanding, or completed with this success (R392). -/
structure DecroItem where
  link : Nat
  addr : Nat
  done : Option Bool
  deriving DecidableEq, Repr

/-- A host-assisted request that Trestle has not answered (R388). `fn` is the function's bit of pf.duty: 0 a fault record
(`a`), 1 a row to class (`a` channel, `b` row, `data` its class), 2 a scrub pass (`a` channel), 3 a trace entry (`a` region,
`data` its bytes), 4 a group (`a` region, `b` node), 5 a change of Flask's state (`a` its code). -/
structure DutyReq where
  id   : Nat
  fn   : Nat
  a    : Nat
  b    : Nat
  data : List Byte
  deriving DecidableEq, Repr

/-- The platform controllers of the I-die. `lowAt` are the times since which the hottest sensor has stayed 3 K below the lower
bounds of bands 1 to 4, `steadyAt` that since which it has stood in B0 with a rate of change under 0.1 K per minute, `zeroAt`
that at which BAND became 0; `purged` says that the enclosure is purged; `moving` is the page that Trestle is moving, and
where to (R386). -/
structure Platform where
  band     : BitVec 3
  temp     : BitVec 10
  rate     : BitVec 16
  lowAt    : Vector (Option Nat) 4
  steadyAt : Option Nat
  zeroAt   : Nat
  purged   : Bool
  excCount : BitVec 16
  excPeak  : BitVec 3
  flask    : FlaskState
  cause    : Byte
  wanted   : Option (FlaskState × Byte)
  thresh   : Byte
  period   : Byte
  winLock  : Bool
  win      : BitVec 6
  duty     : BitVec 6
  dutyReqs : List DutyReq
  cxl0     : CxlPort
  cxl1     : CxlPort
  channels : List MemChannel
  moving   : Option (Nat × Nat)
  retired  : List Nat
  clients  : List Client
  decro    : List DecroItem
  partId   : BitVec 18
  firmware : Option (List Byte)
  deriving DecidableEq, Repr

/-! ## The part -/

/-- What happened to the word being executed: it is done, its split waits at it, it trapped, or (RTE) its split has left
the level it stood in. -/
inductive WordOut where
  | done | stall | trap | left
  deriving DecidableEq, Repr

/-- The issue context of the word being executed (log entry 3): the issuing split, the place of the word and of its
group's first word, where the split goes on by falling through, the CONST payload behind the word, the lanes and stage
of a word that was parked, the thread as it was when the group issued, the vector and scalar registers that the group's
words write, the word's long-latency result, if it gives one, and the outcome. -/
structure Ctx where
  sp    : BitVec 2
  pc    : Word
  slot  : BitVec 2
  gslot : BitVec 2
  next  : Place
  ext   : Option (BitVec 24)
  part  : Option ParkedWord
  grp   : Option Thread
  vdst  : BitVec 64
  sdst  : BitVec 64
  owed  : Option Owed
  out   : WordOut
  deriving DecidableEq, Repr

/-- What reaches the part from outside, or Trestle does, that no row of the opcode table names. -/
inductive Outside where
  /-- The sensors read this temperature and rate of change, inside the band in force (R379). -/
  | sense (temp : BitVec 10) (rate : BitVec 16)
  /-- The enclosure is purged of moist gas (R380). -/
  | purge
  /-- A sector's check code is this, whatever its bytes are (R167). -/
  | upset (sector : Nat) (code : BitVec 16)
  /-- Another device writes bytes of an expander (R177). -/
  | foreign (addr : Nat) (data : List Byte)
  /-- A client writes a request slot of its ring (R390). -/
  | slot (client : BitVec 6) (index : BitVec 6) (entry : List Byte)
  /-- A client writes its doorbell word (R390). -/
  | bell (client : BitVec 6) (count : Word)
  /-- Trestle copies a region template of an image into a fresh RCB, as a child of a launching region (R46). -/
  | region (image template parent addr : Nat)
  /-- Trestle assigns the part its identifier (R392). -/
  | partId (id : BitVec 18)
  /-- Trestle sends a transfer over a link (R392). -/
  | send (link addr : Nat)
  /-- The oldest outstanding transfer of a link has arrived at the other part (R392). -/
  | sent (link : Nat)
  deriving DecidableEq, Repr

/-- What moves next (log entry 1): an event, the issue of a group by the partition or MCC of a split, of that split's where
R83 lets it be (R282), or something from outside. -/
inductive Choice where
  | event (i : Instr)
  | issue (t : TKey) (sp : BitVec 2)
  | outside (o : Outside)
  deriving DecidableEq, Repr

/-- The part. `mem` are the bytes at the homes, those of an expander as they stand in the expander; `stale` are bytes of
L2-resident FAR lines as they were before a write from outside the part (R177). `codes` are the check codes of sectors that
came with a code of their own, which need not be that of their bytes; every other sector's code is (R167). The list of L2
lines stands in order of use, latest first. -/
structure State where
  agenda   : List Choice
  stamp    : Nat
  nextId   : Nat
  ctx      : Ctx
  clock    : Nat
  time     : Nat
  thr      : Thread
  live     : Bool
  threads  : List Thread
  groups   : List Workgroup
  dispatches : List Dispatch
  regions  : List Region
  images   : List Image
  mem      : List Host.Cell
  poison   : List Nat
  codes    : List (Nat × BitVec 16)
  stale    : List Host.Cell
  owners   : List (Nat × Nat)
  l2       : List L2Line
  wq       : List WqEntry
  hold     : List WqEntry
  rq       : List RqEntry
  flights  : List Flight
  faults   : List FaultRec
  cores    : List Core
  clusters : List Cluster
  nodeCache : List (Nat × Bool × RoLine)
  slots    : Vector CmpSlot 64
  crucible : List (Nat × List CrucEntry)
  tables   : Vector DtSlot 256
  watches  : List Watch
  draws    : List Draw
  calls    : List CallRec
  events   : List EventRec
  plat     : Platform
  deriving DecidableEq, Repr

/-! ## Reset -/

/-- The kernel facts of no kernel. -/
def Kern.none : Kern :=
  { kdesc := 0, image := 0, hasMcc := false, handler := .none, entry := 0, mccEntry := 0, vregs := 64, waves := 1,
    clmBytes := 0, depth := 0, payregs := 0, spill := 0, input := .none, template := .none, codeBase := 0 }

/-- The defaults of the root (R325). -/
def Env.none : Env :=
  { rcb := 0, ptroot := 0, prio := 0, fdomain := 1, policy := 0, dmode := 1, key := 0, l2ways := 16, trbase := 0,
    trcap := 0, logbase := 0, logcap := 0, hashbase := 0, reptmo := 1000, chain := [] }

/-- The format set an MCC thread starts with (R290). -/
def MFormat.start : MFormat := ⟨1, 1, 0, 0, 0, 0, 0, 0⟩

/-- The split a thread starts with (R55). -/
def Split.start (pc : Word) (lanes : Mask) : Split :=
  { at_ := ⟨pc, 0⟩, next := ⟨pc, 0⟩, fell := false, cur := lanes, owned := lanes, frame := none, wait := .none,
    mark := false, parked := none, also := none, replay := none, due := none, pend := none, xfer := none, last := 0,
    since := 0, promoted := false }

/-- A level with one split (R330, R364). -/
def Level.start (sp : Split) : Level :=
  ⟨#v[some sp, none, none, none], Vector.replicate 16 none, Loops.start0⟩

/-- A thread before it is placed (R330): every register zero. -/
def Thread.start : Thread :=
  { key := ⟨0, 0⟩, mcc := false, disp := 0, index := 0, core := 0, part := 0, kern := Kern.none, env := Env.none,
    s := Vector.replicate 64 0, srel := 0, v := Vector.replicate 64 (Vector.replicate 96 0),
    vtag := Vector.replicate 64 .u, vrel := 0, fl := Vector.replicate 96 0, draw := Vector.replicate 96 0,
    ray := Vector.replicate 96 ⟨0, 0xFFFFFFFF, false⟩, recs := Vector.replicate 96 none, ctl := Ctl.start,
    level := Level.start (Split.start 0 (-1)), base := none, arrived := Vector.replicate 16 none, progress := 0,
    birth := 0, drops := 0, openOps := [], batches := [], mfmt := MFormat.start, bkpt := none }

/-- The issue context between words. -/
def Ctx.idle : Ctx :=
  { sp := 0, pc := 0, slot := 0, gslot := 0, next := ⟨0, 0⟩, ext := none, part := none, grp := none, vdst := 0, sdst := 0,
    owed := none, out := .done }

/-- A compositing slot at reset (R222): TAU 2^−8, HOLD 256, logging off. -/
def CmpSlot.reset : CmpSlot := ⟨0x3B800000, 256, 0, 0, 0, 0, []⟩

/-- The platform at reset (R379, R382, R385, R387, R388, R391). -/
def Platform.reset : Platform :=
  { band := 4, temp := 0, rate := 0, lowAt := Vector.replicate 4 none, steadyAt := none, zeroAt := 0, purged := false, excCount := 0, excPeak := 0, flask := .ambient, cause := 0, wanted := none,
    thresh := 8, period := 24, winLock := false, win := 0, duty := 0, dutyReqs := [],
    cxl0 := ⟨false, false, 15⟩, cxl1 := ⟨false, false, 15⟩, channels := [], moving := none, retired := [], clients := [], decro := [],
    partId := 0, firmware := none }

/-- The machine right after reset. No thread exists (`live` is false), nothing is in memory. -/
def State.reset : State :=
  { agenda := [], stamp := 0, nextId := 0, ctx := Ctx.idle, clock := 0, time := 0, thr := Thread.start, live := false,
    threads := [], groups := [], dispatches := [], regions := [], images := [], mem := [], poison := [], codes := [],
    stale := [], owners := [],
    l2 := [], wq := [], hold := [], rq := [], flights := [], faults := [], cores := [], clusters := [], nodeCache := [],
    slots := Vector.replicate 64 CmpSlot.reset, crucible := [], tables := Vector.replicate 256 ⟨false, 0, 0⟩,
    watches := [], draws := [], calls := [], events := [], plat := Platform.reset }

end Sys2Proof.Machine
end

