-- ==== Sys2Proof/Machine/Operands.lean ====
section
/-! DEFINITION. Operands: the registers a word reads and writes, its lanes, its immediates and its addresses
(R19, R22 to R25, R55, R81, R133). -/

namespace Sys2Proof.Machine

/-! ## Lanes and masks -/

/-- The lane numbers of a wave. -/
def laneNums : List Nat := List.range 96

/-- A vector register given lane by lane. -/
def lanesOf (f : Nat → Word) : Lanes := ⟨⟨(List.range 96).map f⟩, by simp⟩

/-- Lane `l` of a vector register; 0 for `l` ≥ 96. -/
def laneOf (v : Lanes) (l : Nat) : Word := v[l]?.getD 0

theorem laneOf_lanesOf (f : Nat → Word) (l : Nat) (h : l < 96) : laneOf (lanesOf f) l = f l := by
  simp [laneOf, lanesOf, h]

/-- A per-lane table of another type, lane by lane. -/
def tableOf {α : Type} (f : Nat → α) : Vector α 96 := ⟨⟨(List.range 96).map f⟩, by simp⟩

/-- Every lane. -/
def allLanes : Mask := -1

/-- The lanes of a mask in ascending order. -/
def lanesIn (m : Mask) : List Nat := laneNums.filter (fun l => m.getLsbD l)

/-- The mask of the lanes for which `p` holds. -/
def maskOf (p : Nat → Bool) : Mask :=
  (List.range 96).foldl (fun m l => if p l then m ||| ((1 : Mask) <<< l) else m) 0

/-- Word `i` of a mask, lanes 32i to 32i + 31 (R24). -/
def maskWord (m : Mask) (i : Nat) : Word := m.extractLsb' (32 * i) 32

/-- The mask of three words (R24). -/
def maskOf3 (w0 w1 w2 : Word) : Mask := w2 ++ w1 ++ w0

/-- A mask with word `i` replaced. -/
def setMaskWord (m : Mask) (i : Nat) (w : Word) : Mask :=
  match i with
  | 0 => maskOf3 w (maskWord m 1) (maskWord m 2)
  | 1 => maskOf3 (maskWord m 0) w (maskWord m 2)
  | _ => maskOf3 (maskWord m 0) (maskWord m 1) w

/-- Element `i` of a list, with a default. -/
def listSet {α : Type} (xs : List α) (i : Nat) (x : α) : List α := xs.set i x

/-! ## The issuing split -/

/-- A split of a level by its index. -/
def Level.split? (l : Level) (i : BitVec 2) : Option Split := (l.splits[i.toNat]?).join

/-- A level with a split entry replaced. -/
def Level.setSplit (l : Level) (i : BitVec 2) (sp : Option Split) : Level :=
  { l with splits := l.splits.set i.toNat sp (by omega) }

/-- A level with a split entry changed, if one is held. -/
def Level.mapSplit (l : Level) (i : BitVec 2) (f : Split → Split) : Level :=
  match l.split? i with
  | some e => l.setSplit i (some (f e))
  | none => l

/-- The thread whose registers the word reads: as it was when the group issued (R19). -/
def State.src (s : State) : Thread := s.ctx.grp.getD s.thr

/-- The split whose word is executed, as it was when the group issued. -/
def State.srcSplit (s : State) : Option Split := s.src.level.split? s.ctx.sp

/-- The split whose word is executed. -/
def State.split (s : State) : Option Split := s.thr.level.split? s.ctx.sp

/-- Replace the split whose word is executed. -/
def State.setSplit (s : State) (f : Split → Split) : State :=
  match s.split with
  | some sp => { s with thr := { s.thr with level := s.thr.level.setSplit s.ctx.sp (some (f sp)) } }
  | none => s

/-- The current mask of the issuing split (R55). -/
def State.cur (s : State) : Mask := (s.srcSplit.map Split.cur).getD 0

/-- The lanes the word acts on: the current mask (R55), or the unfinished lanes of a word that was parked or is replayed
(R160, R366). -/
def State.active (s : State) : Mask :=
  match s.ctx.part with
  | some p => p.lanes
  | none => s.cur

/-! ## Scalar registers -/

/-- A scalar register of a thread as the split `sp` reads it in the step with the given stamp: s63 is zero, m0 to m2 of a
wave are the split's current mask (R24, R55), a released register reads its value or zero (R81). -/
def Thread.rdS (t : Thread) (sp : BitVec 2) (stamp : Nat) (r : Nat) : Word :=
  if r = 63 then 0
  else if 60 ≤ r ∧ !t.mcc then maskWord (((t.level.split? sp).map Split.cur).getD 0) (r - 60)
  else if t.srel.getLsbD r && Config.scalarReleased stamp r then 0
  else t.s[r]?.getD 0

/-- The scalar register named by a field, as the word reads it. -/
def State.rdS (s : State) (r : Reg) : Word := s.src.rdS s.ctx.sp s.stamp r.toNat

/-- A scalar register by its number. -/
def State.rdSn (s : State) (r : Nat) : Word := s.src.rdS s.ctx.sp s.stamp r

/-- A write of a scalar register of a thread by the split `sp` (R24, R55). -/
def Thread.wrS (t : Thread) (sp : BitVec 2) (r : Nat) (x : Word) : Thread :=
  if h : r < 60 ∨ (t.mcc ∧ r < 63) then
    { t with s := t.s.set r x (by omega), srel := t.srel &&& ~~~((1 : BitVec 64) <<< r) }
  else if r < 63 then
    match t.level.split? sp with
    | some e =>
      let i := r - 60
      let cur := setMaskWord e.cur i (x &&& maskWord e.owned i)
      { t with level := t.level.setSplit sp (some { e with cur := cur }) }
    | none => t
  else t

/-- A write of the scalar register named by a field. -/
def State.wrS (s : State) (r : Reg) (x : Word) : State := { s with thr := s.thr.wrS s.ctx.sp r.toNat x }

/-- A write of a scalar register by its number. -/
def State.wrSn (s : State) (r : Nat) (x : Word) : State := { s with thr := s.thr.wrS s.ctx.sp r x }

/-- A write of a mask triple, sD to sD+2 (R24, R102). -/
def State.wrMask (s : State) (d : Reg) (m : Mask) : State :=
  ((s.wrSn d.toNat (maskWord m 0)).wrSn (d.toNat + 1) (maskWord m 1)).wrSn (d.toNat + 2) (maskWord m 2)

/-- The triple sMS to sMS+2 read as a set of lanes (R65). -/
def State.rdMask (s : State) (m : Reg) : Mask :=
  maskOf3 (s.rdSn m.toNat) (s.rdSn (m.toNat + 1)) (s.rdSn (m.toNat + 2))

/-- The last-read mark on a scalar register (R81): nothing is released when A equals D, nor when another word of the group
writes the register. -/
def State.releaseS (s : State) (l : Bool) (a d : Reg) : State :=
  if l && a != d && decide (a.toNat < 60) && !s.ctx.sdst.getLsbD a.toNat then
    { s with thr := { s.thr with srel := s.thr.srel ||| ((1 : BitVec 64) <<< a.toNat) } }
  else s

/-! ## Vector registers -/

/-- A vector register of a thread as it reads in the step with the given stamp (R81). -/
def Thread.rdV (t : Thread) (stamp r : Nat) : Lanes :=
  let v := t.v[r]?.getD (Vector.replicate 96 0)
  if t.vrel.getLsbD r then lanesOf (fun l => if Config.vecReleased stamp r l then 0 else laneOf v l) else v

/-- A vector register by its number, as the word reads it. -/
def State.rdVn (s : State) (r : Nat) : Lanes := s.src.rdV s.stamp r

/-- The vector register named by a field, as the word reads it. -/
def State.rdV (s : State) (r : Reg) : Lanes := s.rdVn r.toNat

/-- The tag of a vector register as CTLR reports it (R81, R361). -/
def Thread.tag (t : Thread) (stamp r : Nat) : Tag :=
  if t.vrel.getLsbD r && Config.tagReleased stamp r then .u else t.vtag[r]?.getD .u

/-- The tag of a source register. -/
def State.tagOf (s : State) (r : Reg) : Tag := s.src.tag s.stamp r.toNat

/-- Write the lanes of `m` of vector register `d` of a thread; any write made with any lane inactive gives tag G (R25),
and the other lanes keep what they read. -/
def Thread.wrV (t : Thread) (stamp d : Nat) (m : Mask) (f : Nat → Word) (tag : Tag) : Thread :=
  if h : d < 64 then
    let old := t.rdV stamp d
    { t with
      v := t.v.set d (lanesOf (fun l => if m.getLsbD l then f l else laneOf old l)) h
      vtag := t.vtag.set d (if m = allLanes then tag else .g) h
      vrel := t.vrel &&& ~~~((1 : BitVec 64) <<< d) }
  else t

/-- Write vector register `d` in the word's active lanes. A word with no active lane changes nothing (R98, R108). -/
def State.wrVn (s : State) (d : Nat) (f : Nat → Word) (tag : Tag) : State :=
  if s.active = 0 then s else { s with thr := s.thr.wrV s.stamp d s.active f tag }

/-- Write the vector register named by a field in the word's active lanes. -/
def State.wrV (s : State) (d : Reg) (f : Nat → Word) (tag : Tag) : State := s.wrVn d.toNat f tag

/-- The last-read mark on a vector register (R81), in a word that writes no vector register: nothing is released when
the group writes the register, nor when no lane is active (R98, R108). -/
def State.releaseV0 (s : State) (l : Bool) (a : Reg) : State :=
  if l && s.active != 0 && !s.ctx.vdst.getLsbD a.toNat then
    { s with thr := { s.thr with vrel := s.thr.vrel ||| ((1 : BitVec 64) <<< a.toNat) } }
  else s

/-- The last-read mark on a vector register (R81): nothing is released when A equals D. -/
def State.releaseV (s : State) (l : Bool) (a d : Reg) : State := if a = d then s else s.releaseV0 l a

/-- The tag of a V-pipe or X-pipe result (R25): U when every register source is U, else G. A result rounded under RS has no
register source but its operands, so it is U too where they are (log entry 117). -/
def State.tagU (s : State) (rs : List Reg) : Tag := if rs.all (fun r => s.tagOf r == .u) then .u else .g

/-- Raise flags in the word's active lanes (R96). -/
def State.raise (s : State) (f : Nat → Fl) : State :=
  let m := s.active
  { s with thr := { s.thr with
      fl := tableOf (fun l => let old := s.thr.fl[l]?.getD 0; if m.getLsbD l then flRaise old (f l) else old) } }

/-! ## Immediates (R22, R23) -/

/-- A signed IMM12, or the 32-bit value with a CONST. -/
def State.immS (s : State) (i : BitVec 12) : Word :=
  match s.ctx.ext with
  | some p => p.extractLsb' 0 20 ++ i
  | none => i.signExtend 32

/-- An unsigned IMM12, or the 32-bit value with a CONST. -/
def State.immU (s : State) (i : BitVec 12) : Word :=
  match s.ctx.ext with
  | some p => p.extractLsb' 0 20 ++ i
  | none => i.zeroExtend 32

/-- A signed packet offset of `n` bits, extended by a CONST, as an integer. -/
def State.offset (s : State) {n : Nat} (o : BitVec n) : Int :=
  match s.ctx.ext with
  | some p => (p ++ o).toInt
  | none => o.toInt

/-- An unsigned IMM19, extended to 43 bits by a CONST. -/
def State.imm19 (s : State) (o : BitVec 19) : Nat :=
  match s.ctx.ext with
  | some p => (p ++ o).toNat
  | none => o.toNat

/-- The packet at a signed offset from the word's packet (R17). -/
def State.target (s : State) (off : Int) : Word := BitVec.ofInt 32 (s.ctx.pc.toNat + off)

/-! ## Addresses (R133) -/

/-- The 64-bit base in s(2S):s(2S+1) (R24). -/
def State.base (s : State) (p : BitVec 5) : BitVec 64 := s.rdSn (2 * p.toNat + 1) ++ s.rdSn (2 * p.toNat)

/-- The effective address of lane `l` of a vector form. -/
def State.ea (s : State) (p : BitVec 5) (a : Reg) (l : Nat) : BitVec 64 :=
  s.base p + (laneOf (s.rdV a) l).signExtend 64

/-- The effective address of a scalar form. -/
def State.eaS (s : State) (p : BitVec 5) (a : Reg) : BitVec 64 := s.base p + (s.rdS a).signExtend 64

/-! ## Rounding context of a lane (R93, R95, R117) -/

/-- The rounding mode in force: ctl.round as read at issue. -/
def State.mode (s : State) : RMode := RMode.ofCode s.src.ctl.round.toNat

/-- The part of a 128-bit key. -/
def Thread.keyNat (t : Thread) : Nat := t.env.key.toNat

/-- The global identifier of a lane (R117). -/
def Thread.lane (t : Thread) (l : Nat) : Nat :=
  t.index.toNat * t.kern.waves * 96 + t.key.ix * 96 + l

end Sys2Proof.Machine
end

