-- ==== Sys2Proof/Machine/Mem.lean ====
section
/-! DEFINITION. Memory: bytes in canonical form, words in byte order, the physical map, page tables, the caches' lines
and the write queue (R3, R151 to R158, R166, R170, R387). -/

namespace Sys2Proof.Machine

/-! ## Bytes in canonical form

A memory lists (address, byte) pairs with addresses strictly rising and no zero byte; an unlisted byte reads 0 (log
entry 5). -/

/-- The byte at an address. -/
def cellRead : List Host.Cell → Nat → Byte
  | [], _ => 0
  | (x, y) :: t, a => if a = x then y else if a < x then 0 else cellRead t a

/-- The memory after a byte is written. -/
def cellWrite : List Host.Cell → Nat → Byte → List Host.Cell
  | [], a, b => if b = 0 then [] else [(a, b)]
  | (x, y) :: t, a, b =>
    if a < x then (if b = 0 then (x, y) :: t else (a, b) :: (x, y) :: t)
    else if a = x then (if b = 0 then t else (a, b) :: t)
    else (x, y) :: cellWrite t a b

/-- The canonical form above a bound: addresses strictly rising from `lo`, no zero byte. -/
def cellsFrom : Nat → List Host.Cell → Bool
  | _, [] => true
  | lo, (x, y) :: t => decide (lo ≤ x) && y != 0 && cellsFrom (x + 1) t

/-- The canonical form of a memory. -/
def Memory.wf (m : List Host.Cell) : Bool := cellsFrom 0 m

/-- `n` bytes from an address. -/
def cellsRead (m : List Host.Cell) (a n : Nat) : List Byte := (List.range n).map (fun i => cellRead m (a + i))

/-- Write bytes at an address and the ones that follow it. -/
def cellsWrite (m : List Host.Cell) (a : Nat) : List Byte → List Host.Cell
  | [] => m
  | b :: bs => cellsWrite (cellWrite m a b) (a + 1) bs

/-! ## Byte order (R3) -/

/-- The number whose bytes these are, least significant first. -/
def natOfBytes : List Byte → Nat
  | [] => 0
  | b :: bs => b.toNat + 256 * natOfBytes bs

/-- The `n` low bytes of a number, least significant first. -/
def bytesOfNat : Nat → Nat → List Byte
  | 0, _ => []
  | n + 1, v => BitVec.ofNat 8 v :: bytesOfNat n (v / 256)

/-- The little-endian word made of 4 bytes of a list from `i`. -/
def wordAt (bs : List Byte) (i : Nat) : Word := BitVec.ofNat 32 (natOfBytes ((bs.drop i).take 4))

/-- The unsigned field of `n` bytes at offset `i`. -/
def fieldAt (bs : List Byte) (i n : Nat) : Nat := natOfBytes ((bs.drop i).take n)

/-- The bytes of a list of words in memory order. -/
def bytesOfWords (ws : List Word) : List Byte := ws.flatMap (fun w => bytesOfNat 4 w.toNat)

/-! ## The physical map (R387) -/

/-- The address lies in the HBM4E range. -/
def inHbm (win pa : Nat) : Bool := decide (pa < 12 * (64 - win) * 2 ^ 30)

/-- The address lies behind a CXL root port. -/
def inCxl (pa : Nat) : Bool := decide (2 ^ 48 ≤ pa ∧ pa < 2 ^ 48 + 2 ^ 47)

/-- The root port of a CXL address: false for port 0, true for port 1. -/
def cxlPort (pa : Nat) : Bool := decide (2 ^ 48 + 2 ^ 46 ≤ pa)

/-- The address lies in a stack-local window (R298). -/
def inWindow (win pa : Nat) : Bool :=
  decide (2 ^ 50 ≤ pa ∧ pa < 2 ^ 50 + 12 * 2 ^ 36 ∧ (pa - 2 ^ 50) % 2 ^ 36 < win * 2 ^ 30)

/-- The map holds the address. -/
def inMap (win pa : Nat) : Bool := inHbm win pa || inCxl pa || inWindow win pa

/-- The memory behind an address agrees with a page type (R157, R387). -/
def typeAgrees (win : Nat) (t : PType) (pa : Nat) : Bool :=
  match t with
  | .normal => inHbm win pa || inWindow win pa
  | .est | .cmp => inHbm win pa
  | .far => inCxl pa

/-! ## The home of a line (R153) -/

/-- The channel of an address: by its line number, and inside a stack-local window by its place in the window. -/
def homeChannel (win pa : Nat) : Nat :=
  let n := pa / 256
  if inWindow win pa then
    let h := (pa - 2 ^ 50) / 2 ^ 36
    let w := (pa - 2 ^ 50 - h * 2 ^ 36) / 256
    32 * h + (Nat.xor (Nat.xor (Nat.xor (Nat.xor (Nat.xor w (w >>> 5)) (w >>> 10)) (w >>> 15)) (w >>> 20)) (w >>> 25)) % 32
  else (Nat.xor (Nat.xor (Nat.xor (Nat.xor n (n >>> 9)) (n >>> 18)) (n >>> 27)) (n >>> 36)) % 384

/-- The identifier of the home slice of an address: die × 80 + slice (R153, R222). -/
def homeSlice (win pa : Nat) : Nat :=
  let c := homeChannel win pa
  c / 96 * 80 + Nat.xor ((pa / 256) >>> 3) c % 80

/-- The home slice of an address of the part. -/
def State.sliceOf (s : State) (pa : Nat) : Nat := homeSlice s.plat.win.toNat pa

/-! ## Page tables (R156, R157) -/

/-- What a walk gives: a page, or the cause of the fault record (0 unmapped, 1 malformed). -/
inductive Walk where
  | page (p : Page)
  | fault (cause : Nat)
  deriving DecidableEq, Repr

/-- The page type of an entry's TYPE field. -/
def ptypeOf (c : Nat) : PType :=
  match c with
  | 1 => .est
  | 2 => .cmp
  | 3 => .far
  | _ => .normal

/-- Read one page-table entry, single-copy atomic. -/
def readEntry (m : List Host.Cell) (a : Nat) : Nat := natOfBytes (cellsRead m a 8)

/-- One level of the walk: the entry found at `level` with `shift` the low bit of its index, or the next table. An entry that
points to a table is malformed too when its ADDR names a hole of the map, or memory that its TYPE does not (R157, R387). -/
def walkEntry (win va e level shift : Nat) : Walk ⊕ Nat :=
  let addr := e / 2 ^ 12 % 2 ^ 40 * 2 ^ 12
  if e % 2 = 0 then .inl (.fault 0)
  else if e / 2 ^ 52 ≠ 0 ∨ e / 2 ^ 8 % 16 ≠ 0 then .inl (.fault 1)
  else if e / 2 % 2 = 1 then
    let t := ptypeOf (e / 4 % 4)
    if level < 3 then .inl (.fault 1)
    else if addr % 2 ^ shift ≠ 0 then .inl (.fault 1)
    else if !(typeAgrees win t addr && typeAgrees win t (addr + 2 ^ shift - 1)) then .inl (.fault 1)
    else .inl (.page ⟨addr + va % 2 ^ shift, t, e / 16 % 2 == 1, e / 32 % 2 == 1, e / 64 % 2 == 1, e / 128 % 2 == 1,
      2 ^ shift⟩)
  else if level = 5 then .inl (.fault 1)
  else if !typeAgrees win (ptypeOf (e / 4 % 4)) addr then .inl (.fault 1)
  else .inr addr

/-- The levels of the walk: number, low bit of the index, bits of the index. -/
def walkLevels : List (Nat × Nat × Nat) := [(1, 48, 9), (2, 39, 9), (3, 30, 9), (4, 21, 9), (5, 16, 5)]

/-- The walk from a table. -/
def walkFrom (m : List Host.Cell) (win va : Nat) : List (Nat × Nat × Nat) → Nat → Walk
  | [], _ => .fault 1
  | (level, shift, bits) :: rest, table =>
    match walkEntry win va (readEntry m (table + 8 * (va / 2 ^ shift % 2 ^ bits))) level shift with
    | .inl w => w
    | .inr next => walkFrom m win va rest next

/-- The translation of a virtual address under a root (R156). A root of 0 is no root: nothing is mapped. -/
def State.walk (s : State) (root va : Nat) : Walk :=
  if root = 0 then .fault 0 else walkFrom s.mem s.plat.win.toNat va walkLevels root

/-- Trestle is moving the page of a physical address (R386). -/
def State.moves (s : State) (pa : Nat) : Bool := s.plat.moving.any (fun m => m.1 / 65536 == pa / 65536)

/-- The translation of a wave's or MCC thread's access: a page that Trestle is moving is met as an unmapped one, on which the
word parks (R160, R386). -/
def State.waveWalk (s : State) (root va : Nat) : Walk :=
  match s.walk root va with
  | .page p => if s.moves p.pa then .fault 0 else .page p
  | .fault c => .fault c

/-- The indices of the entries of a table that are not zero. -/
def tableEntries (m : List Host.Cell) (bits table : Nat) : List Nat :=
  ((m.filter (fun c => decide (table ≤ c.1 ∧ c.1 < table + 8 * 2 ^ bits))).map (fun c => (c.1 - table) / 8)).dedup

/-- Some leaf below a table maps a byte of a physical range. -/
def mapsRange (m : List Host.Cell) (win pa n : Nat) : List (Nat × Nat × Nat) → Nat → Bool
  | [], _ => false
  | (level, shift, bits) :: rest, table =>
    (tableEntries m bits table).any (fun i =>
      match walkEntry win 0 (readEntry m (table + 8 * i)) level shift with
      | .inl (.page p) => decide (p.pa < pa + n ∧ pa < p.pa + p.size)
      | .inl (.fault _) => false
      | .inr next => mapsRange m win pa n rest next)

/-- A physical range is free: no region's tables map it, no RCB stands in it, no context area begins in it, none of its pages
is retired. -/
def State.isFree (s : State) (pa n : Nat) : Bool :=
  let inside (a len : Nat) : Bool := decide (a < pa + n ∧ pa < a + len)
  ((s.regions.map (fun r => r.env.ptroot)).dedup).all (fun root => !mapsRange s.mem s.plat.win.toNat pa n walkLevels root) &&
    !s.regions.any (fun r => r.env.chain.any (fun b => inside b.rcb 256)) &&
    !s.images.any (fun i => i.made.any (fun (_, _, a) => inside a 256)) &&
    !s.groups.any (fun g => match g.status with
      | .saved a | .saving a => inside a 512
      | .resident | .frozen | .shadow => false) &&
    !s.plat.retired.any (fun a => inside a 65536)

/-- Bits [63:57] of a valid virtual address are zero (R133). -/
def validVa (va : Nat) : Bool := decide (va < 2 ^ 57)

/-! ## What a page permits (R158) -/

/-- The kinds of access of R158. -/
inductive Acc where
  | load | store | atom | estAdd | estRead | cmpAdd | cmpRead | fetch
  deriving DecidableEq, Repr

/-- The page's type and attributes permit the access (R158). -/
def Page.permits (p : Page) (k : Acc) : Bool :=
  match k with
  | .load => true
  | .store => !p.ro
  | .atom => (p.type == .normal || p.type == .far) && !p.ro
  | .estAdd => p.type == .est && !p.ro
  | .estRead => p.type == .est
  | .cmpAdd => p.type == .cmp && !p.ro
  | .cmpRead => p.type == .cmp
  | .fetch => p.type == .normal && !p.nx

/-! ## The home of a line: bytes, poison, owners (R154, R166, R170, R171) -/

/-- The 32-byte sector of an address. -/
def sectorOf (pa : Nat) : Nat := pa / 32

/-- The byte at a home: that of a resident FAR line which was written from outside the part since it was filled is still the
old one (R177). -/
def State.homeByte (s : State) (a : Nat) : Byte := ((s.stale.find? (fun c => c.1 == a)).map Prod.snd).getD (cellRead s.mem a)

/-- Bytes at the home. -/
def State.homeRead (s : State) (pa n : Nat) : List Byte := (List.range n).map (fun i => s.homeByte (pa + i))

/-! ### Check codes (R167) -/

/-- One bit of the CRC-16 with polynomial 0x8BB7. -/
def crcBit (c : BitVec 16) (b : Bool) : BitVec 16 := if c.msb != b then (c <<< 1) ^^^ 0x8BB7 else c <<< 1

/-- The CRC-16 of bytes in ascending order, most significant bit of each first, from 0 (R167). -/
def crc16 (bs : List Byte) : BitVec 16 :=
  bs.foldl (fun c b => [7, 6, 5, 4, 3, 2, 1, 0].foldl (fun c i => crcBit c (b.getLsbD i)) c) 0

/-- The check code of a sector: the one it came with, or that of its bytes (R167). -/
def State.checkCode (s : State) (sector : Nat) : BitVec 16 :=
  ((s.codes.find? (fun c => c.1 == sector)).map Prod.snd).getD (crc16 (s.homeRead (32 * sector) 32))

/-- The sector's check code is not that of its bytes (R167). -/
def State.mismatch (s : State) (sector : Nat) : Bool :=
  s.codes.any (fun c => c.1 == sector) && s.checkCode sector != crc16 (s.homeRead (32 * sector) 32)

/-- Some sector of the bytes is poisoned, or is found to be when its code is checked (R166, R167). -/
def State.poisoned (s : State) (pa n : Nat) : Bool :=
  s.poison.any (fun x => decide (sectorOf pa ≤ x ∧ x ≤ sectorOf (pa + n - 1))) ||
    s.codes.any (fun c => decide (sectorOf pa ≤ c.1 ∧ c.1 ≤ sectorOf (pa + n - 1)) && s.mismatch c.1)

/-- The poisoned sectors once some sectors have been written in part or whole: whole ones are poisoned no more, and of those
written in part the code is checked before the merge (R166, R167). -/
def State.poisonAfter (s : State) (whole part_ : Nat → Bool) : List Nat :=
  ((s.codes.map Prod.fst).filter (fun x => part_ x && s.mismatch x && !s.poison.contains x) ++ s.poison).filter (fun x => !whole x)

/-- Write bytes of one sector at the home, given with their offsets: all 32 bytes clear the sector's poison, fewer leave
it (R166). The sector's code is made anew (R167), and its bytes are no longer stale. -/
def State.homeWriteSector (s : State) (sector : Nat) (bytes : List (Nat × Byte)) : State :=
  { s with
    mem := bytes.foldl (fun m (o, b) => cellWrite m (32 * sector + o) b) s.mem
    poison := s.poisonAfter (fun x => decide (32 ≤ bytes.length) && x == sector) (fun x => x == sector)
    codes := s.codes.filter (fun c => c.1 != sector)
    stale := s.stale.filter (fun c => !bytes.any (fun (o, _) => 32 * sector + o == c.1)) }

/-- Write consecutive bytes at the home, and clear the poison of each sector written whole (R166); the codes are made anew
(R167). -/
def State.homeWrite (s : State) (pa : Nat) (bs : List Byte) : State :=
  let touched (x : Nat) : Bool := decide (pa < 32 * x + 32 ∧ 32 * x < pa + bs.length)
  { s with
    mem := cellsWrite s.mem pa bs
    poison := s.poisonAfter (fun x => decide (pa ≤ 32 * x) && decide (32 * x + 32 ≤ pa + bs.length)) touched
    codes := s.codes.filter (fun c => !touched c.1)
    stale := s.stale.filter (fun c => !(decide (pa ≤ c.1 ∧ c.1 < pa + bs.length))) }

/-- The owner of the 4-byte word at a home, if a cluster owns it (R170). -/
def State.owner (s : State) (word : Nat) : Option Nat := (s.owners.find? (fun o => o.1 == word)).map Prod.snd

/-- Record the owner of a word, or none. -/
def State.setOwner (s : State) (word : Nat) (c : Option Nat) : State :=
  let rest := s.owners.filter (fun o => o.1 != word)
  { s with owners := match c with
      | some k => (word, k) :: rest
      | none => rest }

/-! ## Clusters and cores -/

/-- A cluster at reset: every bank in cache mode (R146), nothing held. -/
def Cluster.fresh (id : Nat) : Cluster :=
  { id := id, clm := [], poison := [], l1 := [], banks := Vector.replicate 32 ⟨false, false, 0⟩, fifos := [], locks := [],
    resv := [], tiles := [], mvnb := [], hamper := [] }

/-- A core's caches at reset: empty. -/
def Core.fresh (id : Nat) : Core := ⟨id, [], [], []⟩

/-- The cluster with a number. -/
def State.cluster (s : State) (c : Nat) : Cluster := (s.clusters.find? (fun x => x.id == c)).getD (Cluster.fresh c)

/-- Replace a cluster. -/
def State.setCluster (s : State) (c : Cluster) : State :=
  { s with clusters := c :: s.clusters.filter (fun x => x.id != c.id) }

/-- Change a cluster. -/
def State.modCluster (s : State) (c : Nat) (f : Cluster → Cluster) : State := s.setCluster (f (s.cluster c))

/-- The caches of the core with a number. -/
def State.coreOf (s : State) (c : Nat) : Core := (s.cores.find? (fun x => x.id == c)).getD (Core.fresh c)

/-- Change a core's caches. -/
def State.modCore (s : State) (c : Nat) (f : Core → Core) : State :=
  let k := f (s.coreOf c)
  { s with cores := { k with id := c } :: s.cores.filter (fun x => x.id != c) }

/-- The cluster of a core: cores are numbered die × 160 + cluster × 4 + core (R335), so four to a cluster. -/
def clusterOf (core : Nat) : Nat := core / 4

/-! ## The L1 (R152, R170) -/

/-- The L1 has banks: some bank of the cluster is in cache mode (R152). -/
def Cluster.hasL1 (c : Cluster) : Bool := c.banks.toList.any (fun b => b.mode == 0)

/-- The words of a 64-byte line that `n` bytes at an address touch, as bits. -/
def lineWords (pa n : Nat) : BitVec 16 :=
  (List.range 16).foldl (fun m i =>
    if 64 * (pa / 64) + 4 * i < pa + n ∧ pa < 64 * (pa / 64) + 4 * i + 4 then m ||| ((1 : BitVec 16) <<< i) else m) 0

/-- The L1 line of an address. -/
def Cluster.line? (c : Cluster) (pa : Nat) : Option L1Line := c.l1.find? (fun l => l.line == pa / 64)

/-- The bytes of an access that the L1 holds valid, if it holds them all. -/
def Cluster.l1Read (c : Cluster) (pa n : Nat) : Option (List Byte) :=
  match c.line? pa with
  | some l =>
    let w := lineWords pa n
    if l.valid &&& w = w then some ((l.bytes.drop (pa % 64)).take n) else none
  | none => none

/-- Replace or add an L1 line. -/
def Cluster.putLine (c : Cluster) (l : L1Line) : Cluster :=
  { c with l1 := l :: c.l1.filter (fun x => x.line != l.line) }

/-- Remove an L1 line. -/
def Cluster.dropLine (c : Cluster) (line : Nat) : Cluster := { c with l1 := c.l1.filter (fun x => x.line != line) }

/-- The lines that the L1 holds at most: 1,024 for each bank in cache mode (R14, R152). -/
def Cluster.l1Lines (c : Cluster) : Nat := 1024 * c.banks.toList.countP (fun b => b.mode == 0)

/-- Room for a line that the L1 does not hold: when it is full a line leaves, one marked as the next to be replaced if there
is one (R155), else any (log entry 14). -/
def Cluster.l1Room (c : Cluster) (line stamp : Nat) : Cluster :=
  if c.l1.any (fun l => l.line == line) || decide (c.l1.length < c.l1Lines) then c
  else
    let gone := ((c.l1.find? L1Line.next).or c.l1[Config.l1Victim stamp % c.l1.length]?).map L1Line.line
    { c with l1 := c.l1.filter (fun l => some l.line != gone) }

/-- The words of a store enter the L1, if the line is present there: they are the home's, and they are owned (R170 step 4; log
entry 44). -/
def Cluster.mergeStore (c : Cluster) (line : Nat) (words : BitVec 16) (home : List Byte) : Cluster :=
  { c with l1 := c.l1.map (fun l =>
      if l.line = line then
        { l with
          bytes := (List.range 64).map (fun i =>
            if words.getLsbD (i / 4) then home[i]?.getD 0 else l.bytes[i]?.getD 0)
          valid := l.valid ||| words, owned := l.owned ||| words }
      else l) }

/-- The words that an entry writes. -/
def WqEntry.words (e : WqEntry) : List Nat :=
  (List.range 8).filterMap (fun i => if e.bytes.any (fun (o, _) => o / 4 == i) then some (8 * e.sector + i) else none)

/-- The words of a 64-byte line whose home has taken a store and has not acknowledged it. Others read that store's bytes, so that an
acquire counts no copy of the word as owned (R170, R193; log entry 44). -/
def State.unsettled (s : State) (line : Nat) : BitVec 16 :=
  (List.range 16).foldl (fun m i =>
    if s.wq.any (fun e => e.stage != .queued && e.words.contains (16 * line + i)) then m ||| ((1 : BitVec 16) <<< i) else m) 0

/-- An acquire clears the valid bit of every word of a line that is not owned (R175, R177). -/
def State.acquireLine (s : State) (l : L1Line) : L1Line := { l with valid := l.valid &&& l.owned &&& ~~~s.unsettled l.line }

/-- An acquire on the whole L1 of a cluster (R175). -/
def State.acquireAt (s : State) (cl : Nat) : State := s.modCluster cl (fun c => { c with l1 := c.l1.map s.acquireLine })

/-- A revoke: the word's owned bit is cleared, its copy stays valid (R170). -/
def Cluster.revoke (c : Cluster) (word : Nat) : Cluster :=
  { c with l1 := c.l1.map (fun l =>
      if l.line = word / 16 then { l with owned := l.owned &&& ~~~((1 : BitVec 16) <<< (word % 16)) } else l) }

/-- Every other write at a home revokes the owner and leaves the word with none (R171). -/
def State.disown (s : State) (word : Nat) : State :=
  match s.owner word with
  | some c => (s.modCluster c (fun k => k.revoke word)).setOwner word none
  | none => s

/-- The 4-byte words that some bytes touch. -/
def wordsOf (pa n : Nat) : List Nat := (List.range ((pa + n - 1) / 4 + 1 - pa / 4)).map (fun i => pa / 4 + i)

/-- A write at the home by anything but a wave's store (R171). -/
def State.engineWrite (s : State) (pa : Nat) (bs : List Byte) : State :=
  (wordsOf pa bs.length).foldl State.disown (s.homeWrite pa bs)

/-- Poison a sector at its home (R165, R166). -/
def State.poisonSector (s : State) (sector : Nat) : State :=
  (wordsOf (32 * sector) 32).foldl State.disown
    { s with poison := if s.poison.contains sector then s.poison else sector :: s.poison }

/-! ## L2 lines and hints (R154, R155) -/

/-- The set of a line's home slice that may hold it. A slice of 1.2 MiB has 307 whole sets of 16 ways (R14, R155); which set
holds which line is open (log entry 14). -/
def l2Set (win line : Nat) : Nat × Nat := (homeSlice win (256 * line), Config.l2Set line % 307)

/-- The rank of a retention priority. -/
def Retention.rank : Retention → Nat
  | .low => 0
  | .normal => 1
  | .retain => 2

/-- The line that replacement takes of some lines in order of use, latest first: one of the lowest priority, the least recently
used of them (R155). -/
def l2Victim : List L2Line → Option L2Line
  | [] => none
  | l :: ls =>
    match l2Victim ls with
    | some v => if l.prio.rank < v.prio.rank then some l else some v
    | none => some l

/-- An L2 line leaves: its dirty sectors are written back, every L1 copy is invalidated, and the home no longer records its
words' owners (R154, R170). The bytes of a FAR line are then those of the expander (R177). -/
def State.evictL2 (s : State) (line : Nat) : State :=
  { s with
    l2 := s.l2.filter (fun l => l.line != line)
    owners := s.owners.filter (fun o => o.1 / 64 != line)
    stale := s.stale.filter (fun c => c.1 / 256 != line)
    clusters := s.clusters.map (fun c => { c with l1 := c.l1.filter (fun l => l.line / 4 != line) }) }

/-- Room for a line that a region fills: past the region's budget of ways of the set a line of its own leaves, and of a full
set the line of lowest priority (R155). -/
def State.l2Room (s : State) (e : Env) (line : Nat) : State :=
  let win := s.plat.win.toNat
  let set := s.l2.filter (fun l => l2Set win l.line == l2Set win line)
  let own := set.filter (fun l => l.rcb == e.rcb)
  match (if e.l2ways ≤ own.length then l2Victim own else if 16 ≤ set.length then l2Victim set else none) with
  | some v => s.evictL2 v.line
  | none => s

/-- Bring a line into the L2 for a region's access, or touch it, with the access's hint (R155): 0 normal, 1 evict-first,
2 evict-last, 3 streaming. -/
def State.touchL2 (s : State) (e : Env) (pa : Nat) (hint : BitVec 2) (far : Bool) : State :=
  let n := pa / 256
  match s.l2.find? (fun l => l.line == n) with
  | some l =>
    let prio := match hint.toNat with
      | 1 => if l.touched then l.prio else .low
      | 2 => .retain
      | _ => l.prio
    { s with l2 := { l with prio := prio, touched := l.touched || hint == 2 } :: s.l2.filter (fun x => x.line != n) }
  | none =>
    let prio := match hint.toNat with
      | 0 => Retention.normal
      | 2 => .retain
      | _ => .low
    let s := s.l2Room e n
    { s with l2 := ⟨n, 0, prio, hint == 2, far, e.rcb⟩ :: s.l2 }

/-- Mark a sector of a resident line dirty; FAR lines are written through (R154, R164). -/
def State.dirtyL2 (s : State) (sector : Nat) : State :=
  { s with l2 := s.l2.map (fun l =>
      if l.line = sector / 8 ∧ !l.far then { l with dirty := l.dirty ||| ((1 : BitVec 8) <<< (sector % 8)) } else l) }

/-- A write at a home slice touches the line and dirties its sectors. -/
def State.l2Write (s : State) (e : Env) (pa n : Nat) (hint : BitVec 2) (far : Bool) : State :=
  let s := s.touchL2 e pa hint far
  (List.range ((pa + n - 1) / 32 + 1 - pa / 32)).foldl (fun s i => s.dirtyL2 (pa / 32 + i)) s

/-! ## Bytes at virtual addresses, for units that work on ranges -/

/-- The page that holds a virtual address. -/
def State.pageAt (s : State) (root va : Nat) : Option Page :=
  if !validVa va then none
  else
    match s.walk root va with
    | .page p => some p
    | .fault _ => none

/-- The 64 KiB blocks that a range touches. -/
def blocksOf (va n : Nat) : List Nat :=
  if n = 0 then [] else (List.range ((va + n - 1) / 65536 + 1 - va / 65536)).map (fun i => max va (65536 * (va / 65536 + i)))

/-- No page that holds a byte of a range is of another type than normal; what is not mapped is not judged. -/
def State.allNormal (s : State) (root va n : Nat) : Bool :=
  (blocksOf va n).all (fun va => match s.pageAt root va with
    | some p => p.type == .normal
    | none => true)

/-- The runs of a range that lie inside 32-byte sectors: offset in the range, length. -/
def sectorRuns (va n : Nat) : List (Nat × Nat) :=
  if n = 0 then []
  else (List.range ((va + n - 1) / 32 + 1 - va / 32)).map (fun i =>
    let lo := max va (32 * (va / 32 + i))
    (lo - va, min (va + n) (32 * (va / 32 + i) + 32) - lo))

/-- Write a range at its homes; what lies on no page that may be written is left out. -/
def State.writeVirt (s : State) (root va : Nat) (bytes : List Byte) : State :=
  (sectorRuns va bytes.length).foldl (fun s (o, n) =>
    match s.pageAt root (va + o) with
    | some p => if p.ro then s else s.engineWrite p.pa ((bytes.drop o).take n)
    | none => s) s

/-- The page's memory is not behind a root port whose link is down (R391). -/
def State.linked (s : State) (p : Page) : Bool :=
  p.type != .far || (if cxlPort p.pa then s.plat.cxl1 else s.plat.cxl0).link

/-- When a request that goes out now times out: one to far memory by the TMO of its root port, in milliseconds less one; no
other request does (R164, R391). -/
def State.dueAt (s : State) (t : PType) (pa : Nat) : Nat :=
  if t = .far then s.time + ((if cxlPort pa then s.plat.cxl1 else s.plat.cxl0).tmo.toNat + 1) * 10 ^ 6 else 0

/-- The memory behind an access answers: far memory does while its port's link is up, and a read also where the L2 holds
the line; a poisoned sector is met at its home slice (R164, R165, R391). -/
def State.reaches (s : State) (p : Page) (n : Nat) (read : Bool) : Bool :=
  s.linked p || s.poisoned p.pa n || (read && s.l2.any (fun l => l.line == p.pa / 256))

/-- What reading a range gives: its bytes, or the lowest address that stops it: an absent page, far memory that does not
answer, poison. -/
inductive VRead where
  | bytes (bs : List Byte)
  | absent (va cause : Nat)
  | far (va pa : Nat)
  | poison (va : Nat)
  deriving DecidableEq, Repr

/-- Read runs of a range from their homes. -/
def State.readRuns (s : State) (root va : Nat) : List (Nat × Nat) → List Byte → VRead
  | [], acc => .bytes acc
  | (o, n) :: rest, acc =>
    match (if validVa (va + o) then s.walk root (va + o) else .fault 0) with
    | .fault c => .absent (va + o) c
    | .page p =>
      if s.poisoned p.pa n then .poison (va + o)
      else if !s.reaches p n true then .far (va + o) p.pa
      else s.readRuns root va rest (acc ++ s.homeRead p.pa n)

/-- Read a range from its homes. -/
def State.readVirt (s : State) (root va n : Nat) : VRead := s.readRuns root va (sectorRuns va n) []

end Sys2Proof.Machine
end

