-- ==== Sys2Proof/Machine/Ops.lean ====
section
/-! DEFINITION. Operations over threads: focus, outstanding results, parking, fault records, taking a trap and
returning from one, fetching, and where a split goes on (R18, R63, R68, R73, R77, R159 to R161, R174, R175, R363 to
R367). -/

namespace Sys2Proof.Machine

/-- The outcome type of a step. -/
abbrev Out := Host.Outcome State Fault Refusal

/-! ## Focus -/

/-- The part with no thread in focus. -/
def State.unfocus (s : State) : State := if s.live then { s with live := false, threads := s.thr :: s.threads } else s

/-- The part with the thread of a key in focus, if it exists. -/
def State.focus (s : State) (k : TKey) : Option State :=
  if s.live && s.thr.key == k then some s
  else
    let s := s.unfocus
    match s.threads.find? (fun t => t.key == k) with
    | some t => some { s with thr := t, live := true, threads := s.threads.filter (fun t => t.key != k) }
    | none => none

/-- Every thread of the part. -/
def State.allThreads (s : State) : List Thread := if s.live then s.thr :: s.threads else s.threads

/-- The thread of a key. -/
def State.thread? (s : State) (k : TKey) : Option Thread := s.allThreads.find? (fun t => t.key == k)

/-- Change one thread in place. -/
def State.modThread (s : State) (k : TKey) (f : Thread → Thread) : State :=
  { s with
    thr := if s.live && s.thr.key == k then f s.thr else s.thr
    threads := s.threads.map (fun t => if t.key == k then f t else t) }

/-- The workgroup with a number. -/
def State.group? (s : State) (id : Nat) : Option Workgroup := s.groups.find? (fun g => g.id == id)

/-- Change a workgroup. -/
def State.modGroup (s : State) (id : Nat) (f : Workgroup → Workgroup) : State :=
  { s with groups := s.groups.map (fun g => if g.id == id then f g else g) }

/-- The facts of the region under which a thread's accesses go: those of its workgroup (R325). -/
def State.envOf (s : State) (k : TKey) : Env :=
  ((s.group? k.wg).map Workgroup.env).getD (((s.thread? k).map Thread.env).getD Env.none)

/-- The dispatch with a number. -/
def State.dispatch? (s : State) (id : Nat) : Option Dispatch := s.dispatches.find? (fun d => d.id == id)

/-- Change a dispatch. -/
def State.modDispatch (s : State) (id : Nat) (f : Dispatch → Dispatch) : State :=
  { s with dispatches := s.dispatches.map (fun d => if d.id == id then f d else d) }

/-- The dispatch sequence of a thread as records show it: 0xFFFF_FFFF for a node stream (R372). -/
def State.seqOf (s : State) (t : Thread) : Word :=
  match s.dispatch? t.disp with
  | some d => if d.node.isSome then 0xFFFFFFFF else d.seq
  | none => 0xFFFFFFFF

/-- What the part holds of a region. -/
def State.region? (s : State) (rcb : Nat) : Option Region := s.regions.find? (fun r => r.rcb == rcb)

/-- Change a region. -/
def State.modRegion (s : State) (rcb : Nat) (f : Region → Region) : State :=
  { s with regions := s.regions.map (fun r => if r.rcb == rcb then f r else r) }

/-- The cluster of the thread in focus. -/
def State.myCluster (s : State) : Nat := clusterOf s.thr.core

/-- The number under which the thread in focus reaches memory: its core, or for an MCC thread 640 + its cluster. -/
def State.port (s : State) : Nat := if s.thr.mcc then 640 + s.myCluster else s.thr.core

/-- The cluster of a core or an MCC. -/
def portCluster (p : Nat) : Nat := if p < 640 then clusterOf p else p - 640

/-- The region of the thread in focus is deterministic (R325). -/
def Env.deterministic (e : Env) : Bool := e.dmode == 2 || e.dmode == 3

/-- Policy bits of the region (R325). -/
def Env.propagate (e : Env) : Bool := e.policy.getLsbD 0
def Env.hazards (e : Env) : Bool := e.policy.getLsbD 1
def Env.clmGrant (e : Env) : Bool := e.policy.getLsbD 2
def Env.cmpGrant (e : Env) : Bool := e.policy.getLsbD 3
def Env.dtGrant (e : Env) : Bool := e.policy.getLsbD 4

/-! ## Words in flight (R77, R175) -/

/-- The flight has nothing left to do. -/
def Flight.done (f : Flight) : Bool := f.todo.isEmpty && f.ready.isEmpty && f.bad.isEmpty && f.denied.isEmpty

/-- The flight still has a register to write. -/
def Flight.writes (f : Flight) : Bool := f.count != 0 && !f.done

/-- The flight has a long-latency result outstanding for the split (R77). -/
def Flight.outstanding (f : Flight) (k : TKey) (sp : BitVec 2) (base : Bool) : Bool :=
  f.key == k && f.splits.getLsbD sp.toNat && f.inBase == base && f.writes

/-- The words that a split is parked at. -/
def Split.words (e : Split) : List ParkedWord := e.parked.toList ++ e.also.toList

/-- The splits of a thread, the base level's too. -/
def Thread.allSplits (t : Thread) : List Split :=
  (t.level.splits.toList ++ (match t.base with
    | some (b, _) => b.splits.toList
    | none => [])).filterMap id

/-- The splits of one level of a thread: the base level held aside, or the level that issues. -/
def Thread.splitsOf (t : Thread) (base : Bool) : List Split :=
  ((if base then t.base.map Prod.fst else some t.level).toList.flatMap (fun l => l.splits.toList)).filterMap id

/-- The word owes split `sp` a result of the classes (R77). -/
def ParkedWord.owes (p : ParkedWord) (sp : BitVec 2) (classes : BitVec 4) : Bool :=
  p.splits.getLsbD sp.toNat && p.owed.any (fun o => classes.getLsbD o.cls)

/-- Some result of the classes is outstanding for a split of the thread: of a word in flight, or of one that is parked (R76
to R78). -/
def State.waitsResults (s : State) (k : TKey) (sp : BitVec 2) (base : Bool) (classes : BitVec 4) : Bool :=
  s.flights.any (fun f => f.outstanding k sp base && classes.getLsbD f.cls) ||
    ((s.thread? k).map (fun t => (t.splitsOf base).any (fun e => e.words.any (fun p => p.owes sp classes)))).getD false

/-- Some long-latency result of the issuing split is outstanding. -/
def State.outstanding (s : State) (sp : BitVec 2) : Bool := s.waitsResults s.thr.key sp false 15

/-- The flight, entered with an identifier of its own; a flight with nothing to do is not entered. -/
def State.fly (s : State) (f : Flight) : State :=
  if f.done then s
  else { s with nextId := s.nextId + 1, flights := s.flights ++ [{ f with id := s.nextId }] }

/-- The number in program order of the word being executed: that of a word that parked, else the next. -/
def State.opId (s : State) : Nat := (s.ctx.part.map ParkedWord.id).getD s.nextId

/-- The splits for which the results of the word being executed are outstanding: the issuing split, and those that BRS made
from it while the word was parked (R65, R77). -/
def State.owedSplits (s : State) : BitVec 4 := (s.ctx.part.map ParkedWord.splits).getD ((1 : BitVec 4) <<< s.ctx.sp.toNat)

/-- The pending entries for which the results of the word being executed are outstanding (R65, R66). -/
def State.owedPends (s : State) : BitVec 16 := (s.ctx.part.map ParkedWord.pends).getD 0

/-- A flight of the word being executed. -/
def State.newFlight (s : State) (work : Work) (cls : Nat) (scalar : Bool) (dst count : Nat) (hint : BitVec 2)
    (todo : List LaneAcc) (ready : List (Nat × Nat × Word)) : Flight :=
  { id := 0, op := s.opId, key := s.thr.key, sp := s.ctx.sp, splits := s.owedSplits, pends := s.owedPends, inBase := false, cls := cls, work := work,
    scalar := scalar, dst := dst, count := count, at_ := ⟨s.ctx.pc, s.ctx.slot⟩, hint := hint, todo := todo,
    ready := ready, later := false, bad := [], denied := [], ds := false }

/-- A word whose results are known at once, on their way to scalar registers from `d` (R77). -/
def State.flyScalars (s : State) (cls : Nat) (d : Reg) (vals : List Word) : State :=
  s.fly (s.newFlight .result cls true d.toNat vals.length 0 []
    ((List.range vals.length).zip vals |>.map (fun (i, v) => (0, i, v))))

/-- A word whose results are known at once, on their way to vector registers from `d`: lane, register, value. -/
def State.flyVectors (s : State) (cls : Nat) (d : Reg) (count : Nat) (vals : List (Nat × Nat × Word)) : State :=
  s.fly (s.newFlight .result cls false d.toNat count 0 [] vals)

/-- Change one flight. -/
def State.modFlight (s : State) (id : Nat) (f : Flight → Flight) : State :=
  { s with flights := s.flights.map (fun x => if x.id == id then f x else x) }

/-- The flight with an identifier. -/
def State.flight? (s : State) (id : Nat) : Option Flight := s.flights.find? (fun f => f.id == id)

/-- Drop the flights that have nothing left. -/
def State.sweepFlights (s : State) : State :=
  { s with flights := s.flights.filter (fun f => !f.done) }

/-! ## Completion of earlier accesses (R175) -/

/-- The split without the word that a replaying trap names: RTE issues that word itself (R366). -/
def Split.without (e : Split) (t : Trap) : Split :=
  let ws := e.words.filter (fun p => !(t.replay && p.at_ == ⟨t.pc, t.slot⟩))
  { e with parked := ws.head?, also := ws.tail.head? }

/-- The word keeps the order of the thread's accesses now: a word that waits as REL does (stage 0), as ACQ does (stage 3) or
for far stores (stage 4). While a barrier word waits for a phase (stages 1 and 2) it does not (R174). -/
def ParkedWord.ordering (p : ParkedWord) : Bool := p.order && (p.stage == 0 || p.stage == 3 || p.stage == 4)

/-- The thread of a key, placed or saved. -/
def State.standing? (s : State) (k : TKey) : Option Thread :=
  (s.thread? k).or (s.groups.findSome? (fun g => g.saved.find? (fun t => t.key == k)))

/-- Some split of the thread of a key, placed or saved, satisfies `p`. -/
def State.anySplit (s : State) (k : TKey) (p : Split → Bool) : Bool :=
  ((s.standing? k).map (fun t => t.allSplits.any p)).getD false

/-- Every load and atomic of the thread among its words before number `n` has read its value (R175): none waits to be
performed, and no split of the thread is parked at a word that reads. -/
def State.loadsBefore (s : State) (k : TKey) (n : Nat) : Bool :=
  !s.anySplit k (fun e => e.words.any (fun p => p.reads && decide (p.id < n))) &&
  !s.flights.any (fun f => f.key == k && decide (f.op < n) && (match f.work with
    | .load .. | .atomic _ | .estLoad _ | .cmpLoad | .crep => !f.todo.isEmpty
    | .estAdd _ | .estMerge | .estGen | .cmpTerm | .cmpFlush | .cmpClear _ | .ray .. | .format | .result => false))

/-- Every store of the thread among its words before number `n` is complete: none queued, none held, none in the replay
queue, and no split is parked at one (R162, R170, R175). -/
def State.storesBefore (s : State) (k : TKey) (n : Nat) : Bool :=
  !s.wq.any (fun e => e.key == k && decide (e.op < n)) && !s.hold.any (fun e => e.key == k && decide (e.op < n)) &&
  !s.rq.any (fun e => e.key == k && decide (e.op < n)) &&
  !s.anySplit k (fun e => e.words.any (fun p => p.writes && decide (p.id < n)))

/-- Every estimator and compositing contribution of the thread among its words before number `n` has been applied, and
every discarded one acknowledged (R175, R201). -/
def State.contribsBefore (s : State) (k : TKey) (n : Nat) : Bool :=
  ((s.thread? k).map (fun t => t.drops == 0)).getD true &&
  !s.flights.any (fun f => f.key == k && decide (f.op < n) && (match f.work with
    | .estAdd _ | .estMerge | .estGen | .cmpTerm | .cmpFlush | .cmpClear _ => !f.todo.isEmpty
    | .load .. | .atomic _ | .estLoad _ | .cmpLoad | .crep | .ray .. | .format | .result => false))

/-- Every load, atomic and LCL load of the thread among its words before number `n` has returned its value: nothing of it
waits to be read or to be written to a register (R175). -/
def State.returnedBefore (s : State) (k : TKey) (n : Nat) : Bool :=
  !s.anySplit k (fun e => e.words.any (fun p => p.reads && decide (p.id < n))) &&
  !s.flights.any (fun f => f.key == k && decide (f.op < n) && (match f.work with
    | .load .. | .atomic _ | .estLoad _ | .cmpLoad | .crep | .result => !f.done
    | .estAdd _ | .estMerge | .estGen | .cmpTerm | .cmpFlush | .cmpClear _ | .ray .. | .format => false))

/-- Every store of the thread to a far page among its words before number `n` has been acknowledged: none queued, held or in
the replay queue, and no split is parked at a store (R162, R177). -/
def State.farStoresBefore (s : State) (k : TKey) (n : Nat) : Bool :=
  !(s.wq ++ s.hold).any (fun e => e.key == k && e.type == .far && decide (e.op < n)) &&
  !s.rq.any (fun e => e.key == k && decide (e.op < n)) &&
  !s.anySplit k (fun e => e.words.any (fun p => p.writes && decide (p.id < n)))

/-- REL's wait for the words before number `n` (R175). An LCL access reaches its bank when it issues. -/
def State.releasedBefore (s : State) (k : TKey) (n : Nat) : Bool :=
  s.loadsBefore k n && s.storesBefore k n && s.contribsBefore k n

/-- ACQ's wait, for the words before the one being executed. -/
def State.loadsDone (s : State) (k : TKey) : Bool := s.returnedBefore k s.opId

/-- REL's wait, for the words before the one being executed. -/
def State.released (s : State) (k : TKey) : Bool := s.releasedBefore k s.opId

/-- The acquire of R175 for the thread in focus: unowned L1 words of the cluster, and the core's scalar cache. -/
def State.acquire (s : State) : State :=
  (s.acquireAt s.myCluster).modCore s.thr.core (fun c => if s.thr.mcc then c else { c with scalar := [] })

/-! ## Parking (R160, R174) -/

/-- The word does not finish now: its split parks at it, behind an earlier word of its group that parked. -/
def State.parkAt (s : State) (p : ParkedWord) : State :=
  let s := s.setSplit (fun e => if e.parked.isSome then { e with also := some p } else { e with parked := some p })
  { s with nextId := max s.nextId (p.id + 1), ctx := { s.ctx with out := .stall } }

/-- A parked word of the word being executed, on its active lanes. -/
def State.parkedHere (s : State) : ParkedWord :=
  { at_ := ⟨s.ctx.pc, s.ctx.slot⟩, gslot := s.ctx.gslot, owed := s.ctx.owed, splits := s.owedSplits, pends := s.owedPends
    base := s.ctx.part.bind ParkedWord.base, spans := (s.ctx.part.map ParkedWord.spans).getD []
    cap := s.ctx.part.bind ParkedWord.cap, texels := (s.ctx.part.map ParkedWord.texels).getD [], lanes := s.active, stage := 0, phase := 0, waits := [], go := false, id := s.opId,
    order := false, ds := false, reads := false, writes := false }

/-- An ordering word waits (R174). -/
def State.parkOrder (s : State) (stage : Nat) : State := s.parkAt { s.parkedHere with stage := stage, order := true }

/-- The stage a parked word has reached; 0 for one that issues. -/
def State.stage (s : State) : Nat := (s.ctx.part.map ParkedWord.stage).getD 0

/-- The split waits at an S-pipe word. -/
def State.waitFor (s : State) (w : Wait) : State :=
  let s := s.setSplit (fun e => { e with wait := w })
  { s with ctx := { s.ctx with out := .stall } }

/-! ## Fault records (R159) -/

/-- The 64 KiB block of an address (R159). -/
def blockOf (va : Nat) : Nat := va / 65536 * 65536

/-- The part computes: Flask runs, in or out of an excursion, below band B4 (R13, R380, R382). -/
def Platform.computes (p : Platform) : Bool := (p.flask == .run || p.flask == .excursion) && p.band != 4

/-- A function is host-assisted (R388). -/
def State.assisted (s : State) (fn : Nat) : Bool := s.plat.duty.getLsbD fn

/-- A host-assisted function asks Trestle, and waits (R388). -/
def State.ask (s : State) (fn a b : Nat) (data : List Byte) : State :=
  { s with
    nextId := s.nextId + 1
    events := s.events ++ [.request s.nextId fn a b]
    plat := { s.plat with dutyReqs := s.plat.dutyReqs ++ [⟨s.nextId, fn, a, b, data⟩] } }

/-- Add a waiter to the open record of a block, or open one. Answers the record's identifier. -/
def State.addFault (s : State) (cluster region va : Nat) (type : Nat) (cls cause : Nat) : State × Nat :=
  match s.faults.find? (fun f => f.va == blockOf va && f.cluster == cluster && f.cls == cls) with
  | some f =>
    let f' := { f with types := f.types ||| ((1 : BitVec 8) <<< type), waiters := f.waiters + 1 }
    ({ s with faults := s.faults.map (fun x => if x.id == f.id then f' else x) }, f.id)
  | none =>
    let id := s.nextId
    let s : State := { s with
      nextId := s.nextId + 1
      faults := s.faults ++ [⟨s.nextId, blockOf va, (1 : BitVec 8) <<< type, 1, cls, cause, cluster, region⟩] }
    (if s.assisted 0 then s.ask 0 id 0 [] else s, id)

/-- The 32 bytes of an open record in Trestle's fault queue (R159). -/
def FaultRec.image (f : FaultRec) : List Byte :=
  bytesOfNat 8 f.va ++ bytesOfNat 2 f.types.toNat ++ bytesOfNat 2 f.waiters ++ bytesOfNat 1 f.cls ++ bytesOfNat 1 f.cause ++
    bytesOfNat 2 f.cluster ++ bytesOfNat 8 f.region ++ List.replicate 8 0

/-- Trestle's fault queue: the records that it has not answered, in the order in which they were written (R159). -/
def State.faultQueue (s : State) : List (List Byte) := s.faults.map FaultRec.image

/-- The blocks of some faulting addresses, each with its lowest address and that address's cause. -/
def faultBlocks (vas : List (Nat × Nat)) : List (Nat × Nat) :=
  vas.foldl (fun bs (va, cause) =>
    if bs.any (fun (b, _) => blockOf b == blockOf va) then
      bs.map (fun (b, c) => if blockOf b = blockOf va ∧ va < b then (va, cause) else (b, c))
    else bs ++ [(va, cause)]) []

/-- One record for each block among the faulting addresses of the thread in focus (R159): its identifier and the lowest
address. -/
def State.addFaults (s : State) (vas : List (Nat × Nat)) (type cls : Nat) : State × List (Nat × Nat) :=
  (faultBlocks vas).foldl (fun (s, ids) (va, cause) =>
    let (s, id) := s.addFault s.myCluster s.thr.env.rcb va type cls cause
    (s, ids ++ [(id, va)])) (s, [])

/-! ## Retiring a thread (R69, R180, R281, R367) -/

/-- A participant leaves the barriers of its workgroup (R180). -/
def Barrier.leave (b : Barrier) (ix : Nat) : Barrier :=
  { b with expect := b.expect - 1, arrived := b.arrived &&& ~~~((1 : BitVec 17) <<< ix) }

/-- The number of set bits among the participants. -/
def Barrier.count (b : Barrier) : Nat := (List.range 17).countP (fun i => b.arrived.getLsbD i)

/-- The phase is complete: as many arrivals as expected and no delivery outstanding (R183). -/
def Barrier.full (b : Barrier) : Bool := b.count == b.expect && b.counter == 0 && b.expect != 0

/-- Complete the phase if it is full (R183). -/
def Barrier.settle (b : Barrier) : Barrier :=
  if b.full then { b with phase := b.phase + 1, arrived := 0 } else b

/-- Change the barriers of a workgroup and complete the phases that are full. When one completes, the progress count of
every wave of the workgroup returns to zero (R83). -/
def State.modBarriers (s : State) (wg : Nat) (f : Nat → Barrier → Barrier) : State :=
  match s.group? wg with
  | none => s
  | some g =>
    let before := (List.range 16).map (fun i => f i (g.bars[i]?.getD ⟨0, 0, 0, 0⟩))
    let done := before.any Barrier.full
    let bars : Vector Barrier 16 :=
      ⟨⟨(List.range 16).map (fun i => (f i (g.bars[i]?.getD ⟨0, 0, 0, 0⟩)).settle)⟩, by simp⟩
    let s := s.modGroup wg (fun g => { g with bars := bars })
    if done then
      let reset (t : Thread) : Thread := if t.key.wg = wg then { t with progress := 0 } else t
      { s with thr := reset s.thr, threads := s.threads.map reset }
    else s

/-- A region control block field of 4 bytes (R325). -/
def State.rcbWord (s : State) (rcb off : Nat) : Nat := natOfBytes (s.homeRead (rcb + off) 4)

/-- Write a hardware field of a region control block (R325). -/
def State.setRcbWord (s : State) (rcb off v : Nat) : State := s.engineWrite (rcb + off) (bytesOfNat 4 v)

/-- DIVERGE: EVSEQ rises and Trestle gets a record (R338). -/
def State.diverge (s : State) (rcb cause : Nat) (seq index : Word) : State :=
  let s := s.setRcbWord rcb 108 (s.rcbWord rcb 108 + 1)
  { s with events := s.events ++ [.diverge rcb (((s.region? rcb).map (fun r => r.env.fdomain)).getD 1) cause seq index] }

/-- The Ladle is held to its trace: replay mode, and no divergence of it so far in the run (R344). -/
def Region.ladleReplays (r : Region) : Bool := r.env.dmode == 3 && !r.ladle.fallback

/-- The Ladle's holder leaves at a hand-on point (R342); the Ladle itself moves once the accesses of the visit have
completed. In replay mode a hand-on before the visit's count is met diverges (R344). -/
def State.handOn (s : State) (k : TKey) (rcb : Nat) : State :=
  match s.region? rcb with
  | none => s
  | some r =>
    if r.ladle.holder = some k ∧ !r.ladle.leaving then
      let early := r.ladleReplays && decide (r.ladle.count < r.ladle.want)
      let (seq, index, _) := r.ladle.last.getD (0, 0, 0)
      let s := if early then s.diverge rcb 2 seq index else s
      s.modRegion rcb (fun r => { r with ladle :=
        { r.ladle with leaving := true, fallback := r.ladle.fallback || early } })
    else s

/-- The records held by the lanes of a mask are released (R331, R333). -/
def State.releaseRecords (s : State) (recs : List RecordHeld) : State :=
  { s with regions := s.regions.map (fun r =>
    { r with nodes := (List.range r.nodes.length).zip r.nodes |>.map (fun (i, q) =>
        let mine := recs.filter (fun x => x.rcb == r.rcb && x.node == i && !x.released)
        let rel := mine.foldl (fun rs x => if rs.contains x.slot then rs else x.slot :: rs) q.released
        let rec go (fuel : Nat) (freed : Nat) (rs : List Nat) : Nat × List Nat :=
          match fuel with
          | 0 => (freed, rs)
          | n + 1 => if rs.contains freed then go n (freed + 1) (rs.filter (· != freed)) else (freed, rs)
        let (freed, rel) := go rel.length q.freed rel
        { q with freed := freed, released := rel }) }) }

/-- The range locks of operations are released. -/
def State.dropLocksOf (s : State) (ids : List Nat) : State :=
  { s with clusters := s.clusters.map (fun c => { c with locks := c.locks.filter (fun (_, l) => !ids.contains l.op) }) }

/-- Words of a thread that have registered ranges and go no further are given up: Hamper words that have not started, and
MAT words that wait for a reservation entry. -/
def State.giveUp (s : State) (t : Thread) : State :=
  let waits := s.clusters.flatMap (fun c => (c.hamper.filter (fun o => o.key == t.key && !o.started)).map HamperOp.id)
  let posts := if t.mcc then (t.allSplits.flatMap Split.words).filterMap (fun p =>
    if p.stage % 2 = 0 ∧ 2 ≤ p.stage then some (p.stage / 2 - 1) else none) else []
  let s : State := { s with clusters := s.clusters.map (fun c => { c with hamper := c.hamper.filter (fun o => !waits.contains o.id) }) }
  let live := s.clusters.flatMap (fun c => c.resv.map Resv.id ++ c.mvnb.map Mvnb.id ++ c.hamper.map HamperOp.id)
  s.dropLocksOf ((waits ++ posts).filter (fun i => !live.contains i))

/-- The thread in focus retires: it leaves its barriers, releases its records, hands on the Ladle and is gone. The hash of
a wave is kept for its workgroup (R347). -/
def State.retireThread (s : State) : State :=
  let t := s.thr
  let s := s.modBarriers t.key.wg (fun _ b => b.leave t.key.ix)
  let s := s.modGroup t.key.wg (fun g =>
    { g with
      left := g.left ||| ((1 : BitVec 17) <<< t.key.ix)
      hash := if t.mcc then g.hash else g.hash ++ [(t.key.ix, t.ctl.shash)] })
  let s := (s.releaseRecords (t.recs.toList.filterMap id)).giveUp t
  let s := s.handOn t.key t.env.rcb
  { s with
    live := false
    flights := s.flights.filterMap (fun f =>
      if f.key = t.key then
        match f.work with
        | .load .. | .estLoad _ | .cmpLoad | .ray .. | .format | .result => none
        | .atomic _ | .estAdd _ | .estMerge | .estGen | .cmpTerm | .crep =>
          if f.todo.isEmpty then none else some { f with count := 0, ready := [], bad := [] }
        | .cmpFlush | .cmpClear _ => if f.todo.isEmpty then none else some f
      else some f) }

/-! ## Taking a trap (R362 to R367) -/

/-- The event record of a thread that ends or stops (R355, R367). -/
def State.waveRecord (s : State) (bkpt : Bool) (cls cause : Nat) (pc : Word) (addr : BitVec 64) : EventRec :=
  .wave bkpt s.thr.env.rcb s.thr.env.fdomain cls cause pc addr (s.seqOf s.thr) s.thr.index s.thr.key.ix

/-- A trap without a handler, a double fault, or any trap of an MCC thread ends the thread (R367): its replay-queue
entries and pending traps are dropped, the ungranted reservation entries of an MCC thread are discarded. -/
def State.endThread (s : State) (cls cause : Nat) (pc : Word) (addr : BitVec 64) : State :=
  let k := s.thr.key
  let mcc := s.thr.mcc
  let cl := s.myCluster
  let s := { s with events := s.events ++ [s.waveRecord false cls cause pc addr], rq := s.rq.filter (fun e => e.key != k) }
  let s := if mcc then s.modCluster cl (fun c =>
    let gone := (c.resv.filter (fun r => r.key == k && !r.granted)).map Resv.id
    { c with
      resv := c.resv.filter (fun r => !gone.contains r.id)
      locks := c.locks.filter (fun (_, l) => !gone.contains l.op) }) else s
  let s := s.retireThread
  { s with ctx := { s.ctx with out := .trap } }

/-- The split held at the resume point of a trap that it takes (R364). A word that is replayed goes on where its split would
have gone on: behind the word's group when the split stood at it, else where the split stands. A split that stood behind
its group when the word trapped has gone through that group's loop end already (R73). -/
def Split.trapped (e : Split) (t : Trap) : Split :=
  let stood := !e.words.isEmpty || !t.replay
  { e.without t with
    at_ := ⟨t.pc, t.slot⟩, pend := none, replay := none
    next := if !t.replay then ⟨t.pc, t.slot⟩ else if stood then e.next else e.at_
    fell := if !t.replay then true else stood && e.fell }

/-- Enter trap mode for split `sp` of the thread in focus (R364): the level is held aside, with the split's entry at its
resume point, and a fresh level opens with one split at HANDLER on the split's current mask. -/
def State.enterTrap (s : State) (sp : BitVec 2) (h : Word) (t : Trap) : State :=
  match s.thr.level.split? sp with
  | none => s
  | some e =>
    let base := s.thr.level.setSplit sp (some (e.trapped t))
    let hs := Split.start h e.cur
    let c := s.thr.ctl
    let thr := { s.thr with
      base := some (base, sp)
      level := Level.start { hs with last := s.stamp, since := s.clock }
      ctl := { c with
        ecause := BitVec.ofNat 16 t.cause, eclass := BitVec.ofNat 8 t.cls, epc := t.pc, replay := t.replay,
        oslot := t.oslot, rslot := t.slot, eaddr := t.addr, elanes := t.lanes } }
    { s with
      thr := thr
      flights := s.flights.map (fun f => if f.key = s.thr.key then { f with inBase := true } else f)
      rq := s.rq.map (fun e => if e.key = s.thr.key then { e with inBase := true } else e)
      ctx := { s.ctx with sp := 0, out := .trap } }

/-- A split of the thread in focus takes a trap (R364, R365, R367). -/
def State.takeTrap (s : State) (sp : BitVec 2) (t : Trap) : State :=
  if s.thr.mcc then s.endThread t.cls t.cause t.pc t.addr
  else if s.thr.base.isSome then s.endThread 14 t.cls t.pc t.addr
  else
    match s.thr.kern.handler with
    | some h => s.enterTrap sp h t
    | none => s.endThread t.cls t.cause t.pc t.addr

/-- The word being executed raises a trap that resumes at the first word of its group, which is the word itself when RTE
issued it alone (R362, R366). -/
def State.trapGroup (s : State) (cls cause : Nat) (addr : BitVec 64) (lanes : Mask) : State :=
  s.takeTrap s.ctx.sp
    { cls := cls, cause := cause, pc := s.ctx.pc, slot := s.ctx.gslot, oslot := s.ctx.slot, replay := false,
      addr := addr, lanes := lanes }

/-- Class codes of R362. -/
def clsILL : Nat := 1
def clsHAZARD : Nat := 2
def clsLOCKHIT : Nat := 3
def clsPAGE : Nat := 4
def clsPROT : Nat := 5
def clsPOISON : Nat := 7
def clsALIGN : Nat := 8
def clsSMPFLT : Nat := 9
def clsPAYLOAD : Nat := 10
def clsREJOIN : Nat := 11
def clsTRAP : Nat := 12
def clsBKPT : Nat := 13

/-- A precise trap of the whole word, on its active lanes, with no address. -/
def State.trapWord (s : State) (cls cause : Nat) : State := s.trapGroup cls cause 0 s.active

/-- A level with a trap held pending for a split; a split holds at most one (R365). -/
def Level.pend (l : Level) (sp : BitVec 2) (stamp : Nat) (t : Trap) : Level :=
  match l.split? sp with
  | some e => l.setSplit sp (some { e.without t with pend := some (e.pend.getD (stamp, t)) })
  | none => l

/-- A shadow swap has frozen the thread: a wave whose workgroup is frozen. The MCC thread of the workgroup issues on (R368). -/
def State.swappedOut (s : State) (t : Thread) : Bool :=
  !t.mcc && (match s.group? t.key.wg with
    | some g => g.status == .frozen
    | none => false)

/-- A trap that arises while split `sp` is not issuing: pending while the split is frozen, in the base level (R365) or by a
shadow swap (R368), else taken. -/
def State.trapAsync (s : State) (sp : BitVec 2) (inBase : Bool) (t : Trap) : State :=
  match s.thr.base, inBase with
  | some (b, bs), true => { s with thr := { s.thr with base := some (b.pend sp s.stamp t, bs) } }
  | _, _ =>
    if s.swappedOut s.thr then { s with thr := { s.thr with level := s.thr.level.pend sp s.stamp t } }
    else s.takeTrap sp t

/-- Where a split would go on: behind a word it is parked at, else at its place. -/
def Split.onward (e : Split) : Place := if e.parked.isSome then e.next else e.at_

/-- The entry of a level that takes a trap meant for the split in entry `sp`: that entry, else the lowest held. -/
def Level.owner (l : Level) (sp : BitVec 2) : Option (BitVec 2) :=
  if (l.split? sp).isSome then some sp else [(0 : BitVec 2), 1, 2, 3].find? (fun i => (l.split? i).isSome)

/-- A trap that its split takes at its next group boundary (R163, R363, R397); pending for a frozen split (R365). -/
def State.trapDue (s : State) (sp : BitVec 2) (inBase : Bool) (t : Trap) : State :=
  match s.thr.base, inBase with
  | some (b, bs), true =>
    match b.owner sp with
    | some i =>
      match b.split? i with
      | some e =>
        let p := e.onward
        let e := { e with pend := some (e.pend.getD (s.stamp, { t with pc := p.pc, slot := p.slot })) }
        { s with thr := { s.thr with base := some (b.setSplit i (some e), bs) } }
      | none => s
    | none => s
  | _, _ =>
    match s.thr.level.owner sp with
    | some i =>
      match s.thr.level.split? i with
      | some e =>
        { s with thr := { s.thr with level := s.thr.level.setSplit i (some { e with due := some (e.due.getD t) }) } }
      | none => s
    | none => s

/-! ## Fetching (R17, R63) -/

/-- What fetching one word gives. -/
inductive Fetch where
  | word (w : Word)
  | unmapped (va cause : Nat)
  | prot (va cause : Nat)
  deriving DecidableEq, Repr

/-- The byte address of a place in a kernel's code (R17). -/
def codeAddr (t : Thread) (p : Place) : Nat := (t.kern.codeBase.toNat + 12 * p.pc.toNat + 4 * p.slot.toNat) % 2 ^ 64

/-- Fetch the word at a place for a thread (R63). -/
def State.fetch (s : State) (t : Thread) (p : Place) : Fetch :=
  let va := codeAddr t p
  if !validVa va then .prot va 1
  else
    match s.waveWalk t.env.ptroot va with
    | .fault c => .unmapped va c
    | .page pg =>
      if pg.type = .normal ∧ pg.nx then .prot va 4
      else if !pg.permits .fetch then .prot va 0
      else .word (BitVec.ofNat 32 (natOfBytes (s.homeRead pg.pa 4)))

/-- The rest of a packet from a slot, if every word of it can be fetched. -/
def State.restOfPacket (s : State) (t : Thread) (p : Place) : List (Option Word) :=
  (List.range (3 - p.slot.toNat)).map (fun i =>
    match s.fetch t ⟨p.pc, BitVec.ofNat 2 (p.slot.toNat + i)⟩ with
    | .word w => some w
    | .unmapped .. | .prot .. => none)

/-- Only all-zero words stand from the place to the end of its packet, or none at all (R18). -/
def State.atPacketEnd (s : State) (t : Thread) (p : Place) : Bool := (s.restOfPacket t p).all (fun w => w == some 0)

/-! ## Live splits and the loop end (R64, R73) -/

/-- A split is live when it holds a table entry and has issued neither JOIN nor EXIT (R64, R65). -/
def Split.live (e : Split) : Bool := e.wait != .join && e.wait != .exit

/-- The number of live splits of a level. -/
def Level.liveCount (l : Level) : Nat := l.splits.toList.countP (fun e => (e.map Split.live).getD false)

/-- The stack holds a pending entry. -/
def Level.hasPending (l : Level) : Bool :=
  l.stack.toList.any (fun e => match e with
    | some (.pending ..) => true
    | some (.join ..) => false
    | none => false)

/-- Loop words need one live split and no pending entry (R70, R72 to R74). -/
def Level.loopBlocked (l : Level) : Bool := decide (1 < l.liveCount) || l.hasPending

/-- Leave packet `pc` by falling through: the next packet, or the start of the innermost body (R73). -/
def fallFrom (l : Level) (pc : Word) : Place × Loops × Bool :=
  let i := l.loops.depth.toNat - 1
  let start := l.loops.start[i]?.getD 0
  let len := l.loops.len[i]?.getD 0
  if l.loops.depth ≠ 0 ∧ pc = start + len.zeroExtend 32 - 1 then
    if l.loopBlocked then (⟨pc + 1, 0⟩, l.loops, true)
    else
      let c := (l.loops.lc[i]?.getD 0) - 1
      let lp := { l.loops with lc := l.loops.lc.setIfInBounds i c }
      if c ≠ 0 then (⟨start, 0⟩, lp, false) else (⟨pc + 1, 0⟩, { lp with depth := lp.depth - 1 }, false)
  else (⟨pc + 1, 0⟩, l.loops, false)

/-- Move split `sp` of the thread in focus to a place that it reaches by falling through (`fell`) or by a transfer: a run
of NOP padding to the end of the packet is skipped, and the end of a loop body is applied (R18, R73). -/
def State.settle (s : State) (sp : BitVec 2) (p : Place) (fell : Bool) : State :=
  match s.thr.level.split? sp with
  | none => s
  | some e =>
    if fell && s.atPacketEnd s.thr p then
      let (p', lp, bad) := fallFrom s.thr.level p.pc
      let t : Trap :=
        { cls := clsREJOIN, cause := 3, pc := p'.pc, slot := 0, oslot := 0, replay := false, addr := 0, lanes := e.cur }
      let e := { e with at_ := p', xfer := none, due := (if bad && e.due.isNone then some t else e.due) }
      { s with thr := { s.thr with level := { (s.thr.level.setSplit sp (some e)) with loops := lp } } }
    else { s with thr := { s.thr with level := s.thr.level.setSplit sp (some { e with at_ := p }) } }

/-- The word being executed raises a trap that resumes after its group (R362). -/
def State.trapNext (s : State) (cls cause : Nat) (addr : BitVec 64) : State :=
  let lanes := s.cur
  let s := s.settle s.ctx.sp s.ctx.next true
  let p := (s.split.map Split.at_).getD s.ctx.next
  s.takeTrap s.ctx.sp
    { cls := cls, cause := cause, pc := p.pc, slot := p.slot, oslot := s.ctx.slot, replay := false, addr := addr,
      lanes := lanes }

/-- The split goes to word 0 of a packet; the place of the transfer is kept for a fetch that the page forbids (R18,
R63). -/
def State.transfer (s : State) (p : Word) : State :=
  s.setSplit (fun e => { e with next := ⟨p, 0⟩, fell := false, xfer := some ⟨s.ctx.pc, s.ctx.gslot⟩ })

/-! ## Trap return (R366) -/

/-- The pending trap of a level that arose first (R365). -/
def Level.firstPending (l : Level) : Option (BitVec 2 × Trap) :=
  let c := (List.range 4).filterMap (fun i =>
    match l.split? (BitVec.ofNat 2 i) with
    | some e => e.pend.map (fun (n, t) => (n, BitVec.ofNat 2 i, t))
    | none => none)
  match c with
  | [] => none
  | x :: xs => some ((xs.foldl (fun (m : Nat × BitVec 2 × Trap) y => if y.1 < m.1 then y else m) x).2)

/-- The place after the group that holds the word at a place: past the words with C = 1 and the one that follows. -/
def State.afterGroup (s : State) (t : Thread) (p : Place) : Place :=
  let c (i : Nat) : Bool :=
    match s.fetch t ⟨p.pc, BitVec.ofNat 2 i⟩ with
    | .word w => w.getLsbD 31
    | .unmapped .. | .prot .. => false
  let n := p.slot.toNat
  if n < 2 ∧ c n then (if n + 1 < 2 ∧ c (n + 1) then ⟨p.pc, 3⟩ else ⟨p.pc, BitVec.ofNat 2 (n + 2)⟩)
  else ⟨p.pc, BitVec.ofNat 2 (n + 1)⟩

/-- RTE, once its wait has ended (R366): the trap level is discarded and the base level restored; a pending trap is
entered, else the trapping split goes on at ctl.epc and RSLOT. With REPLAY 1 it issues the word there alone, then goes on
behind the word's group; for the word that trapped, where the trap left it. -/
def State.trapReturn (s : State) : State :=
  match s.thr.base with
  | none => s
  | some (b, bs) =>
    let c := s.thr.ctl
    let k := s.thr.key
    let fs := s.flights.map (fun (f : Flight) => if f.key = k then { f with inBase := false } else f)
    let rq := s.rq.map (fun (e : RqEntry) => if e.key = k then { e with inBase := false } else e)
    let s : State := { s with thr := { s.thr with level := b, base := none }, flights := fs, rq := rq }
    let place : Place := ⟨c.epc, c.rslot⟩
    let go (e : Split) : Split :=
      if c.replay then
        let here := e.at_ = place ∧ !(e.fell && e.next == e.at_)
        { e with
          at_ := place, replay := some (e.cur &&& c.elanes)
          next := if here then e.next else s.afterGroup s.thr place
          fell := if here then e.fell else true }
      else { e with at_ := place, next := place, fell := false, replay := none }
    let s := match b.split? bs with
      | some e => { s with thr := { s.thr with level := s.thr.level.setSplit bs (some (go e)) } }
      | none => s
    match s.thr.level.firstPending with
    | some (sp, t) => s.takeTrap sp t
    | none => s

end Sys2Proof.Machine
end

