-- ==== Sys2Proof/Machine/Determ.lean ====
section
/-! DEFINITION. Determinism: the trace, the Ladle, the atomic log and the order gates, the store hash (R337 to R347,
R395). -/

namespace Sys2Proof.Machine

/-! ## Pages that hold records (R395) -/

/-- The physical address behind a virtual one, if it lies on a normal, writable page and in no poisoned sector. -/
def State.recordPage (s : State) (e : Env) (va n : Nat) : Option Nat :=
  if !validVa va then none
  else
    match s.walk e.ptroot va with
    | .page p => if p.type = .normal ∧ !p.ro ∧ !s.poisoned p.pa n then some p.pa else none
    | .fault _ => none

/-! ## The trace (R337) -/

/-- An entry of the trace: its kind, wave, dispatch sequence, workgroup index, CNT, NREC and SLOT. -/
structure TraceEntry where
  kind : Nat
  wave : Nat
  dseq : Nat
  wg   : Nat
  cnt  : Nat
  nrec : Nat
  slot : Nat
  deriving DecidableEq, Repr

/-- The 16 bytes of an entry. -/
def TraceEntry.bytes (e : TraceEntry) : List Byte :=
  bytesOfNat 1 e.kind ++ bytesOfNat 1 e.wave ++ bytesOfNat 2 e.dseq ++ bytesOfNat 4 e.wg ++ bytesOfNat 2 e.cnt ++
    bytesOfNat 2 e.nrec ++ bytesOfNat 4 e.slot

/-- The entry in 16 bytes. -/
def TraceEntry.ofBytes (b : List Byte) : TraceEntry :=
  ⟨fieldAt b 0 1, fieldAt b 1 1, fieldAt b 2 2, fieldAt b 4 4, fieldAt b 8 2, fieldAt b 10 2, fieldAt b 12 4⟩

/-- Write an entry at TRLEN; a full or unwritable buffer stops recording and diverges (R337, R395). -/
def State.traceStore (s : State) (rcb : Nat) (e : TraceEntry) : State :=
  match s.region? rcb with
  | none => s
  | some r =>
    if r.traceStop then s
    else
      let n := s.rcbWord rcb 76
      let stop (s : State) : State :=
        (s.diverge rcb 1 (BitVec.ofNat 32 e.dseq) (BitVec.ofNat 32 e.wg)).modRegion rcb (fun r => { r with traceStop := true })
      if r.env.trcap ≤ n then stop s
      else
        match s.recordPage r.env (r.env.trbase + 16 * n) 16 with
        | some pa => ((s.engineWrite pa e.bytes).setRcbWord rcb 76 (n + 1)).setRcbWord rcb 112 (n + 1)
        | none => stop s

/-- Record an entry: at once, or handed to Trestle to write (R337, R388). -/
def State.traceWrite (s : State) (rcb : Nat) (e : TraceEntry) : State :=
  if s.assisted 3 then s.ask 3 rcb 0 e.bytes else s.traceStore rcb e

/-- What a search of the trace finds. -/
inductive Found where
  | entry (i : Nat) (e : TraceEntry)
  | over
  | unreadable
  deriving DecidableEq, Repr

/-- The next entry of a kind from an index, below TRREC (R337). -/
def State.traceFind (s : State) (r : Region) (kind : Nat) : Nat → Nat → Found
  | 0, _ => .over
  | n + 1, i =>
    match s.recordPage r.env (r.env.trbase + 16 * i) 16 with
    | none => .unreadable
    | some pa =>
      let e := TraceEntry.ofBytes (s.homeRead pa 16)
      if e.kind = kind then .entry i e else s.traceFind r kind n (i + 1)

/-- The next entry of a kind from a cursor. -/
def State.traceNext (s : State) (r : Region) (kind cursor : Nat) : Found :=
  s.traceFind r kind (s.rcbWord r.rcb 112 - cursor) cursor

/-- An entry has been consumed: TRLEN rises (R337). -/
def State.traceTake (s : State) (rcb : Nat) : State := s.setRcbWord rcb 76 (s.rcbWord rcb 76 + 1)

/-! ## The Ladle (R341 to R344) -/

/-- A wave's logical identifier (R341). -/
def State.logical (s : State) (t : Thread) : Word × Word × Nat := (s.seqOf t, t.index, t.key.ix)

/-- The order of logical identifiers. -/
def logicalBefore (a b : Word × Word × Nat) : Bool :=
  if a.1 ≠ b.1 then a.1.toNat < b.1.toNat
  else if a.2.1 ≠ b.2.1 then a.2.1.toNat < b.2.1.toNat
  else a.2.2 < b.2.2

/-- The split is parked at a DS access or LGET that has not been performed. -/
def Split.ladleParked (e : Split) : Bool := e.words.any (fun p => p.ds && p.stage == 0)

/-- The split is parked at LGET. -/
def Split.atLget (e : Split) : Bool := e.words.any (fun p => p.ds && p.phase == 1)

/-- A split of the thread, of either level, satisfies `p`. -/
def Thread.anySplit (t : Thread) (p : Split → Bool) : Bool := t.allSplits.any p

/-- A replay-queue entry of the wave waits for the Ladle. -/
def State.ladleQueued (s : State) (k : TKey) : Bool := s.rq.any (fun e => e.key == k && e.ladle)

/-- The waves that have retired and whose replay-queue entries wait for the Ladle, as far as a visit needs to know them. -/
def State.ladleGhosts (s : State) : List Thread :=
  s.groups.flatMap (fun g =>
    (((s.rq.filter (fun e => e.key.wg == g.id && e.ladle && g.left.getLsbD e.key.ix)).map RqEntry.key).dedup).map (fun k =>
      { Thread.start with key := k, disp := g.disp, index := g.index, env := g.env }))

/-- The waves of a region that wait for its Ladle: at a word, or with a store or contribution that has left its split. -/
def State.ladleWaiters (s : State) (rcb : Nat) : List Thread :=
  (s.allThreads ++ s.ladleGhosts).filter (fun t =>
    !t.mcc && t.env.rcb == rcb && (t.anySplit Split.ladleParked || s.ladleQueued t.key))

/-- DS accesses of the visit that have not completed (R341), those of a saved wave too. -/
def State.dsBusy (s : State) (k : TKey) : Bool :=
  (s.flights ++ s.groups.flatMap Workgroup.far).any (fun f => f.key == k && f.ds && !f.todo.isEmpty) ||
  s.wq.any (fun e => e.key == k && e.ds) || s.hold.any (fun e => e.key == k && e.ds) ||
  (s.rq ++ s.groups.flatMap Workgroup.queue).any (fun e => e.key == k && e.ds) ||
  s.anySplit k (fun e => e.words.any (fun p => p.ds && p.stage != 0))

/-- The visit may end (R342, R344). -/
def State.visitOver (s : State) (r : Region) (k : TKey) : Bool :=
  !s.dsBusy k &&
  (if r.ladleReplays then decide (r.ladle.want ≤ r.ladle.count) && (!r.ladle.opened || r.ladle.leaving)
   else r.ladle.leaving ||
    (!r.ladle.opened && !s.anySplit k Split.ladleParked && !s.ladleQueued k))

/-- A visit ends: its entry is recorded and the Ladle has no holder (R342, R344). -/
def State.endVisit (s : State) (r : Region) : State :=
  let (seq, index, wave) := r.ladle.last.getD (0, 0, 0)
  let s := if r.env.dmode = 2 then
    s.traceWrite r.rcb ⟨2, wave, seq.toNat % 65536, index.toNat, r.ladle.count % 65536, 0, 0⟩ else s
  s.modRegion r.rcb (fun r => { r with ladle := { r.ladle with holder := none, opened := false, leaving := false } })

/-- A visit begins at a wave (R342). -/
def State.beginVisit (s : State) (rcb : Nat) (t : Thread) (want : Nat) : State :=
  s.modRegion rcb (fun r => { r with ladle :=
    { r.ladle with
      holder := some t.key, opened := t.anySplit Split.atLget, count := 0, want := want, leaving := false
      last := some (s.logical t), since := s.clock } })

/-- Record-mode order: the next waiting wave in ascending logical identifier, wrapping (R344). -/
def State.ladleNext (s : State) (r : Region) : Option Thread :=
  let ws := s.ladleWaiters r.rcb
  let least (l : List Thread) : Option Thread :=
    l.foldl (fun b t => match b with
      | some u => if logicalBefore (s.logical t) (s.logical u) then some t else b
      | none => some t) none
  match r.ladle.last with
  | some x => (least (ws.filter (fun t => logicalBefore x (s.logical t)))).orElse (fun _ => least ws)
  | none => least ws

/-- The wave that an entry names has retired: its dispatch is gone or records its workgroup as retired, or the wave has
left its workgroup (R344). -/
def State.namedRetired (s : State) (r : Region) (e : TraceEntry) : Bool :=
  match s.dispatches.find? (fun d => d.env.rcb == r.rcb &&
      (if d.node.isSome then e.dseq == 65535 else d.seq.toNat % 65536 == e.dseq)) with
  | some d => d.retired.contains e.wg || s.groups.any (fun g => g.disp == d.id && g.index.toNat == e.wg && g.left.getLsbD e.wave)
  | none => e.dseq != 65535 && r.nextSeq != 0 && decide ((r.nextSeq % 65536 + 65535 - e.dseq) % 65536 < 32768)

/-- The Ladle's trace fails: DIVERGE cause 2, and record-mode rules from here on (R344). -/
def State.ladleDiverge (s : State) (rcb : Nat) (seq index : Word) : State :=
  (s.diverge rcb 2 seq index).modRegion rcb (fun r => { r with ladle := { r.ladle with fallback := true } })

/-- The Ladle, without a holder, reaches the next wave (R344); a trace that fails is found when a wave waits for a
visit. -/
def State.ladlePass (s : State) (rcb : Nat) : State :=
  match s.region? rcb with
  | none => s
  | some r =>
    let free (s : State) : State :=
      match s.region? rcb with
      | some r => (match s.ladleNext r with
        | some t => s.beginVisit rcb t 0
        | none => s)
      | none => s
    if r.ladleReplays then
      match s.traceNext r 2 r.visitCursor with
      | .over => if (s.ladleWaiters rcb).isEmpty then s else free (s.ladleDiverge rcb 0 0)
      | .unreadable => if (s.ladleWaiters rcb).isEmpty then s else free (s.ladleDiverge rcb 0 0)
      | .entry i e =>
        match (s.ladleWaiters rcb).find? (fun t =>
            (s.seqOf t).toNat % 65536 == e.dseq && t.index.toNat == e.wg && t.key.ix == e.wave) with
        | some t => ((s.traceTake rcb).modRegion rcb (fun r => { r with visitCursor := i + 1 })).beginVisit rcb t e.cnt
        | none =>
          if !(s.ladleWaiters rcb).isEmpty && s.namedRetired r e then free (s.ladleDiverge rcb (BitVec.ofNat 32 e.dseq) (BitVec.ofNat 32 e.wg)) else s
    else free s

/-- A word of the thread in focus is a DS access that needs the Ladle (R341). -/
def State.needsLadle (s : State) (ds : Bool) : Bool := ds && s.thr.env.deterministic && !s.thr.mcc

/-- The thread in focus holds the Ladle and has reached no hand-on point. -/
def State.holdsLadle (s : State) : Bool :=
  match s.region? s.thr.env.rcb with
  | some r => r.ladle.holder == some s.thr.key && !r.ladle.leaving
  | none => false

/-- A holder of a workgroup of a region performs a DS access: one word counts once (R341, R344). -/
def State.countDsFor (s : State) (rcb : Nat) (seq index : Word) : State :=
  match s.region? rcb with
  | none => s
  | some r =>
    let s := if r.ladleReplays && decide (r.ladle.want ≤ r.ladle.count) then s.ladleDiverge r.rcb seq index else s
    s.modRegion r.rcb (fun r => { r with ladle := { r.ladle with count := r.ladle.count + 1, since := s.clock } })

/-- The thread in focus performs a DS access as the holder. -/
def State.countDs (s : State) : State := s.countDsFor s.thr.env.rcb (s.seqOf s.thr) s.thr.index

/-- The thread in focus holds the Ladle for a visit that is over before the word being executed, a word for which the Ladle
did not come (R342, R344): such a visit has ended. -/
def State.visitPast (s : State) : Bool :=
  match s.region? s.thr.env.rcb with
  | some r =>
    r.ladle.holder == some s.thr.key && !s.ctx.part.any (fun p => p.ds && p.stage == 0) && s.visitOver r s.thr.key
  | none => false

/-- The thread in focus is in a visit. -/
def State.inVisit (s : State) : Bool := s.holdsLadle && !s.visitPast

/-- The word waits for the Ladle (R341), which leaves a visit that is over: `phase` 1 for LGET. -/
def State.parkLadle (s : State) (phase : BitVec 16) : State :=
  let s := match s.region? s.thr.env.rcb with
    | some r => if s.visitPast then s.endVisit r else s
    | none => s
  s.parkAt { s.parkedHere with phase := phase, ds := true }

/-! ## The atomic log and the order gates (R345, R346) -/

/-- The gate of a word, if the part keeps one. -/
def Region.gate? (r : Region) (addr : Nat) : Option Gate := r.gates.find? (fun g => g.addr == addr)

/-- Replace a gate. -/
def State.setGate (s : State) (rcb : Nat) (g : Gate) : State :=
  s.modRegion rcb (fun r => { r with gates := g :: r.gates.filter (fun x => x.addr != g.addr) })

/-- The log cannot take a word's atomic: recording stops for the word, or for all where the page fails (R345, R395). -/
def State.logStop (s : State) (rcb : Nat) (g : Gate) (all : Bool) (seq index : Word) : State :=
  let s := (s.diverge rcb 5 seq index).setGate rcb { g with fallback := true }
  if all then s.modRegion rcb (fun r => { r with logStop := true }) else s

/-- What is written of a block with some entries; the places of those to come are not (R345, R352). -/
def logBlock (addr next : Nat) (ents : List Nat) : List Byte :=
  bytesOfNat 8 addr ++ bytesOfNat 4 next ++ bytesOfNat 4 ents.length ++ ents.flatMap (bytesOfNat 4)

/-- Append entries to a word's chain, one at a time: into its last block, or into a new one at LOGLEN (R345). -/
def State.logAppend (s : State) (r : Region) (g : Gate) (seq index : Word) : List Nat → State × Gate
  | [] => (s, g)
  | e :: es =>
    let place (i : Nat) : Option Nat := s.recordPage r.env (r.env.logbase + 64 * i) 64
    let fresh : Unit → State × Gate := fun _ =>
      let n := s.rcbWord r.rcb 92
      if r.env.logcap ≤ n then (s.logStop r.rcb g false seq index, { g with fallback := true })
      else
        match place n with
        | none => (s.logStop r.rcb g true seq index, { g with fallback := true })
        | some pa =>
          let s := match g.chain.head?.bind place with
            | some old => s.engineWrite (old + 8) (bytesOfNat 4 n)
            | none => s
          let s := ((s.engineWrite pa (logBlock g.addr 0xFFFFFFFF [e])).setRcbWord r.rcb 92 (n + 1)).setRcbWord r.rcb 116 (n + 1)
          let g := { g with chain := [n] }
          (s.setGate r.rcb g, g)
    let (s, g) := match g.chain.head? with
      | none => fresh ()
      | some b =>
        match place b with
        | none => (s.logStop r.rcb g true seq index, { g with fallback := true })
        | some pa =>
          let n := fieldAt (s.homeRead pa 64) 12 4
          if n < 12 then ((s.engineWrite (pa + 16 + 4 * n) (bytesOfNat 4 e)).engineWrite (pa + 12) (bytesOfNat 4 (n + 1)), g)
          else fresh ()
    if g.fallback then (s, g) else s.logAppend r g seq index es

/-- Record mode: an atomic applied to a word is logged (R345). `va` is the word's virtual address. -/
def State.logAtomic (s : State) (rcb va slice : Nat) (seq index : Word) : State :=
  match s.region? rcb with
  | none => s
  | some r =>
    let g := (r.gate? va).getD ⟨va, slice, [], none, 0, true, 0, false⟩
    if r.logStop || g.fallback then s
    else
      let d := seq.toNat % 2 ^ 20
      let run := index.toNat % 2 ^ 20 * 2 ^ 12
      let grown : Option State :=
        if g.mark = some d then
          (g.chain.head?.bind (fun b => s.recordPage r.env (r.env.logbase + 64 * b) 64)).bind (fun pa =>
            let n := fieldAt (s.homeRead pa 64) 12 4
            let e := fieldAt (s.homeRead pa 64) (16 + 4 * (n - 1)) 4
            if 0 < n ∧ e / 2 ^ 12 * 2 ^ 12 = run ∧ 0 < e % 4096 ∧ e % 4096 < 4095 then
              some (s.engineWrite (pa + 16 + 4 * (n - 1)) (bytesOfNat 4 (e + 1)))
            else none)
        else none
      match grown with
      | some s => s
      | none =>
        let ents := (if g.mark = some d then [] else [d * 2 ^ 12]) ++ [run + 1]
        let (s, g) := s.logAppend r g seq index ents
        s.setGate rcb { g with mark := some d }

/-- The entry that stands for a log block that cannot be read. -/
def logBroken : Nat := 2 ^ 32

/-- The entries of a chain from a block, following NEXT below LOGREC (R346). -/
def State.chainFrom (s : State) (r : Region) (last : Nat) : Nat → Nat → List Nat
  | 0, _ => []
  | n + 1, b =>
    if last ≤ b then []
    else
      match s.recordPage r.env (r.env.logbase + 64 * b) 64 with
      | none => [logBroken]
      | some pa =>
        let bs := s.homeRead pa 64
        (List.range (min 12 (fieldAt bs 12 4))).map (fun i => fieldAt bs (16 + 4 * i) 4) ++
          s.chainFrom r last n (fieldAt bs 8 4)

/-- The first block of a word among the blocks below LOGREC (R346). -/
def State.firstBlock (s : State) (r : Region) (va : Nat) : Nat → Nat → Option Nat
  | 0, _ => none
  | n + 1, b =>
    match s.recordPage r.env (r.env.logbase + 64 * b) 64 with
    | none => s.firstBlock r va n (b + 1)
    | some pa => if fieldAt (s.homeRead pa 64) 0 8 = va then some b else s.firstBlock r va n (b + 1)

/-- What the gate of a word says to an atomic (R346). -/
inductive Turn where
  | free
  | now (g : Gate)
  | later (g : Gate)
  | broken (g : Gate)
  deriving DecidableEq, Repr

/-- Drop the dispatch marks at the head of a chain. -/
def Gate.settle (g : Gate) : List Nat → Gate
  | [] => { g with chain := [] }
  | e :: es =>
    if e ≠ logBroken ∧ e % 4096 = 0 then ({ g with mark := some (e / 4096) } : Gate).settle es else { g with chain := e :: es }

/-- The gate's chain is held in its slice. -/
def Gate.holds (g : Gate) (slice : Nat) : Bool := g.slice == slice && g.held && !g.fallback && !g.chain.isEmpty

/-- A slice holds as many chains as it can, 4,096 over all regions (R346). -/
def State.chainsFull (s : State) (slice : Nat) : Bool :=
  decide (4096 ≤ s.regions.foldl (fun n r => if r.env.dmode = 3 then n + r.gates.countP (fun g => g.holds slice) else n) 0)

/-- The gate of a word, its chain loaded if its slice can hold it: none when the word has no chain. -/
def State.loadGate (s : State) (r : Region) (va slice : Nat) : Option Gate :=
  match r.gate? va with
  | some g => some { g with held := g.held || !s.chainsFull slice }
  | none =>
    let last := s.rcbWord r.rcb 116
    (s.firstBlock r va last 0).map (fun b =>
      (⟨va, slice, [], none, 0, !s.chainsFull slice, s.time, false⟩ : Gate).settle (s.chainFrom r last last b))

/-- The turn of an atomic of a workgroup at a word's gate (R346). -/
def State.gateTurn (s : State) (r : Region) (va slice : Nat) (seq index : Word) : Turn :=
  match s.loadGate r va slice with
  | none => .free
  | some g =>
    if g.fallback then .free
    else
      match g.chain with
      | [] => .free
      | e :: es =>
        if !g.held then .later g
        else if e = logBroken then .broken g
        else if e / 4096 = index.toNat % 2 ^ 20 ∧ g.mark = some (seq.toNat % 2 ^ 20) then
          let n := g.admitted + 1
          if n = e % 4096 then .now ({ g with admitted := 0, since := s.time }.settle es)
          else .now { g with admitted := n, since := s.time }
        else .later g

/-- A gate of a slice has advanced: the lanes that found the queue full try again, and words whose chains the slice does not
hold yet have not waited in vain (R346). -/
def State.gateAdvanced (s : State) (slice : Nat) : State :=
  { s with
    flights := s.flights.map (fun f => { f with todo := f.todo.map (fun b =>
      if b.gated = some true ∧ s.sliceOf b.pa = slice then { b with gated := none } else b) })
    regions := s.regions.map (fun r => { r with gates := r.gates.map (fun g =>
      if g.slice = slice ∧ !g.held then { g with since := s.time } else g) }) }

/-- The gate of a word falls back to arrival order, with DIVERGE cause 3 (R346). -/
def State.gateFall (s : State) (rcb : Nat) (g : Gate) (seq index : Word) : State :=
  ((s.diverge rcb 3 seq index).setGate rcb { g with fallback := true, chain := [] }).gateAdvanced g.slice

/-! ## The store hash (R347) -/

/-- One step of the hash. -/
def hashStep (h x : BitVec 64) : BitVec 64 := (h.rotateLeft 7 ^^^ x) * 0x9E3779B97F4A7C15

/-- A store of a lane enters the hash: its 4-byte words, or a narrower store zero-extended. -/
def hashStore (h : BitVec 64) (va : Nat) (bytes : List Byte) : BitVec 64 :=
  (List.range ((bytes.length + 3) / 4)).foldl (fun h i =>
    hashStep h (BitVec.ofNat 32 (va + 4 * i) ++ wordAt bytes (4 * i))) h

/-- A store word of a deterministic region enters its wave's hash. -/
def State.hashStores (s : State) (lanes : List (Nat × List Byte)) : State :=
  if s.thr.env.deterministic && !s.thr.mcc then
    { s with thr := { s.thr with ctl :=
      { s.thr.ctl with shash := lanes.foldl (fun h (va, bs) => hashStore h va bs) s.thr.ctl.shash } } }
  else s

/-! ## Events -/

/-- LADLE_VISIT_TIMEOUT: in record mode a holder idle for 2^20 clocks has its visit ended (R342). -/
def execLadleVisitTimeout (rcb : Nat) (s : State) : Out :=
  match s.region? rcb with
  | none => .next s
  | some r =>
    if r.ladle.holder.isSome ∧ !r.ladleReplays ∧ !r.ladle.leaving ∧ r.ladle.since + 2 ^ 20 ≤ s.clock then
      .next (s.modRegion rcb (fun r => { r with ladle := { r.ladle with leaving := true } }))
    else .next s

/-- An atomic of a region waits at a word's gate. -/
def State.gateWaits (s : State) (rcb va : Nat) : Bool :=
  s.flights.any (fun f => f.todo.any (fun a => a.gated.isSome && a.va == va) &&
    ((s.group? f.key.wg).map (fun g => g.env.rcb == rcb)).getD false)

/-- The workgroup that a word's gate expects has retired in the run under way (R346): of the streams, whose dispatches all
bear the mark 0xF_FFFF, in every one. -/
def State.gateDead (s : State) (r : Region) (g : Gate) : Bool :=
  match g.chain, g.mark with
  | e :: _, some d =>
    let retired (x : Dispatch) : Bool := x.retired.any (fun i => i % 2 ^ 20 == e / 4096)
    let mine := s.dispatches.filter (fun x => x.env.rcb == r.rcb)
    if !g.held then false
    else if d = 0xFFFFF then
      let streams := mine.filter (fun x => x.node.isSome)
      !streams.isEmpty && streams.all retired
    else
      (match mine.find? (fun x => x.node.isNone && x.seq.toNat % 2 ^ 20 == d && decide (r.runFrom ≤ x.seq.toNat)) with
        | some x => retired x
        | none => decide (r.runFrom + (d + 2 ^ 20 - r.runFrom % 2 ^ 20) % 2 ^ 20 < r.nextSeq))
  | _, _ => false

/-- ORDER_GATE_TIMEOUT: no admission for REPTMO µs while an atomic waits, or the expected workgroup has retired: the gate
falls back (R346). -/
def execOrderGateTimeout (rcb va : Nat) (s : State) : Out :=
  match s.region? rcb with
  | none => .next s
  | some r =>
    if !s.gateWaits rcb va then .next s
    else
      match r.gate? va with
      | some g =>
        if !g.fallback ∧ (g.since + 1000 * r.env.reptmo ≤ s.time ∨ s.gateDead r g) then
          .next (s.gateFall rcb g (BitVec.ofNat 32 (g.mark.getD 0)) (BitVec.ofNat 32 (g.chain.headD 0 / 4096)))
        else .next s
      | none => .next s

end Sys2Proof.Machine
end

