-- ==== Sys2Proof/Machine/Splits.lean ====
section
/-! DEFINITION. The split table and the rejoin stack: pushing, splitting, arriving, leaving (R64 to R69), and what makes
a split eligible (R82). -/

namespace Sys2Proof.Machine

/-- An entry of the rejoin stack. -/
def Level.entry? (l : Level) (i : BitVec 4) : Option Rejoin := (l.stack[i.toNat]?).join

/-- The level with one slot of the stack replaced. -/
def Level.setEntry (l : Level) (i : BitVec 4) (r : Option Rejoin) : Level :=
  { l with stack := l.stack.set i.toNat r (by omega) }

/-- The slot numbers of the stack. -/
def stackSlots : List (BitVec 4) := (List.range 16).map (BitVec.ofNat 4)

/-- The split table's entry numbers. -/
def splitSlots : List (BitVec 2) := [0, 1, 2, 3]

/-- The depth of the stack: one more than the highest slot in use (R64). -/
def Level.depth (l : Level) : Nat :=
  stackSlots.foldl (fun d i => if (l.entry? i).isSome then i.toNat + 1 else d) 0

/-- The slot that a push takes, if there is one. -/
def Level.pushSlot (l : Level) : Option (BitVec 4) := if l.depth < 16 then some (BitVec.ofNat 4 l.depth) else none

/-- A free entry of the split table (R65). -/
def Level.freeEntry (l : Level) : Option (BitVec 2) := splitSlots.find? (fun i => (l.split? i).isNone)

/-- Frame `f` lies in the chain of frames that starts at `g`. -/
def Level.inChain (l : Level) (f : BitVec 4) : Nat → Option (BitVec 4) → Bool
  | 0, _ => false
  | _, none => false
  | n + 1, some g =>
    g == f || (match l.entry? g with
      | some (.join _ p _ _) => l.inChain f n p
      | some (.pending _ _ _ p) => l.inChain f n p
      | none => false)

/-- Some split that holds a table entry has `f` in its chain of frames (R68). -/
def Level.held (l : Level) (f : BitVec 4) : Bool :=
  splitSlots.any (fun i => match l.split? i with
    | some e => l.inChain f 16 e.frame
    | none => false)

/-- The most recently pushed pending entry with parent `f`: the one in the highest slot (R64, R68). -/
def Level.pendingOf (l : Level) (f : BitVec 4) : Option (BitVec 4 × Place × Mask × Mask) :=
  stackSlots.foldl (fun r i => match l.entry? i with
    | some (.pending p c o (some g)) => if g = f then some (i, p, c, o) else r
    | some (.pending _ _ _ none) => r
    | some (.join ..) => r
    | none => r) none

/-- A split that opens at a place (R65, R68). It has made no transfer of its own: a fetch that its page forbids names the place
itself (R63; log entry 118). -/
def Split.opened (s : State) (p : Place) (cur owned : Mask) (frame : Option (BitVec 4)) : Split :=
  { Split.start p.pc cur with at_ := p, next := p, owned := owned, frame := frame, last := s.stamp, since := s.clock }

/-- The flights of a thread's current level, changed. -/
def State.mapFlights (s : State) (k : TKey) (f : Flight → Flight) : State :=
  { s with flights := s.flights.map (fun x => if x.key == k && !x.inBase then f x else x) }

/-- The words that the splits of a thread's current level are parked at, changed. -/
def Level.mapWords (l : Level) (f : ParkedWord → ParkedWord) : Level :=
  { l with splits := l.splits.map (fun e => e.map (fun e => { e with parked := e.parked.map f, also := e.also.map f })) }

/-- Results owed to a pending entry are owed to the split that it becomes (R65, R66, R68). -/
def pendsTo (j : BitVec 4) (i : BitVec 2) (splits : BitVec 4) (pends : BitVec 16) : BitVec 4 × BitVec 16 :=
  (if pends.getLsbD j.toNat then splits ||| ((1 : BitVec 4) <<< i.toNat) else splits,
   pends &&& ~~~((1 : BitVec 16) <<< j.toNat))

/-- The level of the thread in focus replaced. -/
def State.setLevel (s : State) (l : Level) : State := { s with thr := { s.thr with level := l } }

/-- A split of the thread in focus leaves its table entry and its lanes arrive at its frame (R68, R69). A pending side of
the frame is released, or the frame's arrived splits merge once nothing holds it open. -/
def State.arriveAt (s : State) (sp : BitVec 2) (cur owned : Mask) : State :=
  match s.thr.level.split? sp with
  | none => s
  | some e =>
    let l := s.thr.level.setSplit sp none
    match e.frame with
    | none => s.setLevel l
    | some f =>
      match l.entry? f with
      | some (.join target parent ac ao) =>
        let ac := ac ||| cur
        let ao := ao ||| owned
        let l := l.setEntry f (some (.join target parent ac ao))
        match l.pendingOf f, l.freeEntry with
        | some (j, p, c, o), some i =>
          let l := (l.setEntry j none).setSplit i (some (Split.opened s p c o (some f)))
          let l := l.mapWords (fun x => let y := pendsTo j i x.splits x.pends; { x with splits := y.1, pends := y.2 })
          let s := (s.setLevel l).mapFlights s.thr.key (fun x =>
            let y := pendsTo j i x.splits x.pends; { x with splits := y.1, pends := y.2 })
          if p.slot = 3 then s.settle i p true else s
        | _, free =>
          if l.held f then s.setLevel l
          else
            match free with
            | some i => s.setLevel ((l.setEntry f none).setSplit i (some (Split.opened s ⟨target, 0⟩ ac ao parent)))
            | none => s.setLevel l
      | some (.pending ..) => s.setLevel l
      | none => s.setLevel l

/-- As `arriveAt`. A trap that the split had still to take at its next group (R363) passes to the split that then takes a trap
meant for its entry (log entry 119). -/
def State.arrive (s : State) (sp : BitVec 2) (cur owned : Mask) : State :=
  let u := s.arriveAt sp cur owned
  match (s.thr.level.split? sp).bind Split.due with
  | some t => u.trapDue sp false t
  | none => u

/-- A level with no split and no pending entry (R69). -/
def Level.empty (l : Level) : Bool := splitSlots.all (fun i => (l.split? i).isNone) && !l.hasPending

/-- The thread in focus has entries or near-bank products that must complete before it retires (R281). -/
def State.mccBusy (s : State) : Bool :=
  s.thr.mcc && ((s.cluster s.myCluster).resv.any (fun r => r.key == s.thr.key) ||
    (s.cluster s.myCluster).mvnb.any (fun m => m.key == s.thr.key))

/-- The split has results or lanes of its own outstanding: JOIN, EXIT and RTE wait for them (R68, R69, R366). -/
def State.pendingResults (s : State) (sp : BitVec 2) : Bool :=
  s.outstanding sp || ((s.thr.level.split? sp).map (fun e => e.parked.isSome)).getD false

/-- EXIT's leave (R69, R357): in trap mode the whole thread ends; else the split leaves the table, and the thread retires
when nothing of it is left. -/
def State.leave (s : State) (sp : BitVec 2) : State :=
  if s.thr.base.isSome then s.retireThread
  else
    let s := s.arrive sp 0 0
    if s.thr.level.empty then s.retireThread else s

/-- The thread may issue: compute is not held, it is not stopped at BKPT, its workgroup is not being saved, and no shadow swap has
frozen it (R355, R368, R369, R380). -/
def State.running (s : State) (t : Thread) : Bool :=
  s.plat.computes && t.bkpt.isNone && (match s.group? t.key.wg with
    | some g => (match g.status with
      | .resident | .shadow => true
      | .frozen => t.mcc
      | .saving _ | .saved _ => false)
    | none => true)

/-- The split is parked for a FAR fault of a word it has issued, for a full gate queue, or for a replay-queue entry that a store
to far memory needs (R162, R165, R346). -/
def State.farWait (s : State) (k : TKey) (sp : BitVec 2) : Bool :=
  s.wq.any (fun e => e.stuck && e.key == k && e.sp == sp) ||
  s.flights.any (fun f => f.key == k && f.sp == sp && !f.inBase && f.todo.any (fun a => a.wait.isSome || a.gated == some true))

/-- A member of a YIELD's set still stands where it was: its thread is in the partition and runs, and it has not parked at a
fetch (R63, R76). -/
def State.yieldHeld (s : State) (me : Thread) (x : TKey × BitVec 2) : Bool :=
  match s.thread? x.1 with
  | some t => t.core == me.core && t.part == me.part && t.bkpt.isNone && (match t.level.split? x.2 with
    | some e => (match e.wait with
      | .fetch _ => false
      | .none | .join | .exit | .results _ | .yield _ | .yieldSet .. | .rte | .scallRel .. | .scall => true)
    | none => false)
  | none => false

/-- A split of a thread waits for something that has not come about: what its S-pipe word waits for, the results that a
switch marker waits for whatever that word is (R78), or far memory. -/
def State.blockedAt (s : State) (t : Thread) (sp : BitVec 2) (e : Split) : Bool :=
  (e.mark && s.waitsResults t.key sp false 15) || s.farWait t.key sp || (match e.wait with
    | .none => false
    | .results m => s.waitsResults t.key sp false m
    | .yield c => decide (s.clock < c)
    | .yieldSet set c => set.any (s.yieldHeld t) && decide (s.clock < c)
    | .join | .exit | .scall => true
    | .rte => s.waitsResults t.key sp false 15
    | .scallRel _ op => !s.releasedBefore t.key op
    | .fetch ws => !ws.isEmpty)

/-- The split of a thread could issue now: its thread may issue, and it is neither parked nor waiting (R82). A split whose
wait has ended is eligible, and so is one whose parked word may be replayed. The interlocks and pipes of R82 are timing (log
entry 111). -/
def State.eligible (s : State) (t : Thread) (sp : BitVec 2) : Bool :=
  s.running t && (match t.level.split? sp with
    | some e =>
      (match e.parked with
        | some p => p.go && p.waits.isEmpty && !s.farWait t.key sp
        | none => e.replay.isSome || !s.blockedAt t sp e)
    | none => false)

/-- The other splits of the thread's partition that are eligible (R76). -/
def State.eligibleOthers (s : State) : List (TKey × BitVec 2) :=
  s.allThreads.flatMap (fun t =>
    if t.core = s.thr.core ∧ t.part = s.thr.part ∧ t.mcc = s.thr.mcc then
      (splitSlots.filter (fun i => !(t.key == s.thr.key && i == s.ctx.sp) && s.eligible t i)).map (fun i => (t.key, i))
    else [])

/-- The request that SCALL writes to Trestle's call queue (R356). -/
def State.callRec (s : State) (sp : BitVec 2) (n : BitVec 16) : CallRec :=
  let t := s.thr
  ⟨t.key, sp, n, t.env.rcb, s.seqOf t, t.index, (List.range 8).map (fun i => t.s[8 + i]?.getD 0)⟩

/-- The context of a word or group of split `sp` at a place. -/
def State.enterCtx (s : State) (sp : BitVec 2) (p : Place) (next : Place) (part : Option ParkedWord) : State :=
  { s with ctx :=
    { sp := sp, pc := p.pc, slot := p.slot, gslot := p.slot, next := next, ext := none, part := part, grp := none, vdst := 0,
      sdst := 0, owed := none, out := .done } }

/-- A pending trap of a split that it takes now: at its next group; a POISON trap also wherever the split is parked, a
PAGE trap also at an ordering word (R363, R397). -/
def Split.dueNow (e : Split) : Option Trap :=
  match e.due with
  | none => none
  | some t =>
    let still := e.parked.isNone && e.replay.isNone && e.wait != .join && e.wait != .exit
    if still || (t.cls == clsPOISON) || e.words.any ParkedWord.order then some t else none

/-- A split takes its pending trap where it stands (R363, R397). -/
def State.takeDue (s : State) (sp : BitVec 2) (e : Split) (t : Trap) : State :=
  let s := (s.enterCtx sp e.at_ e.at_ none).setSplit (fun e => { e with due := none })
  s.takeTrap sp { t with pc := e.onward.pc, slot := e.onward.slot }

/-- Run an event of a split of a thread, with that thread in focus. -/
def State.forSplit (s : State) (t : TKey) (sp : BitVec 2) (f : State → Split → State) : State :=
  match s.focus t with
  | none => s
  | some u =>
    match u.thr.level.split? sp with
    | none => s
    | some e => f u e

end Sys2Proof.Machine
end

