-- ==== Sys2Proof/Machine/Access.lean ====
section
/-! DEFINITION. A word's accesses to virtual memory: the checks of R135, parking, the replay queue, the write queue, the
order of a thread's own accesses, poisoned results (R135 to R137, R150, R151, R159 to R163, R166, R186, R187, R397). -/

namespace Sys2Proof.Machine

/-! ## Checks (R135, R187, R363) -/

/-- The lowest range-lock entry of the thread's cluster that forbids an access (R187). -/
def State.lockHit (s : State) (clm writes : Bool) (lo size : Nat) : Option Nat :=
  (s.cluster s.myCluster).locks.foldl (fun best (n, k) =>
    if k.clm = clm ∧ (k.dest ∨ writes) ∧ lo ≤ k.hi ∧ k.lo < lo + size then
      match best with
      | some b => some (min b n)
      | none => some n
    else best) none

/-- What a check gives: a trap, or the rows of the lanes: lane, address, and the page or the cause of its absence. -/
inductive Check where
  | trap (cls cause addr : Nat) (lanes : Mask)
  | rows (go : List (Nat × Nat × Page)) (miss : List (Nat × Nat × Nat))
  deriving DecidableEq, Repr

/-- The lane number that stands for a word performed once, whatever its mask: a scalar form (R138; log entry 40). -/
def onceLane : Nat := 96

/-- The lanes of failing rows (lane, address, cause); of a word performed once, its mask. -/
def State.failLanes (s : State) (fs : List (Nat × Nat × Nat)) : Mask :=
  if fs.any (fun (x, _, _) => x == onceLane) then s.active else maskOf (fun l => fs.any (fun (x, _, _) => x == l))

/-- The trap of failing rows: the lowest address, and the lowest cause at it (R363). -/
def State.failTrap (s : State) (cls : Nat) (fs : List (Nat × Nat × Nat)) : Check :=
  let best := fs.foldl (fun b (_, va, c) => match b with
    | some (va', c') => if va < va' ∨ (va = va' ∧ c < c') then some (va, c) else b
    | none => some (va, c)) (none : Option (Nat × Nat))
  match best with
  | some (va, c) => .trap cls c va (s.failLanes fs)
  | none => .rows [] []

/-- The checks of R135 on the lanes of a word: alignment, address and page, range locks, then which lanes are mapped.
`extra` is a further condition of step 2 on a mapped lane, `span` the bytes that a lane accesses in all. -/
def State.checkAccess (s : State) (k : Acc) (align size : Nat) (writes : Bool) (extra : Nat → Nat → Page → Bool)
    (reqs : List (Nat × Nat)) (span : Nat → Nat := fun _ => size) : Check :=
  let mis := reqs.filterMap (fun (l, va) => if va % align ≠ 0 then some (l, va, 0) else none)
  if !mis.isEmpty then s.failTrap clsALIGN mis
  else
    let walked := reqs.map (fun (l, va) => (l, va, if validVa va then some (s.waveWalk s.thr.env.ptroot va) else none))
    let bad := walked.filterMap (fun (l, va, w) => match w with
      | none => some (l, va, 1)
      | some (.page p) => if p.permits k && extra l va p then none else some (l, va, 0)
      | some (.fault _) => none)
    if !bad.isEmpty then s.failTrap clsPROT bad
    else
      let hits := reqs.filterMap (fun (l, va) => (s.lockHit false writes va (span l)).map (fun n => (l, va, n)))
      if !hits.isEmpty then s.failTrap clsLOCKHIT hits
      else
        .rows
          (walked.filterMap (fun (l, va, w) => match w with
            | some (.page p) => some (l, va, p)
            | _ => none))
          (walked.filterMap (fun (l, va, w) => match w with
            | some (.fault c) => some (l, va, c)
            | _ => none))

/-- No further condition. -/
def noExtra (_ _ : Nat) (_ : Page) : Bool := true

/-- A replay-queue entry of the thread's core holds a block (R162). -/
def State.queuedBlock (s : State) (va : Nat) : Option RqEntry :=
  s.rq.find? (fun e => e.core == s.port && e.page == blockOf va)

/-- The rows of a check with the lanes moved to the unmapped ones that a replay-queue entry of their page holds back, or
whose fault record the parked word still waits for (R161, R162). -/
def State.holdBack (s : State) (go : List (Nat × Nat × Page)) (miss : List (Nat × Nat × Nat)) :
    List (Nat × Nat × Page) × List (Nat × Nat × Nat) :=
  let open_ := (s.ctx.part.map ParkedWord.waits).getD []
  let held (va : Nat) : Bool := (s.queuedBlock va).isSome || open_.any (fun (_, a) => blockOf a == blockOf va)
  (go.filter (fun (_, va, _) => !held va),
   miss ++ (go.filter (fun (_, va, _) => held va)).map (fun (l, va, _) => (l, va, 0)))

/-- The fault records of unmapped lanes: those still open for the parked word, and new waits (R159, R162). -/
def State.missFaults (s : State) (miss : List (Nat × Nat × Nat)) (type : Nat) : State × List (Nat × Nat) :=
  let open_ := (s.ctx.part.map ParkedWord.waits).getD []
  let new := miss.filter (fun (_, va, _) => !open_.any (fun (_, a) => blockOf a == blockOf va) &&
    !((s.queuedBlock va).map RqEntry.ladle).getD false)
  let far := new.filter (fun (_, va, _) => ((s.queuedBlock va).map RqEntry.far).getD false)
  let near := new.filter (fun (_, va, _) => !((s.queuedBlock va).map RqEntry.far).getD false)
  let (s, a) := s.addFaults (near.map (fun (_, va, c) => (va, c))) type 1
  let (s, b) := s.addFaults (far.map (fun (_, va, _) => (va, 2))) type 2
  (s, open_ ++ a ++ b)

/-- What becomes of a word that needs the Ladle (R341): it parks, or goes on, counted. `phase` 2 marks a counted word. -/
def State.dsEnter (s : State) (ds : Bool) : Option State :=
  if !s.needsLadle ds || (s.ctx.part.map ParkedWord.phase).getD 0 == 2 then some s
  else if s.inVisit then some s.countDs
  else none

/-- Some mapped lane of a writing word lies on a DS page. -/
def anyDs (writes : Bool) (go : List (Nat × Nat × Page)) : Bool := writes && go.any (fun (_, _, p) => p.ds)

/-- A word whose unmapped lanes park its split (R160): `type` is its bit of TYPES; `act` performs the mapped lanes. -/
def State.accessPark (s : State) (k : Acc) (align size : Nat) (writes : Bool) (type : Nat)
    (extra : Nat → Nat → Page → Bool) (reqs : List (Nat × Nat))
    (act : State → Bool → List (Nat × Nat × Page) → State) : State :=
  match s.checkAccess k align size writes extra reqs with
  | .trap cls cause addr lanes => s.trapGroup cls cause (BitVec.ofNat 64 addr) lanes
  | .rows go miss =>
    let (go, miss) := s.holdBack go miss
    let ds := s.needsLadle (anyDs writes go) || (s.ctx.part.map ParkedWord.phase).getD 0 == 2
    match s.dsEnter (anyDs writes go) with
    | none => s.parkLadle 0
    | some s =>
      let s := act s ds go
      if miss.isEmpty then s
      else
        let (s, waits) := s.missFaults miss type
        s.parkAt { s.parkedHere with
          lanes := s.failLanes miss, stage := 1, phase := if ds then 2 else 0, waits := waits, reads := true, ds := ds
          spans := if writes then miss.map (fun (_, va, _) => (va, size)) else [] }

/-- A replay-queue entry for the unmapped lanes of one block of word number `op` (R162). -/
def State.enqueue (s : State) (op type : Nat) (work : Option Work) (whole ds : Bool) (hint : BitVec 2)
    (lanes : List (Nat × Nat × List Byte)) (block cause : Nat) : State :=
  let far := ((s.queuedBlock block).map RqEntry.far).getD false
  let ladle := ((s.queuedBlock block).map RqEntry.ladle).getD false
  let va := lanes.foldl (fun a (_, x, _) => min a x) (block + 65535)
  let (s, ids) := if ladle then (s, []) else s.addFaults [(va, if far then 2 else cause)] type (if far then 2 else 1)
  { s with
    nextId := s.nextId + 1
    rq := s.rq ++ [⟨s.nextId, op, s.port, s.thr.key, s.ctx.sp, false, block, far, work, whole, hint, ds, lanes,
      (ids.headD (0, 0)).1, ladle⟩] }

/-- A word whose unmapped lanes enter the replay queue (R162, R206, R235): `data` gives a lane's bytes, `act` performs the
mapped lanes. With no entry free the split parks at the word. -/
def State.accessQueue (s : State) (k : Acc) (align size : Nat) (type : Nat) (work : Option Work) (whole hashed : Bool)
    (hint : BitVec 2) (extra : Nat → Nat → Page → Bool) (data : Nat → List Byte) (reqs : List (Nat × Nat))
    (act : State → Bool → List (Nat × Nat × Page) → State) (span : Nat → Nat := fun _ => size) : State :=
  match s.checkAccess k align size true extra reqs span with
  | .trap cls cause addr lanes => s.trapGroup cls cause (BitVec.ofNat 64 addr) lanes
  | .rows go miss =>
    let (go, miss) := s.holdBack go miss
    let ds := s.needsLadle (anyDs true go) || (s.ctx.part.map ParkedWord.phase).getD 0 == 2
    let room := 32 - s.rq.countP (fun e => e.core == s.port)
    if !miss.isEmpty ∧ room = 0 then
      s.parkAt { s.parkedHere with
        stage := s.stage, phase := (s.ctx.part.map ParkedWord.phase).getD 0, ds := ds && s.stage != 0, writes := true
        spans := reqs.map (fun (l, va) => (va, span l)) }
    else
      match s.dsEnter (anyDs true go) with
      | none => s.parkLadle 0
      | some s =>
        let s := if hashed && s.stage == 0 then s.hashStores (reqs.map (fun (l, va) => (va, data l))) else s
        let id := s.opId
        let s := act s ds go
        let blocks := faultBlocks (miss.map (fun (_, va, c) => (va, c)))
        let s := (blocks.take room).foldl (fun s (va, c) =>
          s.enqueue id type work whole ds hint
            ((miss.filter (fun (_, x, _) => blockOf x == blockOf va)).map (fun (l, x, _) => (l, x, data l)))
            (blockOf va) c) s
        let spare := blocks.drop room
        let left := miss.filter (fun (_, x, _) => spare.any (fun (b, _) => blockOf b == blockOf x))
        if spare.isEmpty then { s with nextId := max s.nextId (id + 1) }
        else
          s.parkAt { s.parkedHere with
            id := id, stage := 1, phase := if ds then 2 else 0, ds := ds, writes := true
            lanes := s.failLanes left, spans := left.map (fun (l, va, _) => (va, span l)) }

/-! ## What accesses touch (R169, R193) -/

/-- Two runs of bytes overlap. -/
def overlaps (a n b m : Nat) : Bool := decide (a < b + m ∧ b < a + n ∧ m ≠ 0)

/-- The bytes that a lane of a flight touches; 0 for a traversal or a result. -/
def Work.size : Work → Nat
  | .load n _ _ => n
  | .atomic fn => if fn = 11 then 8 else 4
  | .estAdd _ | .estMerge | .estGen | .estLoad _ => 16
  | .cmpTerm | .cmpFlush | .cmpClear _ | .cmpLoad => 32
  | .crep => 64
  | .ray .. | .format | .result => 0

/-- An update of an EST or CMP word, or a read of one by ELD (R208, R237). -/
def Work.atHome : Work → Bool
  | .estAdd _ | .estMerge | .estGen | .estLoad _ | .cmpTerm | .cmpFlush | .cmpClear _ |
    .cmpLoad => true
  | .load .. | .atomic _ | .crep | .ray .. | .format | .result => false

/-- A load or a read of an EST word. -/
def Work.isLoad : Work → Bool
  | .load .. | .estLoad _ | .cmpLoad => true
  | .atomic _ | .estAdd _ | .estMerge | .estGen | .cmpTerm | .cmpFlush | .cmpClear _ | .crep | .ray .. | .format | .result => false

/-- The bytes that a lane of a flight still has to touch from its address on: for EGEN, every word that remains (R203). -/
def LaneAcc.span (a : LaneAcc) (w : Work) : Nat :=
  match w with
  | .estGen => 16 * max 1 (a.data[1]?.getD 1).toNat
  | .load .. | .atomic _ | .estAdd _ | .estMerge | .estLoad _ | .cmpTerm | .cmpFlush | .cmpClear _ |
    .cmpLoad | .crep | .ray .. | .format | .result =>
    w.size

/-- An access that writes at the home of its words: an atomic, a contribution or another update (R142, R208, R237). -/
def Work.updates : Work → Bool
  | .atomic _ | .estAdd _ | .estMerge | .estGen | .cmpTerm | .cmpFlush | .cmpClear _ | .crep => true
  | .load .. | .estLoad _ | .cmpLoad | .ray .. | .format | .result => false

/-- A lane's access is made at its home in the order of the slice: an update, a read of an EST or CMP word, or a raw load on
such a page (R171, R208, R237). -/
def LaneAcc.atHome (a : LaneAcc) (w : Work) : Bool :=
  w.atHome || (match w with
    | .load .. => a.page.type == .est || a.page.type == .cmp
    | .atomic _ | .estAdd _ | .estMerge | .estGen | .estLoad _ | .cmpTerm | .cmpFlush | .cmpClear _ | .cmpLoad | .crep | .ray ..
    | .format | .result => false)

/-- An update of the thread's words before number `op` that touches the bytes has not been applied. -/
def State.updatesAhead (s : State) (k : TKey) (op pa n : Nat) : Bool :=
  s.flights.any (fun f => f.key == k && decide (f.op < op) && f.work.updates &&
    f.todo.any (fun a => overlaps pa n a.pa (a.span f.work)))

/-- A word of the thread before number `op` that is parked has still to write some of the virtual bytes. -/
def State.parkedAhead (s : State) (k : TKey) (op va n : Nat) : Bool :=
  s.anySplit k (fun e => e.words.any (fun p => decide (p.id < op) && p.spans.any (fun (a, m) => overlaps va n a m)))

/-! ## Control blocks (R394) -/

/-- The word being executed parks where it stands, to be tried again: for the fault records given, or until an earlier
store of its thread is out of the way. -/
def State.parkAgain (s : State) (waits : List (Nat × Nat)) : State :=
  let old := s.ctx.part
  s.parkAt { s.parkedHere with
    stage := s.stage, phase := (old.map ParkedWord.phase).getD 0, ds := (old.map ParkedWord.ds).getD false, waits := waits,
    reads := true }

/-- Words of the thread in focus before the one being executed have still to write the `n` bytes at `va`, which lie at `pa`:
stores that have not reached their homes, updates that have not been applied, words that are parked (R169, R193). -/
def State.storesAhead (s : State) (va pa n : Nat) : Bool :=
  let mine (e : WqEntry) : Bool := e.key == s.thr.key && e.stage == .queued && decide (e.op < s.opId) &&
    decide (pa / 32 ≤ e.sector ∧ e.sector ≤ (pa + n - 1) / 32)
  s.wq.any mine || s.hold.any mine || s.updatesAhead s.thr.key s.opId pa n || s.parkedAhead s.thr.key s.opId va n

/-- What reading a control block gives: the word traps or parks, or the bytes and their physical address. -/
inductive Block where
  | stop (s : State)
  | bytes (s : State) (pa : Nat) (bs : List Byte)
  deriving DecidableEq, Repr

/-- A word reads a control block of `n` bytes that it uses itself (R394), at issue (log entry 43): the checks of R135, a
park on an unmapped page, a precise POISON trap of cause 2, the thread's own stores first. -/
def State.readBlock (s : State) (va align n : Nat) (extra : Nat → Nat → Page → Bool) : Block :=
  match s.checkAccess .load align n false extra [(onceLane, va)] with
  | .trap cls cause addr lanes => .stop (s.trapGroup cls cause (BitVec.ofNat 64 addr) lanes)
  | .rows go miss =>
    let (go, miss) := s.holdBack go miss
    match go with
    | [] =>
      let (s, waits) := s.missFaults miss 0
      .stop (s.parkAgain waits)
    | (_, _, p) :: _ =>
      if s.storesAhead va p.pa n then .stop (s.parkAgain [])
      else if s.poisoned p.pa n then .stop (s.trapGroup clsPOISON 2 (BitVec.ofNat 64 va) s.active)
      else .bytes s p.pa (s.homeRead p.pa n)

/-! ## Lanes of a word -/

/-- The requests of a vector form: each active lane with its address (R133). -/
def State.vecReqs (s : State) (p : BitVec 5) (a : Reg) : List (Nat × Nat) :=
  (lanesIn s.active).map (fun l => (l, (s.ea p a l).toNat))

/-- The request of a scalar form. -/
def State.scalarReq (s : State) (p : BitVec 5) (a : Reg) : List (Nat × Nat) := [(onceLane, (s.eaS p a).toNat)]

/-- A lane's data registers from `d`. -/
def State.laneData (s : State) (d n l : Nat) : List Word := (List.range n).map (fun i => laneOf (s.rdVn (d + i)) l)

/-- The accesses of a word's mapped lanes, with the data of each; a scalar form counts as lane 0. -/
def State.laneAccs (s : State) (go : List (Nat × Nat × Page)) (data : Nat → List Word) : List LaneAcc :=
  go.map (fun (l, va, p) => ⟨l % 96, va, p.pa, p, data l, none, none, s.dueAt p.type p.pa⟩)

/-! ## The write queue (R151) -/

/-- Insert a lane's bytes of one sector into a list of sectors in ascending order. -/
def putSector (e : WqEntry) : List WqEntry → List WqEntry
  | [] => [e]
  | x :: xs =>
    if e.sector = x.sector then
      { x with bytes := x.bytes.filter (fun (o, _) => !e.bytes.any (fun (q, _) => q == o)) ++ e.bytes } :: xs
    else if e.sector < x.sector then e :: x :: xs
    else x :: putSector e xs

/-- The sectors of a lane's bytes. -/
def laneSectors (mk : Nat → List (Nat × Byte) → WqEntry) (pa : Nat) (bytes : List Byte) : List WqEntry :=
  (List.range ((pa + bytes.length - 1) / 32 + 1 - pa / 32)).map (fun i =>
    let n := pa / 32 + i
    mk n ((List.range bytes.length).filterMap (fun j =>
      if (pa + j) / 32 = n then some ((pa + j) % 32, bytes[j]?.getD 0) else none)))

/-- Enter a store's sectors in ascending order: as many as there are free entries, the others held (R151). -/
def State.enterSectors (s : State) (es : List WqEntry) : State :=
  let core := (es.head?.map WqEntry.core).getD 0
  let es := (List.range es.length).zip es |>.map (fun (i, e) => { e with id := s.nextId + i })
  let free := if s.hold.any (fun e => e.core == core) then 0 else 64 - s.wq.countP (fun e => e.core == core)
  { s with nextId := s.nextId + es.length, wq := s.wq ++ es.take free, hold := s.hold ++ es.drop free }

/-- The core's scalar cache loses the lines of some bytes (R138). -/
def State.dropScalar (s : State) (core pa n : Nat) : State :=
  s.modCore core (fun c => { c with scalar := c.scalar.filter (fun l => !(decide (pa / 64 ≤ l.line ∧ l.line ≤ (pa + n - 1) / 64))) })

/-- The stores of some lanes (lane, address, page, bytes) enter the write queue; of two lanes that write one byte the
higher stays (R137). -/
def State.queueStore (s : State) (op core : Nat) (key : TKey) (sp : BitVec 2) (whole ds : Bool) (hint : BitVec 2)
    (lanes : List (Nat × Page × List Byte)) : State :=
  let es := lanes.foldl (fun es (va, p, bs) =>
    let mk (n : Nat) (b : List (Nat × Byte)) : WqEntry :=
      ⟨0, op, whole, core, key, sp, n, b, p.type, ds, va + 32 * n - p.pa, hint, .queued, s.dueAt p.type p.pa, false⟩
    (laneSectors mk p.pa bs).foldl (fun es e => putSector e es) es) []
  lanes.foldl (fun s (_, p, bs) => s.dropScalar core p.pa bs.length) (s.enterSectors es)

/-- The first held sector of a core enters the queue when an entry is free (R151). -/
def State.enterHeld (s : State) (core : Nat) : State :=
  match s.hold.find? (fun e => e.core == core) with
  | some e =>
    if s.wq.countP (fun e => e.core == core) < 64 then
      { s with wq := s.wq ++ [e], hold := s.hold.filter (fun x => x.id != e.id) }
    else s
  | none => s

/-! ## A thread's own order (R142, R151, R169, R193, R208) -/

/-- Some line of a range has the home slice given. -/
def State.rangeAt (s : State) (pa n slice : Nat) : Bool :=
  (List.range ((pa + n - 1) / 256 + 1 - pa / 256)).any (fun i => s.sliceOf (256 * (pa / 256 + i)) == slice)

/-- An earlier access of the same thread must be performed before this lane's: one to a byte of it, or, for estimator and
compositing requests, one to the same home slice; within a word the lower lanes come first (R169, R193, R208, R237). The
lanes of one EGEN are ordered by their words alone (R203). -/
def State.behind (s : State) (f : Flight) (a : LaneAcc) : Bool :=
  let n := f.work.size
  let slice := s.sliceOf a.pa
  s.flights.any (fun g => g.key == f.key && g.todo.any (fun b =>
    (decide (g.op < f.op) || (g.id == f.id && f.work != .estGen && decide (b.lane < a.lane))) &&
    (overlaps a.pa n b.pa (b.span g.work) ||
      (a.atHome f.work && b.atHome g.work && s.rangeAt b.pa (b.span g.work) slice))))

/-- An earlier write of the same thread to a sector of the access has not reached its home (R142, R208, R237), or, in far
memory, is not complete, since it may have to be replayed (R165). -/
def State.behindStore (s : State) (f : Flight) (a : LaneAcc) : Bool :=
  let mine (e : WqEntry) : Bool := e.key == f.key && decide (e.op < f.op) &&
    decide (sectorOf a.pa ≤ e.sector ∧ e.sector ≤ sectorOf (a.pa + f.work.size - 1))
  s.hold.any mine || s.wq.any (fun e => mine e && (e.stage == .queued || e.type == .far)) ||
    (a.page.type == .far && s.rq.any (fun x => x.key == f.key && x.page == blockOf a.va && decide (x.op < f.op)))

/-- The queued writes of the load's own thread that overlap it, oldest first (R151). -/
def State.ownWrites (s : State) (f : Flight) (pa n : Nat) : List WqEntry :=
  (s.wq ++ s.hold).filter (fun e => e.key == f.key && decide (e.op < f.op) && e.sector == sectorOf pa &&
    e.bytes.any (fun (o, _) => decide (pa ≤ 32 * e.sector + o ∧ 32 * e.sector + o < pa + n)))

/-- The bytes of a load that one queued write covers, if it covers them all. -/
def WqEntry.forward (e : WqEntry) (pa n : Nat) : Option (List Byte) :=
  (List.range n).mapM (fun i => (e.bytes.find? (fun (o, _) => 32 * e.sector + o == pa + i)).map Prod.snd)

/-! ## Results (R77, R166, R397) -/

/-- A long-latency register write of a thread: `r` a register offset, `l` a lane. A write to m0 to m2 of a wave goes to
the split that issued the word (R55, R77). -/
def Thread.landValue (t : Thread) (stamp : Nat) (f : Flight) (l r : Nat) (x : Word) : Thread :=
  if f.scalar then
    match f.inBase, t.base with
    | true, some (b, bs) =>
      let u := ({ t with level := b } : Thread).wrS f.sp (f.dst + r) x
      { u with level := t.level, base := some (u.level, bs) }
    | _, _ => t.wrS f.sp (f.dst + r) x
  else t.wrV stamp (f.dst + r) ((1 : Mask) <<< l) (fun _ => x) .g

/-- Write the ready results of a flight for the lanes and registers named (R77, R79). -/
def State.landReady (s : State) (id : Nat) (lanes : Mask) (regs : BitVec 8) : State :=
  match s.flight? id with
  | none => s
  | some f =>
    let now := f.ready.filter (fun (l, r, _) => lanes.getLsbD l && regs.getLsbD r)
    let s := s.modThread f.key (fun t => now.foldl (fun t (l, r, x) => t.landValue s.stamp f l r x) t)
    (s.modFlight id (fun f => { f with
      ready := f.ready.filter (fun (l, r, _) => !(lanes.getLsbD l && regs.getLsbD r)) })).sweepFlights

/-- The region of a flight's thread propagates poison (R325). -/
def State.propagates (s : State) (k : TKey) : Bool := ((s.thread? k).map (fun t => t.env.propagate)).getD false

/-- A word that met poison traps (R397): at the word when its split has issued no later group, else at its next group. -/
def State.poisonTrap (s : State) (f : Flight) : State :=
  match s.focus f.key with
  | none => s
  | some s =>
    let t : Trap :=
      { cls := clsPOISON, cause := if f.later then 1 else 0, pc := f.at_.pc, slot := f.at_.slot, oslot := f.at_.slot
        replay := !f.later
        addr := BitVec.ofNat 64 (f.bad.foldl (fun a (_, va) => min a va) (2 ^ 64 - 1))
        lanes :=
          if f.scalar then (((if f.inBase then s.thr.base.map Prod.fst else some s.thr.level).bind
            (fun (l : Level) => l.split? f.sp)).map Split.cur).getD 0
          else maskOf (fun l => f.bad.any (fun (x, _) => x == l)) }
    if f.later then s.trapDue f.sp f.inBase t else s.trapAsync f.sp f.inBase t

/-- A flight with no lane left to perform raises the trap of its poisoned lanes; a load then writes no destination, an
atomic first the results of its other lanes (R166). -/
def State.settleFlight (s : State) (id : Nat) : State :=
  match s.flight? id with
  | none => s
  | some f =>
    if f.todo.isEmpty ∧ !f.bad.isEmpty then
      let load := match f.work with
        | .load .. | .estLoad _ | .cmpLoad => true
        | .atomic _ | .estAdd _ | .estMerge | .estGen | .cmpTerm | .cmpFlush | .cmpClear _ | .crep | .ray .. | .format | .result => false
      let s := if load then s else s.landReady id (BitVec.allOnes 96) 255
      let s := (s.modFlight id (fun f => { f with bad := [], ready := [] })).sweepFlights
      s.poisonTrap f
    else s

/-- The values of a flight may be written now: a load of a region that does not propagate poison waits for all its lanes
(R166). -/
def State.writable (s : State) (f : Flight) : Bool :=
  match f.work with
  | .load .. | .estLoad _ | .cmpLoad => s.propagates f.key || (f.todo.isEmpty && f.bad.isEmpty)
  | .atomic _ | .estAdd _ | .estMerge | .estGen | .cmpTerm | .cmpFlush | .cmpClear _ | .crep | .ray .. | .format | .result => f.bad.isEmpty

/-- A traversal: its results are written together, by TRACE_COMPLETE (R269). -/
def Work.isRay : Work → Bool
  | .ray .. => true
  | .load .. | .atomic _ | .estAdd _ | .estMerge | .estGen | .estLoad _ | .cmpTerm | .cmpFlush | .cmpClear _ | .cmpLoad |
    .crep | .format | .result => false

/-- Results of a flight reach their registers (R77, R79): first its poison trap, if it has one to take. -/
def State.landFlight (s : State) (id : Nat) (lanes : Mask) (regs : BitVec 8) : State :=
  if ((s.flight? id).map (fun f => f.work.isRay)).getD false then s
  else
    let s := s.settleFlight id
    match s.flight? id with
    | some f => if s.writable f then s.landReady id lanes regs else s
    | none => s

/-- The values of a lane whose access has been performed. -/
def State.performed (s : State) (id lane : Nat) (vals : List Word) : State :=
  s.modFlight id (fun f => { f with
    todo := f.todo.filter (fun a => a.lane != lane)
    ready := if f.count = 0 then f.ready else
      f.ready ++ ((List.range vals.length).zip vals).map (fun (i, v) => (lane, i, v)) })

/-- A lane that met poison: recorded for the trap, or given the poison values (R166). -/
def State.performedBad (s : State) (id : Nat) (a : LaneAcc) (vals : List Word) : State :=
  match s.flight? id with
  | none => s
  | some f =>
    if s.propagates f.key then s.performed id a.lane vals
    else s.modFlight id (fun f => { f with todo := f.todo.filter (fun b => b.lane != a.lane), bad := f.bad ++ [(a.lane, a.va)] })

/-- The poison value of an access of a size (R166). -/
def poisonWord (narrow : Bool) : Word := if narrow then 0x0BAD0BAD else 0x7FC00000

/-! ## Reading for a load (R136, R138, R150, R152, R171) -/

/-- The page is never held in the L1 (R171). -/
def Page.uncached (p : Page) : Bool := p.type == .est || p.type == .cmp || p.ds

/-- Read one 64-byte line into the L1, with the words of poisoned sectors left invalid. -/
def State.fillL1 (s : State) (cl line : Nat) : State :=
  let bytes := s.homeRead (64 * line) 64
  let bad (i : Nat) : Bool := s.poisoned (64 * line + 4 * i) 4
  let valid := (List.range 16).foldl (fun m i => if bad i then m else m ||| ((1 : BitVec 16) <<< i)) (0 : BitVec 16)
  s.modCluster cl (fun c =>
    let owned := match c.l1.find? (fun x => x.line == line) with
      | some l => l.owned
      | none => 0
    (c.l1Room line s.stamp).putLine ⟨line, bytes, valid, owned, false⟩)

/-- A streaming access that hits the L1 marks the line next to be replaced (R155). -/
def Cluster.markNext (c : Cluster) (line : Nat) : Cluster :=
  { c with l1 := c.l1.map (fun l => if l.line = line then { l with next := true } else l) }

/-- The bytes of a load at its home, through the L1 where the page allows it; none when a sector is poisoned. -/
def State.readThrough (s : State) (env : Env) (core : Nat) (a : LaneAcc) (n : Nat) (hint : BitVec 2) (evict : Bool) :
    State × Option (List Byte) :=
  let cl := portCluster core
  let home (s : State) : State × Option (List Byte) :=
    let s := s.touchL2 env a.pa hint (a.page.type == .far)
    if s.poisoned a.pa n then (s, none) else (s, some (s.homeRead a.pa n))
  if a.page.uncached || !(s.cluster cl).hasL1 then home s
  else
    let s := if evict then s.modCluster cl (fun c => c.dropLine (a.pa / 64)) else s
    match (s.cluster cl).l1Read a.pa n with
    | some bs => (if hint = 3 then s.modCluster cl (fun c => c.markNext (a.pa / 64)) else s, some bs)
    | none =>
      let (s, r) := home s
      (if hint = 3 then s else s.fillL1 cl (a.pa / 64), r)

/-- The bytes of a vector load; the core's scalar cache then holds no older copy of the line (R138, R193). -/
def State.readVector (s : State) (env : Env) (core : Nat) (a : LaneAcc) (n : Nat) (hint : BitVec 2) (evict : Bool) :
    State × Option (List Byte) :=
  let (s, r) := s.readThrough env core a n hint evict
  (s.dropScalar core a.pa n, r)

/-- A line as a cluster reads it: the words valid in its L1 from there and the others from their home, so that a scalar cache
filled with it holds nothing newer than a valid word of the L1 (R138, R193; log entry 55). None when a word from the home is
poisoned. -/
def State.lineThrough (s : State) (cl line : Nat) : Option (List Byte) :=
  let word (i : Nat) : Option (List Byte) :=
    ((s.cluster cl).l1Read (64 * line + 4 * i) 4).orElse (fun _ =>
      if s.poisoned (64 * line + 4 * i) 4 then none else some (s.homeRead (64 * line + 4 * i) 4))
  ((List.range 16).mapM word).map List.flatten

/-- A line enters a core's scalar cache, which holds 256 (R14, R138). Which line leaves a full cache is open (log entry 14). -/
def Core.keepScalar (c : Core) (stamp : Nat) (l : RoLine) : Core :=
  let gone := if c.scalar.length < 256 then none else c.scalar[Config.scalarVictim stamp % c.scalar.length]?
  { c with scalar := l :: c.scalar.filter (fun x => gone != some x) }

/-- The bytes of a scalar load: from the core's scalar cache, else through the L1, filling the line (R138). With `evict` the
line has been replaced in both caches: the spec names no replacement order, so it may have been at any time (log entry
14). -/
def State.readScalar (s : State) (env : Env) (core : Nat) (a : LaneAcc) (n : Nat) (hint : BitVec 2) (evict : Bool) :
    State × Option (List Byte) :=
  if a.page.uncached then s.readThrough env core a n hint evict
  else
    let s := if evict then s.dropScalar core a.pa n else s
    match (s.coreOf core).scalar.find? (fun l => l.line == a.pa / 64) with
    | some l => (s, some ((l.bytes.drop (a.pa % 64)).take n))
    | none =>
      let (s, r) := s.readThrough env core a n hint evict
      match r, s.lineThrough (portCluster core) (a.pa / 64) with
      | some _, some bs => (s.modCore core (fun c => c.keepScalar s.stamp ⟨a.pa / 64, bs⟩), r)
      | _, _ => (s, r)

end Sys2Proof.Machine
end

