-- ==== Sys2Proof/WellFormed.lean ====
section
/-! DEFINITION. Well-formed instructions: the limits the spec puts on the values of a word's fields (R24, R26, and the
limit in the entry of each form). A word that breaks one is a non-instruction (R29). Limits that depend on the thread
(R28, R50, R359) are checked when the group issues. -/

namespace Sys2Proof

/-- The element formats of R30 that are integers are codes 8 to 14. -/
def intFormat (f : BitVec 4) : Bool := 8 ≤ f.toNat

/-- The fields of XCVT (R26, R109): formats 0 to 14, different from each other, RND below 7, and RND zero between two
integer formats. -/
def xcvtPairOk (s t : BitVec 4) (r : BitVec 3) : Bool :=
  s.toNat ≤ 14 && t.toNat ≤ 14 && s != t && r.toNat ≤ 6 && (!(intFormat s && intFormat t) || r == 0)

/-- The registers of an ATOM word with `k` data registers (R24, R139): `vD` up to `vD+k-1`, or, with D = 63, `vA+1` to
`vA+k`. -/
def atomRegsOk (d a : BitVec 6) (k : Nat) : Bool :=
  if d.toNat = 63 then a.toNat + k ≤ 63 else d.toNat + k - 1 ≤ 63

/-- The control register numbers that R360 assigns. -/
def ctlAssigned (r : BitVec 12) : Bool :=
  let n := r.toNat
  n ≤ 0x012 || (0x020 ≤ n && n ≤ 0x087) || n == 0x088 || n == 0x089

/-- CONST, whose K bit is must-be-zero (R23). -/
def Instr.isConst (i : Instr) : Bool :=
  match i with
  | .const _ => true
  | _ => false

/-- The values of the instruction's fields are ones the spec allows. -/
def Instr.wellFormed (i : Instr) : Bool :=
  match i with
  | .nop => true
  | .mjoin _ => true
  | .join => true
  | .ret => true
  | .jmpr _ => true
  | .loop _ n => 1 ≤ n.toNat && n.toNat ≤ 85
  | .loopi _ n => 1 ≤ n.toNat && n.toNat ≤ 85
  | .lbrk => true
  | .yield _ => true
  | .waitx _ => true
  | .br _ => true
  | .call _ => true
  | .bru _ _ _ => true
  | .brs m _ _ => m.toNat ≤ 61
  | .sadd _ _ _ _ => true
  | .ssub _ _ _ _ => true
  | .smul _ _ _ _ => true
  | .smulh _ _ _ _ => true
  | .sdiv _ _ _ _ => true
  | .sdivu _ _ _ _ => true
  | .srem _ _ _ _ => true
  | .sand _ _ _ _ => true
  | .sor _ _ _ _ => true
  | .sxor _ _ _ _ => true
  | .sshl _ _ _ _ => true
  | .sshr _ _ _ _ => true
  | .ssra _ _ _ _ => true
  | .sshli _ _ n _ => n.toNat < 32
  | .sshri _ _ n _ => n.toNat < 32
  | .ssrai _ _ n _ => n.toNat < 32
  | .smin _ _ _ _ => true
  | .smax _ _ _ _ => true
  | .sceq _ _ _ _ => true
  | .sclt _ _ _ _ => true
  | .scltu _ _ _ _ => true
  | .ssel _ _ _ _ => true
  | .sclz _ _ _ => true
  | .spop _ _ _ => true
  | .smov _ _ _ => true
  | .saddi _ _ _ => true
  | .sandi _ _ _ => true
  | .sori _ _ _ => true
  | .vadd _ _ _ _ => true
  | .vsub _ _ _ _ => true
  | .vmul _ _ _ _ => true
  | .vmulh _ _ _ _ => true
  | .vmad _ _ _ _ => true
  | .vand _ _ _ _ => true
  | .vor _ _ _ _ => true
  | .vxor _ _ _ _ => true
  | .vnot _ _ _ => true
  | .vshl _ _ _ _ => true
  | .vshr _ _ _ _ => true
  | .vsra _ _ _ _ => true
  | .vshli _ _ n _ => n.toNat < 32
  | .vshri _ _ n _ => n.toNat < 32
  | .vsrai _ _ n _ => n.toNat < 32
  | .vmin _ _ _ _ => true
  | .vmax _ _ _ _ => true
  | .vabs _ _ _ => true
  | .vneg _ _ _ => true
  | .vclz _ _ _ => true
  | .vpop _ _ _ => true
  | .vmov _ _ _ => true
  | .vselz _ _ _ _ => true
  | .vaddi _ _ _ => true
  | .vandi _ _ _ => true
  | .vli _ _ => true
  | .vceq d _ _ _ => d.toNat ≤ 61
  | .vcne d _ _ _ => d.toNat ≤ 61
  | .vclt d _ _ _ => d.toNat ≤ 61
  | .vcle d _ _ _ => d.toNat ≤ 61
  | .vcltu d _ _ _ => d.toNat ≤ 61
  | .vcleu d _ _ _ => d.toNat ≤ 61
  | .vfceq d _ _ _ => d.toNat ≤ 61
  | .vfcne d _ _ _ => d.toNat ≤ 61
  | .vfclt d _ _ _ => d.toNat ≤ 61
  | .vfcle d _ _ _ => d.toNat ≤ 61
  | .vfcun d _ _ _ => d.toNat ≤ 61
  | .vdotb _ _ _ _ => true
  | .vdotbs _ _ _ _ => true
  | .vdotub _ _ _ _ => true
  | .vdotubs _ _ _ _ => true
  | .vdotn _ _ _ _ => true
  | .vdotns _ _ _ _ => true
  | .vdoth _ _ _ _ => true
  | .vdotbf _ _ _ _ => true
  | .vfadd _ _ _ _ => true
  | .vfsub _ _ _ _ => true
  | .vfmul _ _ _ _ => true
  | .vfma _ _ _ _ => true
  | .vfms _ _ _ _ => true
  | .vfnma _ _ _ _ => true
  | .vfmin _ _ _ _ => true
  | .vfmax _ _ _ _ => true
  | .vfminn _ _ _ _ => true
  | .vfmaxn _ _ _ _ => true
  | .vfabs _ _ _ => true
  | .vfneg _ _ _ => true
  | .vfcps _ _ _ _ => true
  | .vfrnd _ _ _ => true
  | .vftrc _ _ _ => true
  | .vfclass _ _ _ => true
  | .hadd _ _ _ _ => true
  | .hsub _ _ _ _ => true
  | .hmul _ _ _ _ => true
  | .hfma _ _ _ _ => true
  | .hmin _ _ _ _ => true
  | .hmax _ _ _ _ => true
  | .badd _ _ _ _ => true
  | .bmul _ _ _ _ => true
  | .bfma _ _ _ _ => true
  | .xcvt _ _ s t r _ => xcvtPairOk s t r
  | .xrcp _ _ _ => true
  | .xrsq _ _ _ => true
  | .xsqrt _ _ _ => true
  | .xexp2 _ _ _ => true
  | .xlog2 _ _ _ => true
  | .xsin _ _ _ => true
  | .xcos _ _ _ => true
  | .xtanh _ _ _ => true
  | .xdiv _ _ _ _ => true
  | .xpack6 _ _ _ => true
  | .xunpk6 _ _ _ => true
  | .xpack4 _ _ _ _ => true
  | .xunpk4 d _ _ => d.toNat ≤ 62
  | .xpackh _ _ _ _ => true
  | .xpackb _ _ _ _ => true
  | .xqnt4 _ _ _ _ => true
  | .xqnt8 _ _ _ _ => true
  | .xdqnt4 _ _ _ _ => true
  | .xdqnt8 _ _ _ _ => true
  | .xqmx _ _ _ _ => true
  | .xdqmx _ _ _ _ => true
  | .xamax _ _ _ _ => true
  | .xrngb _ => true
  | .xrngu _ => true
  | .xrngk _ _ _ _ => true
  | .xrngj _ _ _ => true
  | .wshf _ _ _ _ => true
  | .wshfi _ _ _ _ => true
  | .wxor _ _ _ _ => true
  | .wup _ _ _ _ => true
  | .wdn _ _ _ _ => true
  | .wbc _ _ _ => true
  | .wscan _ _ _ => true
  | .wscanx _ _ _ => true
  | .wscanf _ _ _ => true
  | .wscanmin _ _ _ => true
  | .wscanmax _ _ _ => true
  | .wred _ _ _ => true
  | .wredf _ _ _ => true
  | .wredmin _ _ _ => true
  | .wredmax _ _ _ => true
  | .wredand _ _ _ => true
  | .wredor _ _ _ => true
  | .wvote d _ _ => d.toNat ≤ 61
  | .wany _ _ _ => true
  | .wall _ _ _ => true
  | .wcomp _ _ _ _ => true
  | .wmaxi d _ _ _ => d.toNat ≤ 62
  | .wflg d g => d.toNat ≤ 61 && g.toNat ≤ 4
  | .wflclr _ => true
  | .ldb _ _ _ _ => true
  | .ldbu _ _ _ _ => true
  | .ldh _ _ _ _ => true
  | .ldhu _ _ _ _ => true
  | .ldw _ _ _ _ => true
  | .ldd d _ _ _ => d.toNat ≤ 62
  | .ldq d _ _ _ => d.toNat ≤ 60
  | .sldw _ _ _ _ => true
  | .sldd d _ _ _ => d.toNat ≤ 62
  | .sldq d _ _ _ => d.toNat ≤ 60
  | .stb _ _ _ _ => true
  | .sth _ _ _ _ => true
  | .stw _ _ _ _ => true
  | .std d _ _ _ => d.toNat ≤ 62
  | .stq d _ _ _ => d.toNat ≤ 60
  | .st64 d _ _ _ => d.toNat ≤ 48
  | .sstw _ _ _ _ => true
  | .sstd d _ _ _ => d.toNat ≤ 62
  | .lldw _ _ _ => true
  | .lldq d _ _ => d.toNat ≤ 60
  | .lstw _ _ _ => true
  | .lstq d _ _ => d.toNat ≤ 60
  | .lpush _ _ _ => true
  | .lpop _ _ _ => true
  | .laadd _ _ _ => true
  | .lamin _ _ _ => true
  | .lamax _ _ _ => true
  | .laxch _ _ _ => true
  | .aadd d a _ _ => atomRegsOk d a 1
  | .amin d a _ _ => atomRegsOk d a 1
  | .amax d a _ _ => atomRegsOk d a 1
  | .aand d a _ _ => atomRegsOk d a 1
  | .aor d a _ _ => atomRegsOk d a 1
  | .axor d a _ _ => atomRegsOk d a 1
  | .axch d a _ _ => atomRegsOk d a 1
  | .acas d a _ _ => atomRegsOk d a 2
  | .afadd d a _ _ => atomRegsOk d a 1
  | .afmin d a _ _ => atomRegsOk d a 1
  | .afmax d a _ _ => atomRegsOk d a 1
  | .amxi d a _ _ => atomRegsOk d a 2
  | .acq => true
  | .rel => true
  | .acqrel => true
  | .fsmp => true
  | .fbvh => true
  | .ffar _ _ => true
  | .pref _ _ _ => true
  | .invl _ _ => true
  | .esta _ _ _ _ => true
  | .estw d _ _ _ => d.toNat ≤ 62
  | .estg d _ _ _ => d.toNat ≤ 61
  | .emrg d _ _ _ => d.toNat ≤ 60
  | .eld d _ _ _ => d.toNat ≤ 60
  | .eldr d _ _ _ => d.toNat ≤ 60
  | .egen _ _ _ _ => true
  | .ewatch _ _ _ => true
  | .eunw _ _ => true
  | .cmpt d _ _ _ => d.toNat ≤ 59
  | .clda d _ _ _ => d.toNat ≤ 59
  | .cflush _ _ _ => true
  | .cclr _ _ _ => true
  | .crep d _ _ _ => d.toNat ≤ 59
  | .cbind _ _ _ => true
  | .bar _ => true
  | .bara _ => true
  | .barw _ => true
  | .barx _ _ => true
  | .oapp _ _ _ => true
  | .odecl _ => true
  | .lget => true
  | .lpass => true
  | .smpp d a _ _ => a.toNat ≤ 61 && d.toNat ≤ 60
  | .smpb d a _ _ => a.toNat ≤ 61 && d.toNat ≤ 60
  | .smpt d a _ _ => a.toNat ≤ 61 && d.toNat ≤ 60
  | .smpa d a _ _ => a.toNat ≤ 59 && d.toNat ≤ 60
  | .smpg d a _ _ => a.toNat ≤ 60 && d.toNat ≤ 60
  | .sfet d a _ _ => a.toNat ≤ 61 && d.toNat ≤ 60
  | .slat d a _ _ => a.toNat ≤ 61 && d.toNat ≤ 60
  | .sqry d _ _ _ => d.toNat ≤ 60
  | .dtbind _ _ => true
  | .dtunb _ => true
  | .dtqry _ => true
  | .trace d a _ => a.toNat ≤ 56 && d.toNat ≤ 58
  | .tracea d a _ => a.toNat ≤ 56 && d.toNat ≤ 58
  | .tcall p a _ => a.toNat ≤ 53 && p.toNat ≤ 32
  | .trres d => d.toNat ≤ 61
  | .rdraw _ _ => true
  | .rwait _ => true
  | .wgenq _ _ _ => true
  | .launch _ _ => true
  | .wgfin => true
  | .mldf _ _ => true
  | .mma d _ _ => d.toNat ≤ 31
  | .mmaz d _ _ => d.toNat ≤ 31
  | .mpost _ _ _ _ => true
  | .mwait e t => !e || t == 0
  | .mdrain d _ _ => d.toNat ≤ 31
  | .mfill d _ _ => d.toNat ≤ 31
  | .mvnb _ _ => true
  | .mvwait => true
  | .hload _ _ _ _ => true
  | .hstore _ _ _ _ => true
  | .hmcast _ _ _ _ => true
  | .hpref _ _ _ _ => true
  | .hbatch _ => true
  | .waitb _ => true
  | .hqry _ _ _ h => h.toNat ≤ 1
  | .trap _ => true
  | .rte => true
  | .scall _ => true
  | .ctlr _ r => ctlAssigned r
  | .ctlw r _ => ctlAssigned r
  | .bkpt _ => true
  | .exit => true
  | .rdtime d => d.toNat ≤ 62
  | .const _ => true
  | .nonInstruction _ => true
  | .longLatencyReturn _ _ _ => true
  | .joinArrive _ _ => true
  | .splitLeave _ _ => true
  | .workgroupRetire _ => true
  | .yieldExpiry _ _ => true
  | .progressPromote _ _ => true
  | .writeQueueEnter _ => true
  | .storeReachHome _ _ => true
  | .revoke _ _ _ => true
  | .storeAck _ _ => true
  | .loadReturn _ _ _ _ => true
  | .atomicApply _ _ => true
  | .orderGateAdmit _ _ => true
  | .orderGateTimeout _ _ => true
  | .faultMap _ _ => true
  | .faultDeny _ => true
  | .faultPoison _ => true
  | .faultRetry _ => true
  | .farStoreAck _ _ => true
  | .farTimeout _ _ _ => true
  | .cxlLinkLoss _ => true
  | .poisonTrapDeferred _ _ => true
  | .softError _ _ => true
  | .rangeLockRelease _ _ => true
  | .estContributeApply _ _ => true
  | .estMergeApply _ _ => true
  | .estGenApply _ _ => true
  | .estdropAck _ => true
  | .watchSweep _ => true
  | .cmpTermArrive _ _ => true
  | .crucibleHoldExpire _ => true
  | .matGrant _ _ => true
  | .matEntryComplete _ _ => true
  | .mvnbComplete _ _ => true
  | .hamperOpStart _ _ => true
  | .hamperOpComplete _ _ => true
  | .hmcastShareLand _ _ _ => true
  | .traceLaneFinish _ _ => true
  | .traceComplete _ => true
  | .rasterTriangle _ => true
  | .rasterTileRecord _ _ => true
  | .nodeGroupTimer _ _ => true
  | .workgroupPlace => true
  | .shadowSwap _ _ _ => true
  | .shadowSaveTimeout _ _ => true
  | .fullSave _ _ => true
  | .restore _ => true
  | .ladleHandon _ => true
  | .ladleVisitTimeout _ => true
  | .oappGrant _ _ => true
  | .scallAnswer _ _ _ => true
  | .bkptResume _ _ => true
  | .clmBankModeWrite _ _ => true
  | .clmBankRefusedClear _ _ => true
  | .loopCounterWrite _ _ => true
  | .hstatClear _ => true
  | .sstatClear _ _ => true
  | .mstatClear _ => true
  | .trapStateWrite _ _ => true
  | .bandRise _ _ _ => true
  | .bandFall _ _ _ => true
  | .soakStable => true
  | .trainComplete => true
  | .trainFail => true
  | .excursionClear => true
  | .flaskCool => true
  | .flaskWarm => true
  | .flaskResume => true
  | .flaskService => true
  | .excursionClr => true
  | .stackwinWrite _ => true
  | .cxlDownClear _ => true
  | .platformRegisterWrite _ _ => true
  | .dutyRequestAnswer _ => true
  | .refreshRow _ _ => true
  | .scrubPassStart _ => true
  | .scrubSector _ _ _ => true
  | .scrubEscalate _ _ => true
  | .deviceReset _ _ => true
  | .hostLoad _ _ _ _ _ => true
  | .hostUnload _ _ _ => true
  | .hostLaunch _ _ _ => true
  | .hostAlloc _ _ _ _ _ => true
  | .hostCopy _ _ _ => true
  | .hostAttest _ _ => true
  | .hostEvents _ _ => true
  | .hostFree _ _ _ _ _ => true
  | .hostUnknownRequest _ _ => true
  | .decroTransferArrive _ _ _ => true
  | .decroLinkLoss _ => true
  | .loadComplete _ => true
  | .regionTeardown _ => true
  | .runEnd _ => true
  | .pageRetire _ _ _ => true
  | .cxlLinkUp _ => true
  | .rowBinning _ _ _ => true
  | .bloomFilterLoad _ _ _ => true

/-- The first 279 constructors are words; the rest are events, which no program holds. -/
def Instr.isWord (i : Instr) : Bool :=
  match i with
  | .nop => true
  | .mjoin _ => true
  | .join => true
  | .ret => true
  | .jmpr _ => true
  | .loop _ _ => true
  | .loopi _ _ => true
  | .lbrk => true
  | .yield _ => true
  | .waitx _ => true
  | .br _ => true
  | .call _ => true
  | .bru _ _ _ => true
  | .brs _ _ _ => true
  | .sadd _ _ _ _ => true
  | .ssub _ _ _ _ => true
  | .smul _ _ _ _ => true
  | .smulh _ _ _ _ => true
  | .sdiv _ _ _ _ => true
  | .sdivu _ _ _ _ => true
  | .srem _ _ _ _ => true
  | .sand _ _ _ _ => true
  | .sor _ _ _ _ => true
  | .sxor _ _ _ _ => true
  | .sshl _ _ _ _ => true
  | .sshr _ _ _ _ => true
  | .ssra _ _ _ _ => true
  | .sshli _ _ _ _ => true
  | .sshri _ _ _ _ => true
  | .ssrai _ _ _ _ => true
  | .smin _ _ _ _ => true
  | .smax _ _ _ _ => true
  | .sceq _ _ _ _ => true
  | .sclt _ _ _ _ => true
  | .scltu _ _ _ _ => true
  | .ssel _ _ _ _ => true
  | .sclz _ _ _ => true
  | .spop _ _ _ => true
  | .smov _ _ _ => true
  | .saddi _ _ _ => true
  | .sandi _ _ _ => true
  | .sori _ _ _ => true
  | .vadd _ _ _ _ => true
  | .vsub _ _ _ _ => true
  | .vmul _ _ _ _ => true
  | .vmulh _ _ _ _ => true
  | .vmad _ _ _ _ => true
  | .vand _ _ _ _ => true
  | .vor _ _ _ _ => true
  | .vxor _ _ _ _ => true
  | .vnot _ _ _ => true
  | .vshl _ _ _ _ => true
  | .vshr _ _ _ _ => true
  | .vsra _ _ _ _ => true
  | .vshli _ _ _ _ => true
  | .vshri _ _ _ _ => true
  | .vsrai _ _ _ _ => true
  | .vmin _ _ _ _ => true
  | .vmax _ _ _ _ => true
  | .vabs _ _ _ => true
  | .vneg _ _ _ => true
  | .vclz _ _ _ => true
  | .vpop _ _ _ => true
  | .vmov _ _ _ => true
  | .vselz _ _ _ _ => true
  | .vaddi _ _ _ => true
  | .vandi _ _ _ => true
  | .vli _ _ => true
  | .vceq _ _ _ _ => true
  | .vcne _ _ _ _ => true
  | .vclt _ _ _ _ => true
  | .vcle _ _ _ _ => true
  | .vcltu _ _ _ _ => true
  | .vcleu _ _ _ _ => true
  | .vfceq _ _ _ _ => true
  | .vfcne _ _ _ _ => true
  | .vfclt _ _ _ _ => true
  | .vfcle _ _ _ _ => true
  | .vfcun _ _ _ _ => true
  | .vdotb _ _ _ _ => true
  | .vdotbs _ _ _ _ => true
  | .vdotub _ _ _ _ => true
  | .vdotubs _ _ _ _ => true
  | .vdotn _ _ _ _ => true
  | .vdotns _ _ _ _ => true
  | .vdoth _ _ _ _ => true
  | .vdotbf _ _ _ _ => true
  | .vfadd _ _ _ _ => true
  | .vfsub _ _ _ _ => true
  | .vfmul _ _ _ _ => true
  | .vfma _ _ _ _ => true
  | .vfms _ _ _ _ => true
  | .vfnma _ _ _ _ => true
  | .vfmin _ _ _ _ => true
  | .vfmax _ _ _ _ => true
  | .vfminn _ _ _ _ => true
  | .vfmaxn _ _ _ _ => true
  | .vfabs _ _ _ => true
  | .vfneg _ _ _ => true
  | .vfcps _ _ _ _ => true
  | .vfrnd _ _ _ => true
  | .vftrc _ _ _ => true
  | .vfclass _ _ _ => true
  | .hadd _ _ _ _ => true
  | .hsub _ _ _ _ => true
  | .hmul _ _ _ _ => true
  | .hfma _ _ _ _ => true
  | .hmin _ _ _ _ => true
  | .hmax _ _ _ _ => true
  | .badd _ _ _ _ => true
  | .bmul _ _ _ _ => true
  | .bfma _ _ _ _ => true
  | .xcvt _ _ _ _ _ _ => true
  | .xrcp _ _ _ => true
  | .xrsq _ _ _ => true
  | .xsqrt _ _ _ => true
  | .xexp2 _ _ _ => true
  | .xlog2 _ _ _ => true
  | .xsin _ _ _ => true
  | .xcos _ _ _ => true
  | .xtanh _ _ _ => true
  | .xdiv _ _ _ _ => true
  | .xpack6 _ _ _ => true
  | .xunpk6 _ _ _ => true
  | .xpack4 _ _ _ _ => true
  | .xunpk4 _ _ _ => true
  | .xpackh _ _ _ _ => true
  | .xpackb _ _ _ _ => true
  | .xqnt4 _ _ _ _ => true
  | .xqnt8 _ _ _ _ => true
  | .xdqnt4 _ _ _ _ => true
  | .xdqnt8 _ _ _ _ => true
  | .xqmx _ _ _ _ => true
  | .xdqmx _ _ _ _ => true
  | .xamax _ _ _ _ => true
  | .xrngb _ => true
  | .xrngu _ => true
  | .xrngk _ _ _ _ => true
  | .xrngj _ _ _ => true
  | .wshf _ _ _ _ => true
  | .wshfi _ _ _ _ => true
  | .wxor _ _ _ _ => true
  | .wup _ _ _ _ => true
  | .wdn _ _ _ _ => true
  | .wbc _ _ _ => true
  | .wscan _ _ _ => true
  | .wscanx _ _ _ => true
  | .wscanf _ _ _ => true
  | .wscanmin _ _ _ => true
  | .wscanmax _ _ _ => true
  | .wred _ _ _ => true
  | .wredf _ _ _ => true
  | .wredmin _ _ _ => true
  | .wredmax _ _ _ => true
  | .wredand _ _ _ => true
  | .wredor _ _ _ => true
  | .wvote _ _ _ => true
  | .wany _ _ _ => true
  | .wall _ _ _ => true
  | .wcomp _ _ _ _ => true
  | .wmaxi _ _ _ _ => true
  | .wflg _ _ => true
  | .wflclr _ => true
  | .ldb _ _ _ _ => true
  | .ldbu _ _ _ _ => true
  | .ldh _ _ _ _ => true
  | .ldhu _ _ _ _ => true
  | .ldw _ _ _ _ => true
  | .ldd _ _ _ _ => true
  | .ldq _ _ _ _ => true
  | .sldw _ _ _ _ => true
  | .sldd _ _ _ _ => true
  | .sldq _ _ _ _ => true
  | .stb _ _ _ _ => true
  | .sth _ _ _ _ => true
  | .stw _ _ _ _ => true
  | .std _ _ _ _ => true
  | .stq _ _ _ _ => true
  | .st64 _ _ _ _ => true
  | .sstw _ _ _ _ => true
  | .sstd _ _ _ _ => true
  | .lldw _ _ _ => true
  | .lldq _ _ _ => true
  | .lstw _ _ _ => true
  | .lstq _ _ _ => true
  | .lpush _ _ _ => true
  | .lpop _ _ _ => true
  | .laadd _ _ _ => true
  | .lamin _ _ _ => true
  | .lamax _ _ _ => true
  | .laxch _ _ _ => true
  | .aadd _ _ _ _ => true
  | .amin _ _ _ _ => true
  | .amax _ _ _ _ => true
  | .aand _ _ _ _ => true
  | .aor _ _ _ _ => true
  | .axor _ _ _ _ => true
  | .axch _ _ _ _ => true
  | .acas _ _ _ _ => true
  | .afadd _ _ _ _ => true
  | .afmin _ _ _ _ => true
  | .afmax _ _ _ _ => true
  | .amxi _ _ _ _ => true
  | .acq => true
  | .rel => true
  | .acqrel => true
  | .fsmp => true
  | .fbvh => true
  | .ffar _ _ => true
  | .pref _ _ _ => true
  | .invl _ _ => true
  | .esta _ _ _ _ => true
  | .estw _ _ _ _ => true
  | .estg _ _ _ _ => true
  | .emrg _ _ _ _ => true
  | .eld _ _ _ _ => true
  | .eldr _ _ _ _ => true
  | .egen _ _ _ _ => true
  | .ewatch _ _ _ => true
  | .eunw _ _ => true
  | .cmpt _ _ _ _ => true
  | .clda _ _ _ _ => true
  | .cflush _ _ _ => true
  | .cclr _ _ _ => true
  | .crep _ _ _ _ => true
  | .cbind _ _ _ => true
  | .bar _ => true
  | .bara _ => true
  | .barw _ => true
  | .barx _ _ => true
  | .oapp _ _ _ => true
  | .odecl _ => true
  | .lget => true
  | .lpass => true
  | .smpp _ _ _ _ => true
  | .smpb _ _ _ _ => true
  | .smpt _ _ _ _ => true
  | .smpa _ _ _ _ => true
  | .smpg _ _ _ _ => true
  | .sfet _ _ _ _ => true
  | .slat _ _ _ _ => true
  | .sqry _ _ _ _ => true
  | .dtbind _ _ => true
  | .dtunb _ => true
  | .dtqry _ => true
  | .trace _ _ _ => true
  | .tracea _ _ _ => true
  | .tcall _ _ _ => true
  | .trres _ => true
  | .rdraw _ _ => true
  | .rwait _ => true
  | .wgenq _ _ _ => true
  | .launch _ _ => true
  | .wgfin => true
  | .mldf _ _ => true
  | .mma _ _ _ => true
  | .mmaz _ _ _ => true
  | .mpost _ _ _ _ => true
  | .mwait _ _ => true
  | .mdrain _ _ _ => true
  | .mfill _ _ _ => true
  | .mvnb _ _ => true
  | .mvwait => true
  | .hload _ _ _ _ => true
  | .hstore _ _ _ _ => true
  | .hmcast _ _ _ _ => true
  | .hpref _ _ _ _ => true
  | .hbatch _ => true
  | .waitb _ => true
  | .hqry _ _ _ _ => true
  | .trap _ => true
  | .rte => true
  | .scall _ => true
  | .ctlr _ _ => true
  | .ctlw _ _ => true
  | .bkpt _ => true
  | .exit => true
  | .rdtime _ => true
  | .const _ => true
  | .nonInstruction _ => false
  | .longLatencyReturn _ _ _ => false
  | .joinArrive _ _ => false
  | .splitLeave _ _ => false
  | .workgroupRetire _ => false
  | .yieldExpiry _ _ => false
  | .progressPromote _ _ => false
  | .writeQueueEnter _ => false
  | .storeReachHome _ _ => false
  | .revoke _ _ _ => false
  | .storeAck _ _ => false
  | .loadReturn _ _ _ _ => false
  | .atomicApply _ _ => false
  | .orderGateAdmit _ _ => false
  | .orderGateTimeout _ _ => false
  | .faultMap _ _ => false
  | .faultDeny _ => false
  | .faultPoison _ => false
  | .faultRetry _ => false
  | .farStoreAck _ _ => false
  | .farTimeout _ _ _ => false
  | .cxlLinkLoss _ => false
  | .poisonTrapDeferred _ _ => false
  | .softError _ _ => false
  | .rangeLockRelease _ _ => false
  | .estContributeApply _ _ => false
  | .estMergeApply _ _ => false
  | .estGenApply _ _ => false
  | .estdropAck _ => false
  | .watchSweep _ => false
  | .cmpTermArrive _ _ => false
  | .crucibleHoldExpire _ => false
  | .matGrant _ _ => false
  | .matEntryComplete _ _ => false
  | .mvnbComplete _ _ => false
  | .hamperOpStart _ _ => false
  | .hamperOpComplete _ _ => false
  | .hmcastShareLand _ _ _ => false
  | .traceLaneFinish _ _ => false
  | .traceComplete _ => false
  | .rasterTriangle _ => false
  | .rasterTileRecord _ _ => false
  | .nodeGroupTimer _ _ => false
  | .workgroupPlace => false
  | .shadowSwap _ _ _ => false
  | .shadowSaveTimeout _ _ => false
  | .fullSave _ _ => false
  | .restore _ => false
  | .ladleHandon _ => false
  | .ladleVisitTimeout _ => false
  | .oappGrant _ _ => false
  | .scallAnswer _ _ _ => false
  | .bkptResume _ _ => false
  | .clmBankModeWrite _ _ => false
  | .clmBankRefusedClear _ _ => false
  | .loopCounterWrite _ _ => false
  | .hstatClear _ => false
  | .sstatClear _ _ => false
  | .mstatClear _ => false
  | .trapStateWrite _ _ => false
  | .bandRise _ _ _ => false
  | .bandFall _ _ _ => false
  | .soakStable => false
  | .trainComplete => false
  | .trainFail => false
  | .excursionClear => false
  | .flaskCool => false
  | .flaskWarm => false
  | .flaskResume => false
  | .flaskService => false
  | .excursionClr => false
  | .stackwinWrite _ => false
  | .cxlDownClear _ => false
  | .platformRegisterWrite _ _ => false
  | .dutyRequestAnswer _ => false
  | .refreshRow _ _ => false
  | .scrubPassStart _ => false
  | .scrubSector _ _ _ => false
  | .scrubEscalate _ _ => false
  | .deviceReset _ _ => false
  | .hostLoad _ _ _ _ _ => false
  | .hostUnload _ _ _ => false
  | .hostLaunch _ _ _ => false
  | .hostAlloc _ _ _ _ _ => false
  | .hostCopy _ _ _ => false
  | .hostAttest _ _ => false
  | .hostEvents _ _ => false
  | .hostFree _ _ _ _ _ => false
  | .hostUnknownRequest _ _ => false
  | .decroTransferArrive _ _ _ => false
  | .decroLinkLoss _ => false
  | .loadComplete _ => false
  | .regionTeardown _ => false
  | .runEnd _ => false
  | .pageRetire _ _ _ => false
  | .cxlLinkUp _ => false
  | .rowBinning _ _ _ => false
  | .bloomFilterLoad _ _ _ => false

end Sys2Proof
end

