-- ==== Sys2Proof/Decode.lean ====
section
/-! DEFINITION. The decoder and the encoder of instruction words (R16, R20, R21, R26, R27, R29).

The decoder is total: each 32-bit word is an instruction with its chain bit and switch marker, or is rejected by the
name of the rule it breaks. Some definitions are noncomputable for one reason only: Lean's code generator cannot build
an object whose constructor number is above 243; the kernel evaluates them all. What a rejected word does at run time (the ILL trap of R29) is the machine's business. -/

namespace Sys2Proof

/-- Why a word is not an instruction (R29). -/
inductive Reject where
  /-- A major opcode that R27 reserves. -/
  | reservedOpcode
  /-- An FN that R27 leaves unassigned. -/
  | unassignedFn
  /-- A reserved value in a used field (R24, R26 and the form's own limits). -/
  | reservedField
  /-- A bit that the form does not use is set (R26). -/
  | mustBeZero
  /-- Fewer bytes than a word. -/
  | short
  deriving DecidableEq, Repr

/-- A word as the decoder reads it: an instruction with its C and K bits (R16), or a rejection. -/
inductive Decoded where
  | word (c k : Bool) (i : Instr)
  | reject (r : Reject)
  deriving DecidableEq, Repr

/-- The field of `n` bits whose lowest bit is bit `lo`. -/
def fld (w : Word) (lo n : Nat) : BitVec n := w.extractLsb' lo n

/-- The instruction `i`, if the must-be-zero bits `x` are zero. -/
def zero {n : Nat} (x : BitVec n) (i : Instr) : Except Reject Instr :=
  if x = 0 then .ok i else .error .mustBeZero

/-- Opcode 0x00 FLOW (R27). -/
def decodeFlow (w : Word) : Except Reject Instr :=
  match (fld w 19 5).toNat with
  | 0 => zero (fld w 0 19) .nop
  | 1 => .ok (.mjoin (fld w 0 19))
  | 2 => zero (fld w 0 19) .join
  | 3 => zero (fld w 0 19) .ret
  | 4 => zero (fld w 6 13) (.jmpr (fld w 0 6))
  | 5 => zero (fld w 13 6) (.loop (fld w 7 6) (fld w 0 7))
  | 6 => .ok (.loopi (fld w 7 12) (fld w 0 7))
  | 7 => zero (fld w 0 19) .lbrk
  | 8 => .ok (.yield (fld w 0 19))
  | 9 => zero (fld w 4 15) (.waitx (fld w 0 4))
  | _ => .error .unassignedFn

/-- Opcode 0x04 SALU (R27). -/
def decodeSalu (w : Word) : Except Reject Instr :=
  match (fld w 0 5).toNat with
  | 0 => .ok (.sadd (fld w 18 6) (fld w 12 6) (fld w 6 6) (w.getLsbD 5))
  | 1 => .ok (.ssub (fld w 18 6) (fld w 12 6) (fld w 6 6) (w.getLsbD 5))
  | 2 => .ok (.smul (fld w 18 6) (fld w 12 6) (fld w 6 6) (w.getLsbD 5))
  | 3 => .ok (.smulh (fld w 18 6) (fld w 12 6) (fld w 6 6) (w.getLsbD 5))
  | 4 => .ok (.sdiv (fld w 18 6) (fld w 12 6) (fld w 6 6) (w.getLsbD 5))
  | 5 => .ok (.sdivu (fld w 18 6) (fld w 12 6) (fld w 6 6) (w.getLsbD 5))
  | 6 => .ok (.srem (fld w 18 6) (fld w 12 6) (fld w 6 6) (w.getLsbD 5))
  | 7 => .ok (.sand (fld w 18 6) (fld w 12 6) (fld w 6 6) (w.getLsbD 5))
  | 8 => .ok (.sor (fld w 18 6) (fld w 12 6) (fld w 6 6) (w.getLsbD 5))
  | 9 => .ok (.sxor (fld w 18 6) (fld w 12 6) (fld w 6 6) (w.getLsbD 5))
  | 10 => .ok (.sshl (fld w 18 6) (fld w 12 6) (fld w 6 6) (w.getLsbD 5))
  | 11 => .ok (.sshr (fld w 18 6) (fld w 12 6) (fld w 6 6) (w.getLsbD 5))
  | 12 => .ok (.ssra (fld w 18 6) (fld w 12 6) (fld w 6 6) (w.getLsbD 5))
  | 13 => .ok (.sshli (fld w 18 6) (fld w 12 6) (fld w 6 6) (w.getLsbD 5))
  | 14 => .ok (.sshri (fld w 18 6) (fld w 12 6) (fld w 6 6) (w.getLsbD 5))
  | 15 => .ok (.ssrai (fld w 18 6) (fld w 12 6) (fld w 6 6) (w.getLsbD 5))
  | 16 => .ok (.smin (fld w 18 6) (fld w 12 6) (fld w 6 6) (w.getLsbD 5))
  | 17 => .ok (.smax (fld w 18 6) (fld w 12 6) (fld w 6 6) (w.getLsbD 5))
  | 18 => .ok (.sceq (fld w 18 6) (fld w 12 6) (fld w 6 6) (w.getLsbD 5))
  | 19 => .ok (.sclt (fld w 18 6) (fld w 12 6) (fld w 6 6) (w.getLsbD 5))
  | 20 => .ok (.scltu (fld w 18 6) (fld w 12 6) (fld w 6 6) (w.getLsbD 5))
  | 21 => .ok (.ssel (fld w 18 6) (fld w 12 6) (fld w 6 6) (w.getLsbD 5))
  | 22 => zero (fld w 6 6) (.sclz (fld w 18 6) (fld w 12 6) (w.getLsbD 5))
  | 23 => zero (fld w 6 6) (.spop (fld w 18 6) (fld w 12 6) (w.getLsbD 5))
  | 24 => zero (fld w 6 6) (.smov (fld w 18 6) (fld w 12 6) (w.getLsbD 5))
  | _ => .error .unassignedFn

/-- Opcode 0x08 VINT (R27). -/
def decodeVint (w : Word) : Except Reject Instr :=
  match (fld w 0 5).toNat with
  | 0 => .ok (.vadd (fld w 18 6) (fld w 12 6) (fld w 6 6) (w.getLsbD 5))
  | 1 => .ok (.vsub (fld w 18 6) (fld w 12 6) (fld w 6 6) (w.getLsbD 5))
  | 2 => .ok (.vmul (fld w 18 6) (fld w 12 6) (fld w 6 6) (w.getLsbD 5))
  | 3 => .ok (.vmulh (fld w 18 6) (fld w 12 6) (fld w 6 6) (w.getLsbD 5))
  | 4 => .ok (.vmad (fld w 18 6) (fld w 12 6) (fld w 6 6) (w.getLsbD 5))
  | 5 => .ok (.vand (fld w 18 6) (fld w 12 6) (fld w 6 6) (w.getLsbD 5))
  | 6 => .ok (.vor (fld w 18 6) (fld w 12 6) (fld w 6 6) (w.getLsbD 5))
  | 7 => .ok (.vxor (fld w 18 6) (fld w 12 6) (fld w 6 6) (w.getLsbD 5))
  | 8 => zero (fld w 6 6) (.vnot (fld w 18 6) (fld w 12 6) (w.getLsbD 5))
  | 9 => .ok (.vshl (fld w 18 6) (fld w 12 6) (fld w 6 6) (w.getLsbD 5))
  | 10 => .ok (.vshr (fld w 18 6) (fld w 12 6) (fld w 6 6) (w.getLsbD 5))
  | 11 => .ok (.vsra (fld w 18 6) (fld w 12 6) (fld w 6 6) (w.getLsbD 5))
  | 12 => .ok (.vshli (fld w 18 6) (fld w 12 6) (fld w 6 6) (w.getLsbD 5))
  | 13 => .ok (.vshri (fld w 18 6) (fld w 12 6) (fld w 6 6) (w.getLsbD 5))
  | 14 => .ok (.vsrai (fld w 18 6) (fld w 12 6) (fld w 6 6) (w.getLsbD 5))
  | 15 => .ok (.vmin (fld w 18 6) (fld w 12 6) (fld w 6 6) (w.getLsbD 5))
  | 16 => .ok (.vmax (fld w 18 6) (fld w 12 6) (fld w 6 6) (w.getLsbD 5))
  | 17 => zero (fld w 6 6) (.vabs (fld w 18 6) (fld w 12 6) (w.getLsbD 5))
  | 18 => zero (fld w 6 6) (.vneg (fld w 18 6) (fld w 12 6) (w.getLsbD 5))
  | 19 => zero (fld w 6 6) (.vclz (fld w 18 6) (fld w 12 6) (w.getLsbD 5))
  | 20 => zero (fld w 6 6) (.vpop (fld w 18 6) (fld w 12 6) (w.getLsbD 5))
  | 21 => zero (fld w 6 6) (.vmov (fld w 18 6) (fld w 12 6) (w.getLsbD 5))
  | 22 => .ok (.vselz (fld w 18 6) (fld w 12 6) (fld w 6 6) (w.getLsbD 5))
  | _ => .error .unassignedFn

/-- Opcode 0x0C VCMP (R27). -/
def decodeVcmp (w : Word) : Except Reject Instr :=
  match (fld w 0 5).toNat with
  | 0 => .ok (.vceq (fld w 18 6) (fld w 12 6) (fld w 6 6) (w.getLsbD 5))
  | 1 => .ok (.vcne (fld w 18 6) (fld w 12 6) (fld w 6 6) (w.getLsbD 5))
  | 2 => .ok (.vclt (fld w 18 6) (fld w 12 6) (fld w 6 6) (w.getLsbD 5))
  | 3 => .ok (.vcle (fld w 18 6) (fld w 12 6) (fld w 6 6) (w.getLsbD 5))
  | 4 => .ok (.vcltu (fld w 18 6) (fld w 12 6) (fld w 6 6) (w.getLsbD 5))
  | 5 => .ok (.vcleu (fld w 18 6) (fld w 12 6) (fld w 6 6) (w.getLsbD 5))
  | 6 => .ok (.vfceq (fld w 18 6) (fld w 12 6) (fld w 6 6) (w.getLsbD 5))
  | 7 => .ok (.vfcne (fld w 18 6) (fld w 12 6) (fld w 6 6) (w.getLsbD 5))
  | 8 => .ok (.vfclt (fld w 18 6) (fld w 12 6) (fld w 6 6) (w.getLsbD 5))
  | 9 => .ok (.vfcle (fld w 18 6) (fld w 12 6) (fld w 6 6) (w.getLsbD 5))
  | 10 => .ok (.vfcun (fld w 18 6) (fld w 12 6) (fld w 6 6) (w.getLsbD 5))
  | _ => .error .unassignedFn

/-- Opcode 0x0D VDOT (R27). -/
def decodeVdot (w : Word) : Except Reject Instr :=
  match (fld w 0 5).toNat with
  | 0 => .ok (.vdotb (fld w 18 6) (fld w 12 6) (fld w 6 6) (w.getLsbD 5))
  | 1 => .ok (.vdotbs (fld w 18 6) (fld w 12 6) (fld w 6 6) (w.getLsbD 5))
  | 2 => .ok (.vdotub (fld w 18 6) (fld w 12 6) (fld w 6 6) (w.getLsbD 5))
  | 3 => .ok (.vdotubs (fld w 18 6) (fld w 12 6) (fld w 6 6) (w.getLsbD 5))
  | 4 => .ok (.vdotn (fld w 18 6) (fld w 12 6) (fld w 6 6) (w.getLsbD 5))
  | 5 => .ok (.vdotns (fld w 18 6) (fld w 12 6) (fld w 6 6) (w.getLsbD 5))
  | 6 => .ok (.vdoth (fld w 18 6) (fld w 12 6) (fld w 6 6) (w.getLsbD 5))
  | 7 => .ok (.vdotbf (fld w 18 6) (fld w 12 6) (fld w 6 6) (w.getLsbD 5))
  | _ => .error .unassignedFn

/-- Opcode 0x0E VF32 (R27). -/
def decodeVf32 (w : Word) : Except Reject Instr :=
  match (fld w 0 5).toNat with
  | 0 => .ok (.vfadd (fld w 18 6) (fld w 12 6) (fld w 6 6) (w.getLsbD 5))
  | 1 => .ok (.vfsub (fld w 18 6) (fld w 12 6) (fld w 6 6) (w.getLsbD 5))
  | 2 => .ok (.vfmul (fld w 18 6) (fld w 12 6) (fld w 6 6) (w.getLsbD 5))
  | 3 => .ok (.vfma (fld w 18 6) (fld w 12 6) (fld w 6 6) (w.getLsbD 5))
  | 4 => .ok (.vfms (fld w 18 6) (fld w 12 6) (fld w 6 6) (w.getLsbD 5))
  | 5 => .ok (.vfnma (fld w 18 6) (fld w 12 6) (fld w 6 6) (w.getLsbD 5))
  | 6 => .ok (.vfmin (fld w 18 6) (fld w 12 6) (fld w 6 6) (w.getLsbD 5))
  | 7 => .ok (.vfmax (fld w 18 6) (fld w 12 6) (fld w 6 6) (w.getLsbD 5))
  | 8 => .ok (.vfminn (fld w 18 6) (fld w 12 6) (fld w 6 6) (w.getLsbD 5))
  | 9 => .ok (.vfmaxn (fld w 18 6) (fld w 12 6) (fld w 6 6) (w.getLsbD 5))
  | 10 => zero (fld w 6 6) (.vfabs (fld w 18 6) (fld w 12 6) (w.getLsbD 5))
  | 11 => zero (fld w 6 6) (.vfneg (fld w 18 6) (fld w 12 6) (w.getLsbD 5))
  | 12 => .ok (.vfcps (fld w 18 6) (fld w 12 6) (fld w 6 6) (w.getLsbD 5))
  | 13 => zero (fld w 6 6) (.vfrnd (fld w 18 6) (fld w 12 6) (w.getLsbD 5))
  | 14 => zero (fld w 6 6) (.vftrc (fld w 18 6) (fld w 12 6) (w.getLsbD 5))
  | 15 => zero (fld w 6 6) (.vfclass (fld w 18 6) (fld w 12 6) (w.getLsbD 5))
  | _ => .error .unassignedFn

/-- Opcode 0x0F VF16 (R27). -/
def decodeVf16 (w : Word) : Except Reject Instr :=
  match (fld w 0 5).toNat with
  | 0 => .ok (.hadd (fld w 18 6) (fld w 12 6) (fld w 6 6) (w.getLsbD 5))
  | 1 => .ok (.hsub (fld w 18 6) (fld w 12 6) (fld w 6 6) (w.getLsbD 5))
  | 2 => .ok (.hmul (fld w 18 6) (fld w 12 6) (fld w 6 6) (w.getLsbD 5))
  | 3 => .ok (.hfma (fld w 18 6) (fld w 12 6) (fld w 6 6) (w.getLsbD 5))
  | 4 => .ok (.hmin (fld w 18 6) (fld w 12 6) (fld w 6 6) (w.getLsbD 5))
  | 5 => .ok (.hmax (fld w 18 6) (fld w 12 6) (fld w 6 6) (w.getLsbD 5))
  | 6 => .ok (.badd (fld w 18 6) (fld w 12 6) (fld w 6 6) (w.getLsbD 5))
  | 7 => .ok (.bmul (fld w 18 6) (fld w 12 6) (fld w 6 6) (w.getLsbD 5))
  | 8 => .ok (.bfma (fld w 18 6) (fld w 12 6) (fld w 6 6) (w.getLsbD 5))
  | _ => .error .unassignedFn

/-- Opcode 0x11 XSF (R27). -/
def decodeXsf (w : Word) : Except Reject Instr :=
  match (fld w 0 5).toNat with
  | 0 => zero (fld w 6 6) (.xrcp (fld w 18 6) (fld w 12 6) (w.getLsbD 5))
  | 1 => zero (fld w 6 6) (.xrsq (fld w 18 6) (fld w 12 6) (w.getLsbD 5))
  | 2 => zero (fld w 6 6) (.xsqrt (fld w 18 6) (fld w 12 6) (w.getLsbD 5))
  | 3 => zero (fld w 6 6) (.xexp2 (fld w 18 6) (fld w 12 6) (w.getLsbD 5))
  | 4 => zero (fld w 6 6) (.xlog2 (fld w 18 6) (fld w 12 6) (w.getLsbD 5))
  | 5 => zero (fld w 6 6) (.xsin (fld w 18 6) (fld w 12 6) (w.getLsbD 5))
  | 6 => zero (fld w 6 6) (.xcos (fld w 18 6) (fld w 12 6) (w.getLsbD 5))
  | 7 => zero (fld w 6 6) (.xtanh (fld w 18 6) (fld w 12 6) (w.getLsbD 5))
  | 8 => .ok (.xdiv (fld w 18 6) (fld w 12 6) (fld w 6 6) (w.getLsbD 5))
  | _ => .error .unassignedFn

/-- Opcode 0x12 XPACK (R27). -/
def decodeXpack (w : Word) : Except Reject Instr :=
  match (fld w 0 5).toNat with
  | 0 => zero (fld w 6 6) (.xpack6 (fld w 18 6) (fld w 12 6) (w.getLsbD 5))
  | 1 => zero (fld w 6 6) (.xunpk6 (fld w 18 6) (fld w 12 6) (w.getLsbD 5))
  | 2 => .ok (.xpack4 (fld w 18 6) (fld w 12 6) (fld w 6 6) (w.getLsbD 5))
  | 3 => zero (fld w 6 6) (.xunpk4 (fld w 18 6) (fld w 12 6) (w.getLsbD 5))
  | 4 => .ok (.xpackh (fld w 18 6) (fld w 12 6) (fld w 6 6) (w.getLsbD 5))
  | 5 => .ok (.xpackb (fld w 18 6) (fld w 12 6) (fld w 6 6) (w.getLsbD 5))
  | _ => .error .unassignedFn

/-- Opcode 0x13 XQNT (R27). -/
def decodeXqnt (w : Word) : Except Reject Instr :=
  match (fld w 0 5).toNat with
  | 0 => .ok (.xqnt4 (fld w 18 6) (fld w 12 6) (fld w 6 6) (w.getLsbD 5))
  | 1 => .ok (.xqnt8 (fld w 18 6) (fld w 12 6) (fld w 6 6) (w.getLsbD 5))
  | 2 => .ok (.xdqnt4 (fld w 18 6) (fld w 12 6) (fld w 6 6) (w.getLsbD 5))
  | 3 => .ok (.xdqnt8 (fld w 18 6) (fld w 12 6) (fld w 6 6) (w.getLsbD 5))
  | 4 => .ok (.xqmx (fld w 18 6) (fld w 12 6) (fld w 6 6) (w.getLsbD 5))
  | 5 => .ok (.xdqmx (fld w 18 6) (fld w 12 6) (fld w 6 6) (w.getLsbD 5))
  | 6 => .ok (.xamax (fld w 18 6) (fld w 12 6) (fld w 6 6) (w.getLsbD 5))
  | _ => .error .unassignedFn

/-- Opcode 0x14 XRNG (R27). -/
def decodeXrng (w : Word) : Except Reject Instr :=
  match (fld w 0 5).toNat with
  | 0 => zero (fld w 5 13) (.xrngb (fld w 18 6))
  | 1 => zero (fld w 5 13) (.xrngu (fld w 18 6))
  | 2 => .ok (.xrngk (fld w 18 6) (fld w 12 6) (fld w 6 6) (w.getLsbD 5))
  | 3 => zero (fld w 18 6) (.xrngj (fld w 12 6) (fld w 6 6) (w.getLsbD 5))
  | _ => .error .unassignedFn

/-- Opcode 0x15 WLANE (R27). -/
def decodeWlane (w : Word) : Except Reject Instr :=
  match (fld w 0 5).toNat with
  | 0 => .ok (.wshf (fld w 18 6) (fld w 12 6) (fld w 6 6) (w.getLsbD 5))
  | 1 => .ok (.wshfi (fld w 18 6) (fld w 12 6) (fld w 6 6) (w.getLsbD 5))
  | 2 => .ok (.wxor (fld w 18 6) (fld w 12 6) (fld w 6 6) (w.getLsbD 5))
  | 3 => .ok (.wup (fld w 18 6) (fld w 12 6) (fld w 6 6) (w.getLsbD 5))
  | 4 => .ok (.wdn (fld w 18 6) (fld w 12 6) (fld w 6 6) (w.getLsbD 5))
  | 5 => zero (fld w 6 6) (.wbc (fld w 18 6) (fld w 12 6) (w.getLsbD 5))
  | 6 => zero (fld w 6 6) (.wscan (fld w 18 6) (fld w 12 6) (w.getLsbD 5))
  | 7 => zero (fld w 6 6) (.wscanx (fld w 18 6) (fld w 12 6) (w.getLsbD 5))
  | 8 => zero (fld w 6 6) (.wscanf (fld w 18 6) (fld w 12 6) (w.getLsbD 5))
  | 9 => zero (fld w 6 6) (.wscanmin (fld w 18 6) (fld w 12 6) (w.getLsbD 5))
  | 10 => zero (fld w 6 6) (.wscanmax (fld w 18 6) (fld w 12 6) (w.getLsbD 5))
  | 11 => zero (fld w 6 6) (.wred (fld w 18 6) (fld w 12 6) (w.getLsbD 5))
  | 12 => zero (fld w 6 6) (.wredf (fld w 18 6) (fld w 12 6) (w.getLsbD 5))
  | 13 => zero (fld w 6 6) (.wredmin (fld w 18 6) (fld w 12 6) (w.getLsbD 5))
  | 14 => zero (fld w 6 6) (.wredmax (fld w 18 6) (fld w 12 6) (w.getLsbD 5))
  | 15 => zero (fld w 6 6) (.wredand (fld w 18 6) (fld w 12 6) (w.getLsbD 5))
  | 16 => zero (fld w 6 6) (.wredor (fld w 18 6) (fld w 12 6) (w.getLsbD 5))
  | 17 => zero (fld w 6 6) (.wvote (fld w 18 6) (fld w 12 6) (w.getLsbD 5))
  | 18 => zero (fld w 6 6) (.wany (fld w 18 6) (fld w 12 6) (w.getLsbD 5))
  | 19 => zero (fld w 6 6) (.wall (fld w 18 6) (fld w 12 6) (w.getLsbD 5))
  | 20 => .ok (.wcomp (fld w 18 6) (fld w 12 6) (fld w 6 6) (w.getLsbD 5))
  | 21 => .ok (.wmaxi (fld w 18 6) (fld w 12 6) (fld w 6 6) (w.getLsbD 5))
  | 22 => zero (fld w 12 6 ++ fld w 5 1) (.wflg (fld w 18 6) (fld w 6 6))
  | 23 => zero (fld w 11 13 ++ fld w 5 1) (.wflclr (fld w 6 5))
  | _ => .error .unassignedFn

/-- Opcode 0x18 LD (R27). -/
def decodeLd (w : Word) : Except Reject Instr :=
  match (fld w 0 5).toNat with
  | 0 => .ok (.ldb (fld w 18 6) (fld w 12 6) (fld w 7 5) (fld w 5 2))
  | 1 => .ok (.ldbu (fld w 18 6) (fld w 12 6) (fld w 7 5) (fld w 5 2))
  | 2 => .ok (.ldh (fld w 18 6) (fld w 12 6) (fld w 7 5) (fld w 5 2))
  | 3 => .ok (.ldhu (fld w 18 6) (fld w 12 6) (fld w 7 5) (fld w 5 2))
  | 4 => .ok (.ldw (fld w 18 6) (fld w 12 6) (fld w 7 5) (fld w 5 2))
  | 5 => .ok (.ldd (fld w 18 6) (fld w 12 6) (fld w 7 5) (fld w 5 2))
  | 6 => .ok (.ldq (fld w 18 6) (fld w 12 6) (fld w 7 5) (fld w 5 2))
  | 7 => .ok (.sldw (fld w 18 6) (fld w 12 6) (fld w 7 5) (fld w 5 2))
  | 8 => .ok (.sldd (fld w 18 6) (fld w 12 6) (fld w 7 5) (fld w 5 2))
  | 9 => .ok (.sldq (fld w 18 6) (fld w 12 6) (fld w 7 5) (fld w 5 2))
  | _ => .error .unassignedFn

/-- Opcode 0x19 ST (R27). -/
def decodeSt (w : Word) : Except Reject Instr :=
  match (fld w 0 5).toNat with
  | 0 => .ok (.stb (fld w 18 6) (fld w 12 6) (fld w 7 5) (fld w 5 2))
  | 1 => .ok (.sth (fld w 18 6) (fld w 12 6) (fld w 7 5) (fld w 5 2))
  | 2 => .ok (.stw (fld w 18 6) (fld w 12 6) (fld w 7 5) (fld w 5 2))
  | 3 => .ok (.std (fld w 18 6) (fld w 12 6) (fld w 7 5) (fld w 5 2))
  | 4 => .ok (.stq (fld w 18 6) (fld w 12 6) (fld w 7 5) (fld w 5 2))
  | 5 => .ok (.st64 (fld w 18 6) (fld w 12 6) (fld w 7 5) (fld w 5 2))
  | 6 => .ok (.sstw (fld w 18 6) (fld w 12 6) (fld w 7 5) (fld w 5 2))
  | 7 => .ok (.sstd (fld w 18 6) (fld w 12 6) (fld w 7 5) (fld w 5 2))
  | _ => .error .unassignedFn

/-- Opcode 0x1A LCL (R27). -/
def decodeLcl (w : Word) : Except Reject Instr :=
  match (fld w 0 5).toNat with
  | 0 => zero (fld w 5 2) (.lldw (fld w 18 6) (fld w 12 6) (fld w 7 5))
  | 1 => zero (fld w 5 2) (.lldq (fld w 18 6) (fld w 12 6) (fld w 7 5))
  | 2 => zero (fld w 5 2) (.lstw (fld w 18 6) (fld w 12 6) (fld w 7 5))
  | 3 => zero (fld w 5 2) (.lstq (fld w 18 6) (fld w 12 6) (fld w 7 5))
  | 4 => zero (fld w 5 2) (.lpush (fld w 18 6) (fld w 12 6) (fld w 7 5))
  | 5 => zero (fld w 5 2) (.lpop (fld w 18 6) (fld w 12 6) (fld w 7 5))
  | 6 => zero (fld w 5 2) (.laadd (fld w 18 6) (fld w 12 6) (fld w 7 5))
  | 7 => zero (fld w 5 2) (.lamin (fld w 18 6) (fld w 12 6) (fld w 7 5))
  | 8 => zero (fld w 5 2) (.lamax (fld w 18 6) (fld w 12 6) (fld w 7 5))
  | 9 => zero (fld w 5 2) (.laxch (fld w 18 6) (fld w 12 6) (fld w 7 5))
  | _ => .error .unassignedFn

/-- Opcode 0x1B ATOM (R27). -/
def decodeAtom (w : Word) : Except Reject Instr :=
  match (fld w 0 5).toNat with
  | 0 => .ok (.aadd (fld w 18 6) (fld w 12 6) (fld w 7 5) (fld w 5 2))
  | 1 => .ok (.amin (fld w 18 6) (fld w 12 6) (fld w 7 5) (fld w 5 2))
  | 2 => .ok (.amax (fld w 18 6) (fld w 12 6) (fld w 7 5) (fld w 5 2))
  | 3 => .ok (.aand (fld w 18 6) (fld w 12 6) (fld w 7 5) (fld w 5 2))
  | 4 => .ok (.aor (fld w 18 6) (fld w 12 6) (fld w 7 5) (fld w 5 2))
  | 5 => .ok (.axor (fld w 18 6) (fld w 12 6) (fld w 7 5) (fld w 5 2))
  | 6 => .ok (.axch (fld w 18 6) (fld w 12 6) (fld w 7 5) (fld w 5 2))
  | 7 => .ok (.acas (fld w 18 6) (fld w 12 6) (fld w 7 5) (fld w 5 2))
  | 8 => .ok (.afadd (fld w 18 6) (fld w 12 6) (fld w 7 5) (fld w 5 2))
  | 9 => .ok (.afmin (fld w 18 6) (fld w 12 6) (fld w 7 5) (fld w 5 2))
  | 10 => .ok (.afmax (fld w 18 6) (fld w 12 6) (fld w 7 5) (fld w 5 2))
  | 11 => .ok (.amxi (fld w 18 6) (fld w 12 6) (fld w 7 5) (fld w 5 2))
  | _ => .error .unassignedFn

/-- Opcode 0x1C ORD (R27). -/
def decodeOrd (w : Word) : Except Reject Instr :=
  match (fld w 19 5).toNat with
  | 0 => zero (fld w 0 19) .acq
  | 1 => zero (fld w 0 19) .rel
  | 2 => zero (fld w 0 19) .acqrel
  | 3 => zero (fld w 0 19) .fsmp
  | 4 => zero (fld w 0 19) .fbvh
  | 5 => zero (fld w 15 4 ++ fld w 5 2) (.ffar (fld w 0 5) (fld w 7 8))
  | 6 => zero (fld w 15 4) (.pref (fld w 5 2) (fld w 0 5) (fld w 7 8))
  | 7 => zero (fld w 15 4 ++ fld w 5 2) (.invl (fld w 0 5) (fld w 7 8))
  | _ => .error .unassignedFn

/-- Opcode 0x1D EST (R27). -/
def decodeEst (w : Word) : Except Reject Instr :=
  match (fld w 0 5).toNat with
  | 0 => .ok (.esta (fld w 18 6) (fld w 12 6) (fld w 7 5) (fld w 5 2))
  | 1 => .ok (.estw (fld w 18 6) (fld w 12 6) (fld w 7 5) (fld w 5 2))
  | 2 => .ok (.estg (fld w 18 6) (fld w 12 6) (fld w 7 5) (fld w 5 2))
  | 3 => .ok (.emrg (fld w 18 6) (fld w 12 6) (fld w 7 5) (fld w 5 2))
  | 4 => .ok (.eld (fld w 18 6) (fld w 12 6) (fld w 7 5) (fld w 5 2))
  | 5 => .ok (.eldr (fld w 18 6) (fld w 12 6) (fld w 7 5) (fld w 5 2))
  | 6 => .ok (.egen (fld w 18 6) (fld w 12 6) (fld w 7 5) (fld w 5 2))
  | 7 => zero (fld w 5 2) (.ewatch (fld w 18 6) (fld w 12 6) (fld w 7 5))
  | 8 => zero (fld w 5 7) (.eunw (fld w 18 6) (fld w 12 6))
  | _ => .error .unassignedFn

/-- Opcode 0x1E CMPS (R27). -/
def decodeCmps (w : Word) : Except Reject Instr :=
  match (fld w 0 5).toNat with
  | 0 => .ok (.cmpt (fld w 18 6) (fld w 12 6) (fld w 7 5) (fld w 5 2))
  | 1 => .ok (.clda (fld w 18 6) (fld w 12 6) (fld w 7 5) (fld w 5 2))
  | 2 => zero (fld w 18 6) (.cflush (fld w 12 6) (fld w 7 5) (fld w 5 2))
  | 3 => zero (fld w 18 6) (.cclr (fld w 12 6) (fld w 7 5) (fld w 5 2))
  | 4 => .ok (.crep (fld w 18 6) (fld w 12 6) (fld w 7 5) (fld w 5 2))
  | 5 => zero (fld w 5 2) (.cbind (fld w 18 6) (fld w 12 6) (fld w 7 5))
  | _ => .error .unassignedFn

/-- Opcode 0x1F SYNC (R27). -/
def decodeSync (w : Word) : Except Reject Instr :=
  match (fld w 19 5).toNat with
  | 0 => zero (fld w 4 15) (.bar (fld w 0 4))
  | 1 => zero (fld w 4 15) (.bara (fld w 0 4))
  | 2 => zero (fld w 4 15) (.barw (fld w 0 4))
  | 3 => zero (fld w 10 9) (.barx (fld w 0 4) (fld w 4 6))
  | 4 => zero (fld w 16 3) (.oapp (fld w 0 6) (fld w 6 6) (fld w 12 4))
  | 5 => zero (fld w 16 3 ++ fld w 0 12) (.odecl (fld w 12 4))
  | 6 => zero (fld w 0 19) .lget
  | 7 => zero (fld w 0 19) .lpass
  | _ => .error .unassignedFn

/-- Opcode 0x20 SMP (R27). -/
def decodeSmp (w : Word) : Except Reject Instr :=
  match (fld w 0 5).toNat with
  | 0 => .ok (.smpp (fld w 18 6) (fld w 12 6) (fld w 7 5) (fld w 5 2))
  | 1 => .ok (.smpb (fld w 18 6) (fld w 12 6) (fld w 7 5) (fld w 5 2))
  | 2 => .ok (.smpt (fld w 18 6) (fld w 12 6) (fld w 7 5) (fld w 5 2))
  | 3 => .ok (.smpa (fld w 18 6) (fld w 12 6) (fld w 7 5) (fld w 5 2))
  | 4 => .ok (.smpg (fld w 18 6) (fld w 12 6) (fld w 7 5) (fld w 5 2))
  | 5 => .ok (.sfet (fld w 18 6) (fld w 12 6) (fld w 7 5) (fld w 5 2))
  | 6 => .ok (.slat (fld w 18 6) (fld w 12 6) (fld w 7 5) (fld w 5 2))
  | 7 => .ok (.sqry (fld w 18 6) (fld w 12 6) (fld w 7 5) (fld w 5 2))
  | _ => .error .unassignedFn

/-- Opcode 0x21 DTB (R27). -/
noncomputable def decodeDtb (w : Word) : Except Reject Instr :=
  match (fld w 19 5).toNat with
  | 0 => zero (fld w 11 8) (.dtbind (fld w 5 6) (fld w 0 5))
  | 1 => zero (fld w 11 8 ++ fld w 0 5) (.dtunb (fld w 5 6))
  | 2 => zero (fld w 11 8 ++ fld w 0 5) (.dtqry (fld w 5 6))
  | _ => .error .unassignedFn

/-- Opcode 0x22 RAY (R27). -/
noncomputable def decodeRay (w : Word) : Except Reject Instr :=
  match (fld w 0 5).toNat with
  | 0 => zero (fld w 5 2) (.trace (fld w 18 6) (fld w 12 6) (fld w 7 5))
  | 1 => zero (fld w 5 2) (.tracea (fld w 18 6) (fld w 12 6) (fld w 7 5))
  | 2 => zero (fld w 5 2) (.tcall (fld w 18 6) (fld w 12 6) (fld w 7 5))
  | 3 => zero (fld w 5 13) (.trres (fld w 18 6))
  | _ => .error .unassignedFn

/-- Opcode 0x23 RAST (R27). -/
noncomputable def decodeRast (w : Word) : Except Reject Instr :=
  match (fld w 19 5).toNat with
  | 0 => zero (fld w 11 8) (.rdraw (fld w 5 6) (fld w 0 5))
  | 1 => zero (fld w 11 8 ++ fld w 0 5) (.rwait (fld w 5 6))
  | _ => .error .unassignedFn

/-- Opcode 0x24 WORK (R27). -/
noncomputable def decodeWork (w : Word) : Except Reject Instr :=
  match (fld w 19 5).toNat with
  | 0 => zero (fld w 18 1) (.wgenq (fld w 0 6) (fld w 6 6) (fld w 12 6))
  | 1 => zero (fld w 11 8) (.launch (fld w 5 6) (fld w 0 5))
  | 2 => zero (fld w 0 19) .wgfin
  | _ => .error .unassignedFn

/-- Opcode 0x28 MAT (R27). -/
noncomputable def decodeMat (w : Word) : Except Reject Instr :=
  match (fld w 0 5).toNat with
  | 0 => zero (fld w 17 7) (.mldf (fld w 11 6) (fld w 5 6))
  | 1 => zero (fld w 5 1) (.mma (fld w 18 6) (fld w 12 6) (fld w 6 6))
  | 2 => zero (fld w 5 1) (.mmaz (fld w 18 6) (fld w 12 6) (fld w 6 6))
  | 3 => zero (fld w 5 1) (.mpost (w.getLsbD 23) (fld w 18 5) (fld w 12 6) (fld w 6 6))
  | 4 => zero (fld w 11 13) (.mwait (w.getLsbD 10) (fld w 5 5))
  | 5 => zero (fld w 5 1) (.mdrain (fld w 18 6) (fld w 12 6) (fld w 6 6))
  | 6 => zero (fld w 5 1) (.mfill (fld w 18 6) (fld w 12 6) (fld w 6 6))
  | 7 => zero (fld w 5 7) (.mvnb (fld w 18 6) (fld w 12 6))
  | 8 => zero (fld w 5 19) .mvwait
  | _ => .error .unassignedFn

/-- Opcode 0x2C HAMP (R27). -/
noncomputable def decodeHamp (w : Word) : Except Reject Instr :=
  match (fld w 0 5).toNat with
  | 0 => .ok (.hload (fld w 18 6) (fld w 12 6) (fld w 7 5) (fld w 5 2))
  | 1 => .ok (.hstore (fld w 18 6) (fld w 12 6) (fld w 7 5) (fld w 5 2))
  | 2 => .ok (.hmcast (fld w 18 6) (fld w 12 6) (fld w 7 5) (fld w 5 2))
  | 3 => .ok (.hpref (fld w 18 6) (fld w 12 6) (fld w 7 5) (fld w 5 2))
  | 4 => zero (fld w 11 13) (.hbatch (fld w 5 6))
  | 5 => zero (fld w 11 13) (.waitb (fld w 5 6))
  | 6 => .ok (.hqry (fld w 18 6) (fld w 12 6) (fld w 7 5) (fld w 5 2))
  | _ => .error .unassignedFn

/-- Opcode 0x3E SYS (R27). -/
noncomputable def decodeSys (w : Word) : Except Reject Instr :=
  match (fld w 19 5).toNat with
  | 0 => zero (fld w 16 3) (.trap (fld w 0 16))
  | 1 => zero (fld w 0 19) .rte
  | 2 => zero (fld w 16 3) (.scall (fld w 0 16))
  | 3 => zero (fld w 18 1) (.ctlr (fld w 0 6) (fld w 6 12))
  | 4 => zero (fld w 18 1) (.ctlw (fld w 6 12) (fld w 0 6))
  | 5 => zero (fld w 16 3) (.bkpt (fld w 0 16))
  | 6 => zero (fld w 0 19) .exit
  | 7 => zero (fld w 6 13) (.rdtime (fld w 0 6))
  | _ => .error .unassignedFn

/-- The instruction in bits [29:0] of a word of an opcode up to 0x20, before its field values are checked (R20, R27). -/
def decodeLow (w : Word) : Except Reject Instr :=
  match (fld w 24 6).toNat with
  | 0x00 => decodeFlow w
  | 0x01 => if w.getLsbD 23 then .ok (.call (fld w 0 23)) else .ok (.br (fld w 0 23))
  | 0x02 => .ok (.bru (fld w 18 6) (fld w 16 2) (fld w 0 16))
  | 0x03 => .ok (.brs (fld w 18 6) (fld w 16 2) (fld w 0 16))
  | 0x04 => decodeSalu w
  | 0x05 => .ok (.saddi (fld w 18 6) (fld w 12 6) (fld w 0 12))
  | 0x06 => .ok (.sandi (fld w 18 6) (fld w 12 6) (fld w 0 12))
  | 0x07 => .ok (.sori (fld w 18 6) (fld w 12 6) (fld w 0 12))
  | 0x08 => decodeVint w
  | 0x09 => .ok (.vaddi (fld w 18 6) (fld w 12 6) (fld w 0 12))
  | 0x0A => .ok (.vandi (fld w 18 6) (fld w 12 6) (fld w 0 12))
  | 0x0B => zero (fld w 12 6) (.vli (fld w 18 6) (fld w 0 12))
  | 0x0C => decodeVcmp w
  | 0x0D => decodeVdot w
  | 0x0E => decodeVf32 w
  | 0x0F => decodeVf16 w
  | 0x10 => .ok (.xcvt (fld w 18 6) (fld w 12 6) (fld w 8 4) (fld w 4 4) (fld w 1 3) (w.getLsbD 0))
  | 0x11 => decodeXsf w
  | 0x12 => decodeXpack w
  | 0x13 => decodeXqnt w
  | 0x14 => decodeXrng w
  | 0x15 => decodeWlane w
  | 0x18 => decodeLd w
  | 0x19 => decodeSt w
  | 0x1A => decodeLcl w
  | 0x1B => decodeAtom w
  | 0x1C => decodeOrd w
  | 0x1D => decodeEst w
  | 0x1E => decodeCmps w
  | 0x1F => decodeSync w
  | 0x20 => decodeSmp w
  | _ => .error .reservedOpcode

/-- The instruction in bits [29:0] of a word, before its field values are checked (R20, R27). -/
noncomputable def decodeBody (w : Word) : Except Reject Instr :=
  match (fld w 24 6).toNat with
  | 0x21 => decodeDtb w
  | 0x22 => decodeRay w
  | 0x23 => decodeRast w
  | 0x24 => decodeWork w
  | 0x28 => decodeMat w
  | 0x2C => decodeHamp w
  | 0x3E => decodeSys w
  | 0x3F => .ok (.const (fld w 0 24))
  | _ => decodeLow w

/-- The decoder of one word (R16, R26, R29). K of a CONST word is must-be-zero (R23). -/
noncomputable def decodeWord (w : Word) : Decoded :=
  match decodeBody w with
  | .error r => .reject r
  | .ok i =>
    if !i.wellFormed then .reject .reservedField
    else if i.isConst && w.getLsbD 30 then .reject .mustBeZero
    else .word (w.getLsbD 31) (w.getLsbD 30) i

/-- The word at the start of a list of bytes, least significant byte first (R3, R17). -/
def wordOfBytes : List Byte → Option Word
  | b0 :: b1 :: b2 :: b3 :: _ => some (b3 ++ b2 ++ b1 ++ b0)
  | _ => none

/-- The decoder on bytes in memory order. -/
noncomputable def decodeBytes (bs : List Byte) : Decoded :=
  match wordOfBytes bs with
  | some w => decodeWord w
  | none => .reject .short

/-- Byte `i` of a word, byte 0 the least significant (R3). -/
def byteOf (w : Word) (i : Nat) : Byte := w.extractLsb' (8 * i) 8

/-- The bytes of a word in memory order (R3, R17). -/
def bytesOfWord (w : Word) : List Byte := [byteOf w 0, byteOf w 1, byteOf w 2, byteOf w 3]

/-- The instruction the decoder reads from the word whose bits are `w`, numbered as spec/opcode_table.json numbers
them. Every word of the Swieth is 32 bits, bit 0 the least significant; bits above `nbits` are zero. -/
noncomputable def decodeTableWord (nbits w : Nat) : Option Instr :=
  match decodeBytes (bytesOfWord (BitVec.ofNat 32 (w % 2 ^ nbits))) with
  | .word _ _ i => some i
  | .reject _ => none

/-! ## The encoder -/

/-- Bits [29:0] in format R (R20). -/
def encR (op : BitVec 6) (fn : BitVec 5) (d a b : BitVec 6) (l : Bool) : BitVec 30 :=
  op ++ d ++ a ++ b ++ BitVec.ofBool l ++ fn

/-- Format I. -/
def encI (op d a : BitVec 6) (i : BitVec 12) : BitVec 30 := op ++ d ++ a ++ i

/-- Format F. -/
def encF (op : BitVec 6) (fn : BitVec 5) (imm : BitVec 19) : BitVec 30 := op ++ fn ++ imm

/-- Format FL (R21). -/
def encFL (op : BitVec 6) (imm : BitVec 19) (fn : BitVec 5) : BitVec 30 := op ++ imm ++ fn

/-- Format B. -/
def encB (op : BitVec 6) (l : Bool) (o : BitVec 23) : BitVec 30 := op ++ BitVec.ofBool l ++ o

/-- Formats BS and BC. -/
def encB16 (op s : BitVec 6) (q : BitVec 2) (o : BitVec 16) : BitVec 30 := op ++ s ++ q ++ o

/-- Format M. -/
def encM (op : BitVec 6) (fn : BitVec 5) (d a : BitVec 6) (s : BitVec 5) (h : BitVec 2) : BitVec 30 :=
  op ++ d ++ a ++ s ++ h ++ fn

/-- Format C. -/
def encC (op d a : BitVec 6) (s t : BitVec 4) (r : BitVec 3) (u : Bool) : BitVec 30 :=
  op ++ d ++ a ++ s ++ t ++ r ++ BitVec.ofBool u

/-- Format X. -/
def encX (op : BitVec 6) (p : BitVec 24) : BitVec 30 := op ++ p

/-- Bits [29:0] of a word's instruction (R20, R27); an event has none. -/
def encodeBody (i : Instr) : Option (BitVec 30) :=
  match i with
  | .nop => some (encF 0x00 0 0)
  | .mjoin o => some (encF 0x00 1 o)
  | .join => some (encF 0x00 2 0)
  | .ret => some (encF 0x00 3 0)
  | .jmpr n => some (encF 0x00 4 (0#13 ++ n))
  | .loop s n => some (encF 0x00 5 (0#6 ++ s ++ n))
  | .loopi t n => some (encF 0x00 6 (t ++ n))
  | .lbrk => some (encF 0x00 7 0)
  | .yield y => some (encF 0x00 8 y)
  | .waitx w => some (encF 0x00 9 (0#15 ++ w))
  | .br o => some (encB 0x01 false o)
  | .call o => some (encB 0x01 true o)
  | .bru s q o => some (encB16 0x02 s q o)
  | .brs m e o => some (encB16 0x03 m e o)
  | .sadd d a b l => some (encR 0x04 0 d a b l)
  | .ssub d a b l => some (encR 0x04 1 d a b l)
  | .smul d a b l => some (encR 0x04 2 d a b l)
  | .smulh d a b l => some (encR 0x04 3 d a b l)
  | .sdiv d a b l => some (encR 0x04 4 d a b l)
  | .sdivu d a b l => some (encR 0x04 5 d a b l)
  | .srem d a b l => some (encR 0x04 6 d a b l)
  | .sand d a b l => some (encR 0x04 7 d a b l)
  | .sor d a b l => some (encR 0x04 8 d a b l)
  | .sxor d a b l => some (encR 0x04 9 d a b l)
  | .sshl d a b l => some (encR 0x04 10 d a b l)
  | .sshr d a b l => some (encR 0x04 11 d a b l)
  | .ssra d a b l => some (encR 0x04 12 d a b l)
  | .sshli d a n l => some (encR 0x04 13 d a n l)
  | .sshri d a n l => some (encR 0x04 14 d a n l)
  | .ssrai d a n l => some (encR 0x04 15 d a n l)
  | .smin d a b l => some (encR 0x04 16 d a b l)
  | .smax d a b l => some (encR 0x04 17 d a b l)
  | .sceq d a b l => some (encR 0x04 18 d a b l)
  | .sclt d a b l => some (encR 0x04 19 d a b l)
  | .scltu d a b l => some (encR 0x04 20 d a b l)
  | .ssel d a b l => some (encR 0x04 21 d a b l)
  | .sclz d a l => some (encR 0x04 22 d a 0 l)
  | .spop d a l => some (encR 0x04 23 d a 0 l)
  | .smov d a l => some (encR 0x04 24 d a 0 l)
  | .saddi d a i => some (encI 0x05 d a i)
  | .sandi d a i => some (encI 0x06 d a i)
  | .sori d a i => some (encI 0x07 d a i)
  | .vadd d a b l => some (encR 0x08 0 d a b l)
  | .vsub d a b l => some (encR 0x08 1 d a b l)
  | .vmul d a b l => some (encR 0x08 2 d a b l)
  | .vmulh d a b l => some (encR 0x08 3 d a b l)
  | .vmad d a b l => some (encR 0x08 4 d a b l)
  | .vand d a b l => some (encR 0x08 5 d a b l)
  | .vor d a b l => some (encR 0x08 6 d a b l)
  | .vxor d a b l => some (encR 0x08 7 d a b l)
  | .vnot d a l => some (encR 0x08 8 d a 0 l)
  | .vshl d a b l => some (encR 0x08 9 d a b l)
  | .vshr d a b l => some (encR 0x08 10 d a b l)
  | .vsra d a b l => some (encR 0x08 11 d a b l)
  | .vshli d a n l => some (encR 0x08 12 d a n l)
  | .vshri d a n l => some (encR 0x08 13 d a n l)
  | .vsrai d a n l => some (encR 0x08 14 d a n l)
  | .vmin d a b l => some (encR 0x08 15 d a b l)
  | .vmax d a b l => some (encR 0x08 16 d a b l)
  | .vabs d a l => some (encR 0x08 17 d a 0 l)
  | .vneg d a l => some (encR 0x08 18 d a 0 l)
  | .vclz d a l => some (encR 0x08 19 d a 0 l)
  | .vpop d a l => some (encR 0x08 20 d a 0 l)
  | .vmov d a l => some (encR 0x08 21 d a 0 l)
  | .vselz d a b l => some (encR 0x08 22 d a b l)
  | .vaddi d a i => some (encI 0x09 d a i)
  | .vandi d a i => some (encI 0x0A d a i)
  | .vli d i => some (encI 0x0B d 0 i)
  | .vceq d a b l => some (encR 0x0C 0 d a b l)
  | .vcne d a b l => some (encR 0x0C 1 d a b l)
  | .vclt d a b l => some (encR 0x0C 2 d a b l)
  | .vcle d a b l => some (encR 0x0C 3 d a b l)
  | .vcltu d a b l => some (encR 0x0C 4 d a b l)
  | .vcleu d a b l => some (encR 0x0C 5 d a b l)
  | .vfceq d a b l => some (encR 0x0C 6 d a b l)
  | .vfcne d a b l => some (encR 0x0C 7 d a b l)
  | .vfclt d a b l => some (encR 0x0C 8 d a b l)
  | .vfcle d a b l => some (encR 0x0C 9 d a b l)
  | .vfcun d a b l => some (encR 0x0C 10 d a b l)
  | .vdotb d a b l => some (encR 0x0D 0 d a b l)
  | .vdotbs d a b l => some (encR 0x0D 1 d a b l)
  | .vdotub d a b l => some (encR 0x0D 2 d a b l)
  | .vdotubs d a b l => some (encR 0x0D 3 d a b l)
  | .vdotn d a b l => some (encR 0x0D 4 d a b l)
  | .vdotns d a b l => some (encR 0x0D 5 d a b l)
  | .vdoth d a b l => some (encR 0x0D 6 d a b l)
  | .vdotbf d a b l => some (encR 0x0D 7 d a b l)
  | .vfadd d a b l => some (encR 0x0E 0 d a b l)
  | .vfsub d a b l => some (encR 0x0E 1 d a b l)
  | .vfmul d a b l => some (encR 0x0E 2 d a b l)
  | .vfma d a b l => some (encR 0x0E 3 d a b l)
  | .vfms d a b l => some (encR 0x0E 4 d a b l)
  | .vfnma d a b l => some (encR 0x0E 5 d a b l)
  | .vfmin d a b l => some (encR 0x0E 6 d a b l)
  | .vfmax d a b l => some (encR 0x0E 7 d a b l)
  | .vfminn d a b l => some (encR 0x0E 8 d a b l)
  | .vfmaxn d a b l => some (encR 0x0E 9 d a b l)
  | .vfabs d a l => some (encR 0x0E 10 d a 0 l)
  | .vfneg d a l => some (encR 0x0E 11 d a 0 l)
  | .vfcps d a b l => some (encR 0x0E 12 d a b l)
  | .vfrnd d a l => some (encR 0x0E 13 d a 0 l)
  | .vftrc d a l => some (encR 0x0E 14 d a 0 l)
  | .vfclass d a l => some (encR 0x0E 15 d a 0 l)
  | .hadd d a b l => some (encR 0x0F 0 d a b l)
  | .hsub d a b l => some (encR 0x0F 1 d a b l)
  | .hmul d a b l => some (encR 0x0F 2 d a b l)
  | .hfma d a b l => some (encR 0x0F 3 d a b l)
  | .hmin d a b l => some (encR 0x0F 4 d a b l)
  | .hmax d a b l => some (encR 0x0F 5 d a b l)
  | .badd d a b l => some (encR 0x0F 6 d a b l)
  | .bmul d a b l => some (encR 0x0F 7 d a b l)
  | .bfma d a b l => some (encR 0x0F 8 d a b l)
  | .xcvt d a s t r u => some (encC 0x10 d a s t r u)
  | .xrcp d a l => some (encR 0x11 0 d a 0 l)
  | .xrsq d a l => some (encR 0x11 1 d a 0 l)
  | .xsqrt d a l => some (encR 0x11 2 d a 0 l)
  | .xexp2 d a l => some (encR 0x11 3 d a 0 l)
  | .xlog2 d a l => some (encR 0x11 4 d a 0 l)
  | .xsin d a l => some (encR 0x11 5 d a 0 l)
  | .xcos d a l => some (encR 0x11 6 d a 0 l)
  | .xtanh d a l => some (encR 0x11 7 d a 0 l)
  | .xdiv d a b l => some (encR 0x11 8 d a b l)
  | .xpack6 d a l => some (encR 0x12 0 d a 0 l)
  | .xunpk6 d a l => some (encR 0x12 1 d a 0 l)
  | .xpack4 d a b l => some (encR 0x12 2 d a b l)
  | .xunpk4 d a l => some (encR 0x12 3 d a 0 l)
  | .xpackh d a b l => some (encR 0x12 4 d a b l)
  | .xpackb d a b l => some (encR 0x12 5 d a b l)
  | .xqnt4 d a b l => some (encR 0x13 0 d a b l)
  | .xqnt8 d a b l => some (encR 0x13 1 d a b l)
  | .xdqnt4 d a b l => some (encR 0x13 2 d a b l)
  | .xdqnt8 d a b l => some (encR 0x13 3 d a b l)
  | .xqmx d a b l => some (encR 0x13 4 d a b l)
  | .xdqmx d a b l => some (encR 0x13 5 d a b l)
  | .xamax d a b l => some (encR 0x13 6 d a b l)
  | .xrngb d => some (encR 0x14 0 d 0 0 false)
  | .xrngu d => some (encR 0x14 1 d 0 0 false)
  | .xrngk d a b l => some (encR 0x14 2 d a b l)
  | .xrngj a b l => some (encR 0x14 3 0 a b l)
  | .wshf d a b l => some (encR 0x15 0 d a b l)
  | .wshfi d a n l => some (encR 0x15 1 d a n l)
  | .wxor d a n l => some (encR 0x15 2 d a n l)
  | .wup d a n l => some (encR 0x15 3 d a n l)
  | .wdn d a n l => some (encR 0x15 4 d a n l)
  | .wbc d a l => some (encR 0x15 5 d a 0 l)
  | .wscan d a l => some (encR 0x15 6 d a 0 l)
  | .wscanx d a l => some (encR 0x15 7 d a 0 l)
  | .wscanf d a l => some (encR 0x15 8 d a 0 l)
  | .wscanmin d a l => some (encR 0x15 9 d a 0 l)
  | .wscanmax d a l => some (encR 0x15 10 d a 0 l)
  | .wred d a l => some (encR 0x15 11 d a 0 l)
  | .wredf d a l => some (encR 0x15 12 d a 0 l)
  | .wredmin d a l => some (encR 0x15 13 d a 0 l)
  | .wredmax d a l => some (encR 0x15 14 d a 0 l)
  | .wredand d a l => some (encR 0x15 15 d a 0 l)
  | .wredor d a l => some (encR 0x15 16 d a 0 l)
  | .wvote d a l => some (encR 0x15 17 d a 0 l)
  | .wany d a l => some (encR 0x15 18 d a 0 l)
  | .wall d a l => some (encR 0x15 19 d a 0 l)
  | .wcomp d a b l => some (encR 0x15 20 d a b l)
  | .wmaxi d a b l => some (encR 0x15 21 d a b l)
  | .wflg d g => some (encR 0x15 22 d 0 g false)
  | .wflclr m => some (encR 0x15 23 0 0 (0#1 ++ m) false)
  | .ldb d a s h => some (encM 0x18 0 d a s h)
  | .ldbu d a s h => some (encM 0x18 1 d a s h)
  | .ldh d a s h => some (encM 0x18 2 d a s h)
  | .ldhu d a s h => some (encM 0x18 3 d a s h)
  | .ldw d a s h => some (encM 0x18 4 d a s h)
  | .ldd d a s h => some (encM 0x18 5 d a s h)
  | .ldq d a s h => some (encM 0x18 6 d a s h)
  | .sldw d a s h => some (encM 0x18 7 d a s h)
  | .sldd d a s h => some (encM 0x18 8 d a s h)
  | .sldq d a s h => some (encM 0x18 9 d a s h)
  | .stb d a s h => some (encM 0x19 0 d a s h)
  | .sth d a s h => some (encM 0x19 1 d a s h)
  | .stw d a s h => some (encM 0x19 2 d a s h)
  | .std d a s h => some (encM 0x19 3 d a s h)
  | .stq d a s h => some (encM 0x19 4 d a s h)
  | .st64 d a s h => some (encM 0x19 5 d a s h)
  | .sstw d a s h => some (encM 0x19 6 d a s h)
  | .sstd d a s h => some (encM 0x19 7 d a s h)
  | .lldw d a s => some (encM 0x1A 0 d a s 0)
  | .lldq d a s => some (encM 0x1A 1 d a s 0)
  | .lstw d a s => some (encM 0x1A 2 d a s 0)
  | .lstq d a s => some (encM 0x1A 3 d a s 0)
  | .lpush d a s => some (encM 0x1A 4 d a s 0)
  | .lpop d a s => some (encM 0x1A 5 d a s 0)
  | .laadd d a s => some (encM 0x1A 6 d a s 0)
  | .lamin d a s => some (encM 0x1A 7 d a s 0)
  | .lamax d a s => some (encM 0x1A 8 d a s 0)
  | .laxch d a s => some (encM 0x1A 9 d a s 0)
  | .aadd d a s h => some (encM 0x1B 0 d a s h)
  | .amin d a s h => some (encM 0x1B 1 d a s h)
  | .amax d a s h => some (encM 0x1B 2 d a s h)
  | .aand d a s h => some (encM 0x1B 3 d a s h)
  | .aor d a s h => some (encM 0x1B 4 d a s h)
  | .axor d a s h => some (encM 0x1B 5 d a s h)
  | .axch d a s h => some (encM 0x1B 6 d a s h)
  | .acas d a s h => some (encM 0x1B 7 d a s h)
  | .afadd d a s h => some (encM 0x1B 8 d a s h)
  | .afmin d a s h => some (encM 0x1B 9 d a s h)
  | .afmax d a s h => some (encM 0x1B 10 d a s h)
  | .amxi d a s h => some (encM 0x1B 11 d a s h)
  | .acq => some (encF 0x1C 0 0)
  | .rel => some (encF 0x1C 1 0)
  | .acqrel => some (encF 0x1C 2 0)
  | .fsmp => some (encF 0x1C 3 0)
  | .fbvh => some (encF 0x1C 4 0)
  | .ffar s n => some (encF 0x1C 5 (0#4 ++ n ++ 0#2 ++ s))
  | .pref h s n => some (encF 0x1C 6 (0#4 ++ n ++ h ++ s))
  | .invl s n => some (encF 0x1C 7 (0#4 ++ n ++ 0#2 ++ s))
  | .esta d a s h => some (encM 0x1D 0 d a s h)
  | .estw d a s h => some (encM 0x1D 1 d a s h)
  | .estg d a s h => some (encM 0x1D 2 d a s h)
  | .emrg d a s h => some (encM 0x1D 3 d a s h)
  | .eld d a s h => some (encM 0x1D 4 d a s h)
  | .eldr d a s h => some (encM 0x1D 5 d a s h)
  | .egen d a s h => some (encM 0x1D 6 d a s h)
  | .ewatch d a s => some (encM 0x1D 7 d a s 0)
  | .eunw d a => some (encM 0x1D 8 d a 0 0)
  | .cmpt d a s h => some (encM 0x1E 0 d a s h)
  | .clda d a s h => some (encM 0x1E 1 d a s h)
  | .cflush a s h => some (encM 0x1E 2 0 a s h)
  | .cclr a s h => some (encM 0x1E 3 0 a s h)
  | .crep d a s h => some (encM 0x1E 4 d a s h)
  | .cbind d a s => some (encM 0x1E 5 d a s 0)
  | .bar b => some (encF 0x1F 0 (0#15 ++ b))
  | .bara b => some (encF 0x1F 1 (0#15 ++ b))
  | .barw b => some (encF 0x1F 2 (0#15 ++ b))
  | .barx b n => some (encF 0x1F 3 (0#9 ++ n ++ b))
  | .oapp d n h => some (encF 0x1F 4 (0#3 ++ h ++ n ++ d))
  | .odecl h => some (encF 0x1F 5 (0#3 ++ h ++ 0#12))
  | .lget => some (encF 0x1F 6 0)
  | .lpass => some (encF 0x1F 7 0)
  | .smpp d a s h => some (encM 0x20 0 d a s h)
  | .smpb d a s h => some (encM 0x20 1 d a s h)
  | .smpt d a s h => some (encM 0x20 2 d a s h)
  | .smpa d a s h => some (encM 0x20 3 d a s h)
  | .smpg d a s h => some (encM 0x20 4 d a s h)
  | .sfet d a s h => some (encM 0x20 5 d a s h)
  | .slat d a s h => some (encM 0x20 6 d a s h)
  | .sqry d a s h => some (encM 0x20 7 d a s h)
  | .dtbind d s => some (encF 0x21 0 (0#8 ++ d ++ s))
  | .dtunb d => some (encF 0x21 1 (0#8 ++ d ++ 0#5))
  | .dtqry d => some (encF 0x21 2 (0#8 ++ d ++ 0#5))
  | .trace d a s => some (encM 0x22 0 d a s 0)
  | .tracea d a s => some (encM 0x22 1 d a s 0)
  | .tcall p a s => some (encM 0x22 2 p a s 0)
  | .trres d => some (encM 0x22 3 d 0 0 0)
  | .rdraw d s => some (encF 0x23 0 (0#8 ++ d ++ s))
  | .rwait d => some (encF 0x23 1 (0#8 ++ d ++ 0#5))
  | .wgenq d n a => some (encF 0x24 0 (0#1 ++ a ++ n ++ d))
  | .launch d s => some (encF 0x24 1 (0#8 ++ d ++ s))
  | .wgfin => some (encF 0x24 2 0)
  | .mldf d n => some (encFL 0x28 (0#7 ++ d ++ n) 0)
  | .mma d a b => some (encR 0x28 1 d a b false)
  | .mmaz d a b => some (encR 0x28 2 d a b false)
  | .mpost z d a b => some (encR 0x28 3 (BitVec.ofBool z ++ d) a b false)
  | .mwait e t => some (encFL 0x28 (0#13 ++ BitVec.ofBool e ++ t) 4)
  | .mdrain d a b => some (encR 0x28 5 d a b false)
  | .mfill d a b => some (encR 0x28 6 d a b false)
  | .mvnb d a => some (encR 0x28 7 d a 0 false)
  | .mvwait => some (encFL 0x28 0 8)
  | .hload d a s h => some (encM 0x2C 0 d a s h)
  | .hstore d a s h => some (encM 0x2C 1 d a s h)
  | .hmcast d a s h => some (encM 0x2C 2 d a s h)
  | .hpref d a s h => some (encM 0x2C 3 d a s h)
  | .hbatch d => some (encFL 0x2C (0#13 ++ d) 4)
  | .waitb n => some (encFL 0x2C (0#13 ++ n) 5)
  | .hqry d a s h => some (encM 0x2C 6 d a s h)
  | .trap n => some (encF 0x3E 0 (0#3 ++ n))
  | .rte => some (encF 0x3E 1 0)
  | .scall n => some (encF 0x3E 2 (0#3 ++ n))
  | .ctlr d r => some (encF 0x3E 3 (0#1 ++ r ++ d))
  | .ctlw r a => some (encF 0x3E 4 (0#1 ++ r ++ a))
  | .bkpt n => some (encF 0x3E 5 (0#3 ++ n))
  | .exit => some (encF 0x3E 6 0)
  | .rdtime d => some (encF 0x3E 7 (0#13 ++ d))
  | .const p => some (encX 0x3F p)
  | .nonInstruction _ => none
  | .longLatencyReturn _ _ _ => none
  | .joinArrive _ _ => none
  | .splitLeave _ _ => none
  | .workgroupRetire _ => none
  | .yieldExpiry _ _ => none
  | .progressPromote _ _ => none
  | .writeQueueEnter _ => none
  | .storeReachHome _ _ => none
  | .revoke _ _ _ => none
  | .storeAck _ _ => none
  | .loadReturn _ _ _ _ => none
  | .atomicApply _ _ => none
  | .orderGateAdmit _ _ => none
  | .orderGateTimeout _ _ => none
  | .faultMap _ _ => none
  | .faultDeny _ => none
  | .faultPoison _ => none
  | .faultRetry _ => none
  | .farStoreAck _ _ => none
  | .farTimeout _ _ _ => none
  | .cxlLinkLoss _ => none
  | .poisonTrapDeferred _ _ => none
  | .softError _ _ => none
  | .rangeLockRelease _ _ => none
  | .estContributeApply _ _ => none
  | .estMergeApply _ _ => none
  | .estGenApply _ _ => none
  | .estdropAck _ => none
  | .watchSweep _ => none
  | .cmpTermArrive _ _ => none
  | .crucibleHoldExpire _ => none
  | .matGrant _ _ => none
  | .matEntryComplete _ _ => none
  | .mvnbComplete _ _ => none
  | .hamperOpStart _ _ => none
  | .hamperOpComplete _ _ => none
  | .hmcastShareLand _ _ _ => none
  | .traceLaneFinish _ _ => none
  | .traceComplete _ => none
  | .rasterTriangle _ => none
  | .rasterTileRecord _ _ => none
  | .nodeGroupTimer _ _ => none
  | .workgroupPlace => none
  | .shadowSwap _ _ _ => none
  | .shadowSaveTimeout _ _ => none
  | .fullSave _ _ => none
  | .restore _ => none
  | .ladleHandon _ => none
  | .ladleVisitTimeout _ => none
  | .oappGrant _ _ => none
  | .scallAnswer _ _ _ => none
  | .bkptResume _ _ => none
  | .clmBankModeWrite _ _ => none
  | .clmBankRefusedClear _ _ => none
  | .loopCounterWrite _ _ => none
  | .hstatClear _ => none
  | .sstatClear _ _ => none
  | .mstatClear _ => none
  | .trapStateWrite _ _ => none
  | .bandRise _ _ _ => none
  | .bandFall _ _ _ => none
  | .soakStable => none
  | .trainComplete => none
  | .trainFail => none
  | .excursionClear => none
  | .flaskCool => none
  | .flaskWarm => none
  | .flaskResume => none
  | .flaskService => none
  | .excursionClr => none
  | .stackwinWrite _ => none
  | .cxlDownClear _ => none
  | .platformRegisterWrite _ _ => none
  | .dutyRequestAnswer _ => none
  | .refreshRow _ _ => none
  | .scrubPassStart _ => none
  | .scrubSector _ _ _ => none
  | .scrubEscalate _ _ => none
  | .deviceReset _ _ => none
  | .hostLoad _ _ _ _ _ => none
  | .hostUnload _ _ _ => none
  | .hostLaunch _ _ _ => none
  | .hostAlloc _ _ _ _ _ => none
  | .hostCopy _ _ _ => none
  | .hostAttest _ _ => none
  | .hostEvents _ _ => none
  | .hostFree _ _ _ _ _ => none
  | .hostUnknownRequest _ _ => none
  | .decroTransferArrive _ _ _ => none
  | .decroLinkLoss _ => none
  | .loadComplete _ => none
  | .regionTeardown _ => none
  | .runEnd _ => none
  | .pageRetire _ _ _ => none
  | .cxlLinkUp _ => none
  | .rowBinning _ _ _ => none
  | .bloomFilterLoad _ _ _ => none

/-- The word of an instruction with its chain bit and switch marker (R16). -/
def encode (c k : Bool) (i : Instr) : Option Word :=
  match encodeBody i with
  | some b => some (BitVec.ofBool c ++ BitVec.ofBool k ++ b)
  | none => none

end Sys2Proof
end

