-- ==== Sys2Proof/Machine/Uses.lean ====
section
/-! DEFINITION. What a word uses: its pipe, the registers it reads and writes, whether it takes a CONST, and which
threads run it (R19, R23, R27, R28, R50, R80). Each set of registers is a list of runs: lowest number and length. -/

namespace Sys2Proof.Machine

/-- The pipes of R9; CONST uses none. -/
inductive Pipe where
  | s | v | x | m | t | none
  deriving DecidableEq, Repr

/-- Runs of vector registers read and written, and of scalar registers read and written. -/
structure Use where
  vr : List (Nat × Nat) := []
  vw : List (Nat × Nat) := []
  sr : List (Nat × Nat) := []
  sw : List (Nat × Nat) := []
  deriving DecidableEq, Repr

/-- An ATOM word with `k` data registers and `w` result registers (R139). -/
def atomUse (d a : Reg) (k w : Nat) (s : BitVec 5) : Use :=
  if d.toNat = 63 then { vr := [(a.toNat, 1), (a.toNat + 1, k)], sr := [(2 * s.toNat, 2)] }
  else { vr := [(a.toNat, 1), (d.toNat, k)], vw := [(d.toNat, w)], sr := [(2 * s.toNat, 2)] }

/-- The registers that a word names. -/
def uses (i : Instr) : Use :=
  match i with
  | .nop => {}
  | .mjoin _ => {}
  | .join => {}
  | .ret => { sr := [(59, 1)] }
  | .jmpr n => { sr := [(n.toNat, 1)] }
  | .loop s _ => { sr := [(s.toNat, 1)] }
  | .loopi _ _ => {}
  | .lbrk => {}
  | .yield _ => {}
  | .waitx _ => {}
  | .br _ => {}
  | .call _ => { sw := [(59, 1)] }
  | .bru s _ _ => { sr := [(s.toNat, 1)] }
  | .brs m _ _ => { sr := [(m.toNat, 3)] }
  | .sadd d a b _ => { sr := [(a.toNat, 1), (b.toNat, 1)], sw := [(d.toNat, 1)] }
  | .ssub d a b _ => { sr := [(a.toNat, 1), (b.toNat, 1)], sw := [(d.toNat, 1)] }
  | .smul d a b _ => { sr := [(a.toNat, 1), (b.toNat, 1)], sw := [(d.toNat, 1)] }
  | .smulh d a b _ => { sr := [(a.toNat, 1), (b.toNat, 1)], sw := [(d.toNat, 1)] }
  | .sdiv d a b _ => { sr := [(a.toNat, 1), (b.toNat, 1)], sw := [(d.toNat, 1)] }
  | .sdivu d a b _ => { sr := [(a.toNat, 1), (b.toNat, 1)], sw := [(d.toNat, 1)] }
  | .srem d a b _ => { sr := [(a.toNat, 1), (b.toNat, 1)], sw := [(d.toNat, 1)] }
  | .sand d a b _ => { sr := [(a.toNat, 1), (b.toNat, 1)], sw := [(d.toNat, 1)] }
  | .sor d a b _ => { sr := [(a.toNat, 1), (b.toNat, 1)], sw := [(d.toNat, 1)] }
  | .sxor d a b _ => { sr := [(a.toNat, 1), (b.toNat, 1)], sw := [(d.toNat, 1)] }
  | .sshl d a b _ => { sr := [(a.toNat, 1), (b.toNat, 1)], sw := [(d.toNat, 1)] }
  | .sshr d a b _ => { sr := [(a.toNat, 1), (b.toNat, 1)], sw := [(d.toNat, 1)] }
  | .ssra d a b _ => { sr := [(a.toNat, 1), (b.toNat, 1)], sw := [(d.toNat, 1)] }
  | .sshli d a _ _ => { sr := [(a.toNat, 1)], sw := [(d.toNat, 1)] }
  | .sshri d a _ _ => { sr := [(a.toNat, 1)], sw := [(d.toNat, 1)] }
  | .ssrai d a _ _ => { sr := [(a.toNat, 1)], sw := [(d.toNat, 1)] }
  | .smin d a b _ => { sr := [(a.toNat, 1), (b.toNat, 1)], sw := [(d.toNat, 1)] }
  | .smax d a b _ => { sr := [(a.toNat, 1), (b.toNat, 1)], sw := [(d.toNat, 1)] }
  | .sceq d a b _ => { sr := [(a.toNat, 1), (b.toNat, 1)], sw := [(d.toNat, 1)] }
  | .sclt d a b _ => { sr := [(a.toNat, 1), (b.toNat, 1)], sw := [(d.toNat, 1)] }
  | .scltu d a b _ => { sr := [(a.toNat, 1), (b.toNat, 1)], sw := [(d.toNat, 1)] }
  | .ssel d a b _ => { sr := [(a.toNat, 1), (b.toNat, 1), (d.toNat, 1)], sw := [(d.toNat, 1)] }
  | .sclz d a _ => { sr := [(a.toNat, 1)], sw := [(d.toNat, 1)] }
  | .spop d a _ => { sr := [(a.toNat, 1)], sw := [(d.toNat, 1)] }
  | .smov d a _ => { sr := [(a.toNat, 1)], sw := [(d.toNat, 1)] }
  | .saddi d a _ => { sr := [(a.toNat, 1)], sw := [(d.toNat, 1)] }
  | .sandi d a _ => { sr := [(a.toNat, 1)], sw := [(d.toNat, 1)] }
  | .sori d a _ => { sr := [(a.toNat, 1)], sw := [(d.toNat, 1)] }
  | .vadd d a b _ => { vr := [(a.toNat, 1), (b.toNat, 1)], vw := [(d.toNat, 1)] }
  | .vsub d a b _ => { vr := [(a.toNat, 1), (b.toNat, 1)], vw := [(d.toNat, 1)] }
  | .vmul d a b _ => { vr := [(a.toNat, 1), (b.toNat, 1)], vw := [(d.toNat, 1)] }
  | .vmulh d a b _ => { vr := [(a.toNat, 1), (b.toNat, 1)], vw := [(d.toNat, 1)] }
  | .vmad d a b _ => { vr := [(a.toNat, 1), (b.toNat, 1), (d.toNat, 1)], vw := [(d.toNat, 1)] }
  | .vand d a b _ => { vr := [(a.toNat, 1), (b.toNat, 1)], vw := [(d.toNat, 1)] }
  | .vor d a b _ => { vr := [(a.toNat, 1), (b.toNat, 1)], vw := [(d.toNat, 1)] }
  | .vxor d a b _ => { vr := [(a.toNat, 1), (b.toNat, 1)], vw := [(d.toNat, 1)] }
  | .vnot d a _ => { vr := [(a.toNat, 1)], vw := [(d.toNat, 1)] }
  | .vshl d a b _ => { vr := [(a.toNat, 1), (b.toNat, 1)], vw := [(d.toNat, 1)] }
  | .vshr d a b _ => { vr := [(a.toNat, 1), (b.toNat, 1)], vw := [(d.toNat, 1)] }
  | .vsra d a b _ => { vr := [(a.toNat, 1), (b.toNat, 1)], vw := [(d.toNat, 1)] }
  | .vshli d a _ _ => { vr := [(a.toNat, 1)], vw := [(d.toNat, 1)] }
  | .vshri d a _ _ => { vr := [(a.toNat, 1)], vw := [(d.toNat, 1)] }
  | .vsrai d a _ _ => { vr := [(a.toNat, 1)], vw := [(d.toNat, 1)] }
  | .vmin d a b _ => { vr := [(a.toNat, 1), (b.toNat, 1)], vw := [(d.toNat, 1)] }
  | .vmax d a b _ => { vr := [(a.toNat, 1), (b.toNat, 1)], vw := [(d.toNat, 1)] }
  | .vabs d a _ => { vr := [(a.toNat, 1)], vw := [(d.toNat, 1)] }
  | .vneg d a _ => { vr := [(a.toNat, 1)], vw := [(d.toNat, 1)] }
  | .vclz d a _ => { vr := [(a.toNat, 1)], vw := [(d.toNat, 1)] }
  | .vpop d a _ => { vr := [(a.toNat, 1)], vw := [(d.toNat, 1)] }
  | .vmov d a _ => { vr := [(a.toNat, 1)], vw := [(d.toNat, 1)] }
  | .vselz d a b _ => { vr := [(a.toNat, 1), (b.toNat, 1), (d.toNat, 1)], vw := [(d.toNat, 1)] }
  | .vaddi d a _ => { vr := [(a.toNat, 1)], vw := [(d.toNat, 1)] }
  | .vandi d a _ => { vr := [(a.toNat, 1)], vw := [(d.toNat, 1)] }
  | .vli d _ => { vw := [(d.toNat, 1)] }
  | .vceq d a b _ => { vr := [(a.toNat, 1), (b.toNat, 1)], sw := [(d.toNat, 3)] }
  | .vcne d a b _ => { vr := [(a.toNat, 1), (b.toNat, 1)], sw := [(d.toNat, 3)] }
  | .vclt d a b _ => { vr := [(a.toNat, 1), (b.toNat, 1)], sw := [(d.toNat, 3)] }
  | .vcle d a b _ => { vr := [(a.toNat, 1), (b.toNat, 1)], sw := [(d.toNat, 3)] }
  | .vcltu d a b _ => { vr := [(a.toNat, 1), (b.toNat, 1)], sw := [(d.toNat, 3)] }
  | .vcleu d a b _ => { vr := [(a.toNat, 1), (b.toNat, 1)], sw := [(d.toNat, 3)] }
  | .vfceq d a b _ => { vr := [(a.toNat, 1), (b.toNat, 1)], sw := [(d.toNat, 3)] }
  | .vfcne d a b _ => { vr := [(a.toNat, 1), (b.toNat, 1)], sw := [(d.toNat, 3)] }
  | .vfclt d a b _ => { vr := [(a.toNat, 1), (b.toNat, 1)], sw := [(d.toNat, 3)] }
  | .vfcle d a b _ => { vr := [(a.toNat, 1), (b.toNat, 1)], sw := [(d.toNat, 3)] }
  | .vfcun d a b _ => { vr := [(a.toNat, 1), (b.toNat, 1)], sw := [(d.toNat, 3)] }
  | .vdotb d a b _ => { vr := [(a.toNat, 1), (b.toNat, 1), (d.toNat, 1)], vw := [(d.toNat, 1)] }
  | .vdotbs d a b _ => { vr := [(a.toNat, 1), (b.toNat, 1), (d.toNat, 1)], vw := [(d.toNat, 1)] }
  | .vdotub d a b _ => { vr := [(a.toNat, 1), (b.toNat, 1), (d.toNat, 1)], vw := [(d.toNat, 1)] }
  | .vdotubs d a b _ => { vr := [(a.toNat, 1), (b.toNat, 1), (d.toNat, 1)], vw := [(d.toNat, 1)] }
  | .vdotn d a b _ => { vr := [(a.toNat, 1), (b.toNat, 1), (d.toNat, 1)], vw := [(d.toNat, 1)] }
  | .vdotns d a b _ => { vr := [(a.toNat, 1), (b.toNat, 1), (d.toNat, 1)], vw := [(d.toNat, 1)] }
  | .vdoth d a b _ => { vr := [(a.toNat, 1), (b.toNat, 1), (d.toNat, 1)], vw := [(d.toNat, 1)] }
  | .vdotbf d a b _ => { vr := [(a.toNat, 1), (b.toNat, 1), (d.toNat, 1)], vw := [(d.toNat, 1)] }
  | .vfadd d a b _ => { vr := [(a.toNat, 1), (b.toNat, 1)], vw := [(d.toNat, 1)] }
  | .vfsub d a b _ => { vr := [(a.toNat, 1), (b.toNat, 1)], vw := [(d.toNat, 1)] }
  | .vfmul d a b _ => { vr := [(a.toNat, 1), (b.toNat, 1)], vw := [(d.toNat, 1)] }
  | .vfma d a b _ => { vr := [(a.toNat, 1), (b.toNat, 1), (d.toNat, 1)], vw := [(d.toNat, 1)] }
  | .vfms d a b _ => { vr := [(a.toNat, 1), (b.toNat, 1), (d.toNat, 1)], vw := [(d.toNat, 1)] }
  | .vfnma d a b _ => { vr := [(a.toNat, 1), (b.toNat, 1), (d.toNat, 1)], vw := [(d.toNat, 1)] }
  | .vfmin d a b _ => { vr := [(a.toNat, 1), (b.toNat, 1)], vw := [(d.toNat, 1)] }
  | .vfmax d a b _ => { vr := [(a.toNat, 1), (b.toNat, 1)], vw := [(d.toNat, 1)] }
  | .vfminn d a b _ => { vr := [(a.toNat, 1), (b.toNat, 1)], vw := [(d.toNat, 1)] }
  | .vfmaxn d a b _ => { vr := [(a.toNat, 1), (b.toNat, 1)], vw := [(d.toNat, 1)] }
  | .vfabs d a _ => { vr := [(a.toNat, 1)], vw := [(d.toNat, 1)] }
  | .vfneg d a _ => { vr := [(a.toNat, 1)], vw := [(d.toNat, 1)] }
  | .vfcps d a b _ => { vr := [(a.toNat, 1), (b.toNat, 1)], vw := [(d.toNat, 1)] }
  | .vfrnd d a _ => { vr := [(a.toNat, 1)], vw := [(d.toNat, 1)] }
  | .vftrc d a _ => { vr := [(a.toNat, 1)], vw := [(d.toNat, 1)] }
  | .vfclass d a _ => { vr := [(a.toNat, 1)], vw := [(d.toNat, 1)] }
  | .hadd d a b _ => { vr := [(a.toNat, 1), (b.toNat, 1)], vw := [(d.toNat, 1)] }
  | .hsub d a b _ => { vr := [(a.toNat, 1), (b.toNat, 1)], vw := [(d.toNat, 1)] }
  | .hmul d a b _ => { vr := [(a.toNat, 1), (b.toNat, 1)], vw := [(d.toNat, 1)] }
  | .hfma d a b _ => { vr := [(a.toNat, 1), (b.toNat, 1), (d.toNat, 1)], vw := [(d.toNat, 1)] }
  | .hmin d a b _ => { vr := [(a.toNat, 1), (b.toNat, 1)], vw := [(d.toNat, 1)] }
  | .hmax d a b _ => { vr := [(a.toNat, 1), (b.toNat, 1)], vw := [(d.toNat, 1)] }
  | .badd d a b _ => { vr := [(a.toNat, 1), (b.toNat, 1)], vw := [(d.toNat, 1)] }
  | .bmul d a b _ => { vr := [(a.toNat, 1), (b.toNat, 1)], vw := [(d.toNat, 1)] }
  | .bfma d a b _ => { vr := [(a.toNat, 1), (b.toNat, 1), (d.toNat, 1)], vw := [(d.toNat, 1)] }
  | .xcvt d a _ _ _ _ => { vr := [(a.toNat, 1)], vw := [(d.toNat, 1)] }
  | .xrcp d a _ => { vr := [(a.toNat, 1)], vw := [(d.toNat, 1)] }
  | .xrsq d a _ => { vr := [(a.toNat, 1)], vw := [(d.toNat, 1)] }
  | .xsqrt d a _ => { vr := [(a.toNat, 1)], vw := [(d.toNat, 1)] }
  | .xexp2 d a _ => { vr := [(a.toNat, 1)], vw := [(d.toNat, 1)] }
  | .xlog2 d a _ => { vr := [(a.toNat, 1)], vw := [(d.toNat, 1)] }
  | .xsin d a _ => { vr := [(a.toNat, 1)], vw := [(d.toNat, 1)] }
  | .xcos d a _ => { vr := [(a.toNat, 1)], vw := [(d.toNat, 1)] }
  | .xtanh d a _ => { vr := [(a.toNat, 1)], vw := [(d.toNat, 1)] }
  | .xdiv d a b _ => { vr := [(a.toNat, 1), (b.toNat, 1)], vw := [(d.toNat, 1)] }
  | .xpack6 d a _ => { vr := [(a.toNat, 1)], vw := [(d.toNat, 1)] }
  | .xunpk6 d a _ => { vr := [(a.toNat, 1)], vw := [(d.toNat, 1)] }
  | .xpack4 d a b _ => { vr := [(a.toNat, 1), (b.toNat, 1)], vw := [(d.toNat, 1)] }
  | .xunpk4 d a _ => { vr := [(a.toNat, 1)], vw := [(d.toNat, 2)] }
  | .xpackh d a b _ => { vr := [(a.toNat, 1), (b.toNat, 1)], vw := [(d.toNat, 1)] }
  | .xpackb d a b _ => { vr := [(a.toNat, 1), (b.toNat, 1), (d.toNat, 1)], vw := [(d.toNat, 1)] }
  | .xqnt4 d a b _ => { vr := [(a.toNat, 1), (b.toNat, 1)], vw := [(d.toNat, 1)] }
  | .xqnt8 d a b _ => { vr := [(a.toNat, 1), (b.toNat, 1)], vw := [(d.toNat, 1)] }
  | .xdqnt4 d a b _ => { vr := [(a.toNat, 1), (b.toNat, 1)], vw := [(d.toNat, 1)] }
  | .xdqnt8 d a b _ => { vr := [(a.toNat, 1), (b.toNat, 1)], vw := [(d.toNat, 1)] }
  | .xqmx d a b _ => { vr := [(a.toNat, 1), (b.toNat, 1)], vw := [(d.toNat, 1)] }
  | .xdqmx d a b _ => { vr := [(a.toNat, 1), (b.toNat, 1)], vw := [(d.toNat, 1)] }
  | .xamax d a b _ => { vr := [(a.toNat, 1), (b.toNat, 1)], vw := [(d.toNat, 1)] }
  | .xrngb d => { vw := [(d.toNat, 1)] }
  | .xrngu d => { vw := [(d.toNat, 1)] }
  | .xrngk d a b _ => { vr := [(a.toNat, 1), (b.toNat, 1)], vw := [(d.toNat, 1)] }
  | .xrngj a b _ => { vr := [(a.toNat, 1), (b.toNat, 1)] }
  | .wshf d a b _ => { vr := [(a.toNat, 1), (b.toNat, 1)], vw := [(d.toNat, 1)] }
  | .wshfi d a _ _ => { vr := [(a.toNat, 1)], vw := [(d.toNat, 1)] }
  | .wxor d a _ _ => { vr := [(a.toNat, 1)], vw := [(d.toNat, 1)] }
  | .wup d a _ _ => { vr := [(a.toNat, 1)], vw := [(d.toNat, 1)] }
  | .wdn d a _ _ => { vr := [(a.toNat, 1)], vw := [(d.toNat, 1)] }
  | .wbc d a _ => { vw := [(d.toNat, 1)], sr := [(a.toNat, 1)] }
  | .wscan d a _ => { vr := [(a.toNat, 1)], vw := [(d.toNat, 1)] }
  | .wscanx d a _ => { vr := [(a.toNat, 1)], vw := [(d.toNat, 1)] }
  | .wscanf d a _ => { vr := [(a.toNat, 1)], vw := [(d.toNat, 1)] }
  | .wscanmin d a _ => { vr := [(a.toNat, 1)], vw := [(d.toNat, 1)] }
  | .wscanmax d a _ => { vr := [(a.toNat, 1)], vw := [(d.toNat, 1)] }
  | .wred d a _ => { vr := [(a.toNat, 1)], vw := [(d.toNat, 1)] }
  | .wredf d a _ => { vr := [(a.toNat, 1)], vw := [(d.toNat, 1)] }
  | .wredmin d a _ => { vr := [(a.toNat, 1)], vw := [(d.toNat, 1)] }
  | .wredmax d a _ => { vr := [(a.toNat, 1)], vw := [(d.toNat, 1)] }
  | .wredand d a _ => { vr := [(a.toNat, 1)], vw := [(d.toNat, 1)] }
  | .wredor d a _ => { vr := [(a.toNat, 1)], vw := [(d.toNat, 1)] }
  | .wvote d a _ => { vr := [(a.toNat, 1)], sw := [(d.toNat, 3)] }
  | .wany d a _ => { vr := [(a.toNat, 1)], sw := [(d.toNat, 1)] }
  | .wall d a _ => { vr := [(a.toNat, 1)], sw := [(d.toNat, 1)] }
  | .wcomp d a b _ => { vr := [(a.toNat, 1), (b.toNat, 1)], vw := [(d.toNat, 1)] }
  | .wmaxi d a b _ => { vr := [(a.toNat, 1), (b.toNat, 1)], vw := [(d.toNat, 2)] }
  | .wflg d _ => { sw := [(d.toNat, 3)] }
  | .wflclr _ => {}
  | .ldb d a s _ => { vr := [(a.toNat, 1)], vw := [(d.toNat, 1)], sr := [(2 * s.toNat, 2)] }
  | .ldbu d a s _ => { vr := [(a.toNat, 1)], vw := [(d.toNat, 1)], sr := [(2 * s.toNat, 2)] }
  | .ldh d a s _ => { vr := [(a.toNat, 1)], vw := [(d.toNat, 1)], sr := [(2 * s.toNat, 2)] }
  | .ldhu d a s _ => { vr := [(a.toNat, 1)], vw := [(d.toNat, 1)], sr := [(2 * s.toNat, 2)] }
  | .ldw d a s _ => { vr := [(a.toNat, 1)], vw := [(d.toNat, 1)], sr := [(2 * s.toNat, 2)] }
  | .ldd d a s _ => { vr := [(a.toNat, 1)], vw := [(d.toNat, 2)], sr := [(2 * s.toNat, 2)] }
  | .ldq d a s _ => { vr := [(a.toNat, 1)], vw := [(d.toNat, 4)], sr := [(2 * s.toNat, 2)] }
  | .sldw d a s _ => { sr := [(a.toNat, 1), (2 * s.toNat, 2)], sw := [(d.toNat, 1)] }
  | .sldd d a s _ => { sr := [(a.toNat, 1), (2 * s.toNat, 2)], sw := [(d.toNat, 2)] }
  | .sldq d a s _ => { sr := [(a.toNat, 1), (2 * s.toNat, 2)], sw := [(d.toNat, 4)] }
  | .stb d a s _ => { vr := [(a.toNat, 1), (d.toNat, 1)], sr := [(2 * s.toNat, 2)] }
  | .sth d a s _ => { vr := [(a.toNat, 1), (d.toNat, 1)], sr := [(2 * s.toNat, 2)] }
  | .stw d a s _ => { vr := [(a.toNat, 1), (d.toNat, 1)], sr := [(2 * s.toNat, 2)] }
  | .std d a s _ => { vr := [(a.toNat, 1), (d.toNat, 2)], sr := [(2 * s.toNat, 2)] }
  | .stq d a s _ => { vr := [(a.toNat, 1), (d.toNat, 4)], sr := [(2 * s.toNat, 2)] }
  | .st64 d a s _ => { vr := [(a.toNat, 1), (d.toNat, 16)], sr := [(2 * s.toNat, 2)] }
  | .sstw d a s _ => { sr := [(a.toNat, 1), (d.toNat, 1), (2 * s.toNat, 2)] }
  | .sstd d a s _ => { sr := [(a.toNat, 1), (d.toNat, 2), (2 * s.toNat, 2)] }
  | .lldw d a s => { vr := [(a.toNat, 1)], vw := [(d.toNat, 1)], sr := [(2 * s.toNat, 1)] }
  | .lldq d a s => { vr := [(a.toNat, 1)], vw := [(d.toNat, 4)], sr := [(2 * s.toNat, 1)] }
  | .lstw d a s => { vr := [(a.toNat, 1), (d.toNat, 1)], sr := [(2 * s.toNat, 1)] }
  | .lstq d a s => { vr := [(a.toNat, 1), (d.toNat, 4)], sr := [(2 * s.toNat, 1)] }
  | .lpush d a s => { vr := [(d.toNat, 1)], vw := [(a.toNat, 1)], sr := [(2 * s.toNat, 1)] }
  | .lpop d a s => { vw := [(d.toNat, 1), (a.toNat, 1)], sr := [(2 * s.toNat, 1)] }
  | .laadd d a s => { vr := [(a.toNat, 1), (d.toNat, 1)], vw := [(d.toNat, 1)], sr := [(2 * s.toNat, 1)] }
  | .lamin d a s => { vr := [(a.toNat, 1), (d.toNat, 1)], vw := [(d.toNat, 1)], sr := [(2 * s.toNat, 1)] }
  | .lamax d a s => { vr := [(a.toNat, 1), (d.toNat, 1)], vw := [(d.toNat, 1)], sr := [(2 * s.toNat, 1)] }
  | .laxch d a s => { vr := [(a.toNat, 1), (d.toNat, 1)], vw := [(d.toNat, 1)], sr := [(2 * s.toNat, 1)] }
  | .aadd d a s _ => atomUse d a 1 1 s
  | .amin d a s _ => atomUse d a 1 1 s
  | .amax d a s _ => atomUse d a 1 1 s
  | .aand d a s _ => atomUse d a 1 1 s
  | .aor d a s _ => atomUse d a 1 1 s
  | .axor d a s _ => atomUse d a 1 1 s
  | .axch d a s _ => atomUse d a 1 1 s
  | .acas d a s _ => atomUse d a 2 1 s
  | .afadd d a s _ => atomUse d a 1 1 s
  | .afmin d a s _ => atomUse d a 1 1 s
  | .afmax d a s _ => atomUse d a 1 1 s
  | .amxi d a s _ => atomUse d a 2 2 s
  | .acq => {}
  | .rel => {}
  | .acqrel => {}
  | .fsmp => {}
  | .fbvh => {}
  | .ffar s _ => { sr := [(2 * s.toNat, 2)] }
  | .pref _ s _ => { sr := [(2 * s.toNat, 2)] }
  | .invl s _ => { sr := [(2 * s.toNat, 2)] }
  | .esta d a s _ => { vr := [(a.toNat, 1), (d.toNat, 1)], sr := [(2 * s.toNat, 2)] }
  | .estw d a s _ => { vr := [(a.toNat, 1), (d.toNat, 2)], sr := [(2 * s.toNat, 2)] }
  | .estg d a s _ => { vr := [(a.toNat, 1), (d.toNat, 3)], sr := [(2 * s.toNat, 2)] }
  | .emrg d a s _ => { vr := [(a.toNat, 1), (d.toNat, 4)], sr := [(2 * s.toNat, 2)] }
  | .eld d a s _ => { vr := [(a.toNat, 1)], vw := [(d.toNat, 4)], sr := [(2 * s.toNat, 2)] }
  | .eldr d a s _ => { vr := [(a.toNat, 1)], vw := [(d.toNat, 4)], sr := [(2 * s.toNat, 2)] }
  | .egen d a s _ => { vr := [(a.toNat, 1), (d.toNat, 1)], sr := [(2 * s.toNat, 2)] }
  | .ewatch d a s => { sr := [(a.toNat, 1), (2 * s.toNat, 2)], sw := [(d.toNat, 1)] }
  | .eunw d a => { sr := [(a.toNat, 1)], sw := [(d.toNat, 1)] }
  | .cmpt d a s _ => { vr := [(a.toNat, 1), (d.toNat, 5)], sr := [(2 * s.toNat, 2)] }
  | .clda d a s _ => { vr := [(a.toNat, 1)], vw := [(d.toNat, 5)], sr := [(2 * s.toNat, 2)] }
  | .cflush a s _ => { vr := [(a.toNat, 1)], sr := [(2 * s.toNat, 2)] }
  | .cclr a s _ => { vr := [(a.toNat, 1)], sr := [(2 * s.toNat, 2)] }
  | .crep d a s _ => { vr := [(a.toNat, 1), (d.toNat, 4)], vw := [(d.toNat, 5)], sr := [(2 * s.toNat, 2)] }
  | .cbind d a s => { sr := [(a.toNat, 1), (d.toNat, 1), (2 * s.toNat, 2)], sw := [(d.toNat, 1)] }
  | .bar _ => {}
  | .bara _ => {}
  | .barw _ => {}
  | .barx _ n => { sr := [(n.toNat, 1)] }
  | .oapp d n _ => { sr := [(n.toNat, 1)], sw := [(d.toNat, 1)] }
  | .odecl _ => {}
  | .lget => {}
  | .lpass => {}
  | .smpp d a s _ => { vr := [(a.toNat, 3)], vw := [(d.toNat, 4)], sr := [(2 * s.toNat, 2)] }
  | .smpb d a s _ => { vr := [(a.toNat, 3)], vw := [(d.toNat, 4)], sr := [(2 * s.toNat, 2)] }
  | .smpt d a s _ => { vr := [(a.toNat, 3)], vw := [(d.toNat, 4)], sr := [(2 * s.toNat, 2)] }
  | .smpa d a s _ => { vr := [(a.toNat, 5)], vw := [(d.toNat, 4)], sr := [(2 * s.toNat, 2)] }
  | .smpg d a s _ => { vr := [(a.toNat, 4)], vw := [(d.toNat, 4)], sr := [(2 * s.toNat, 2)] }
  | .sfet d a s _ => { vr := [(a.toNat, 3)], vw := [(d.toNat, 4)], sr := [(2 * s.toNat, 2)] }
  | .slat d a s _ => { vr := [(a.toNat, 3)], vw := [(d.toNat, 4)], sr := [(2 * s.toNat, 2)] }
  | .sqry d a s _ => { vr := [(a.toNat, 1)], vw := [(d.toNat, 4)], sr := [(2 * s.toNat, 2)] }
  | .dtbind d s => { sr := [(d.toNat, 1), (2 * s.toNat, 2)], sw := [(d.toNat, 1)] }
  | .dtunb d => { sr := [(d.toNat, 1)], sw := [(d.toNat, 1)] }
  | .dtqry d => { sr := [(d.toNat, 1)], sw := [(d.toNat, 1)] }
  | .trace d a s => { vr := [(a.toNat, 8)], vw := [(d.toNat, 6)], sr := [(2 * s.toNat, 2)] }
  | .tracea d a s => { vr := [(a.toNat, 8)], vw := [(d.toNat, 6)], sr := [(2 * s.toNat, 2)] }
  | .tcall p a s => { vr := [(a.toNat, 11), (0, p.toNat)], vw := [(a.toNat + 8, 1)], sr := [(2 * s.toNat, 2)] }
  | .trres d => { vw := [(d.toNat, 3)] }
  | .rdraw d s => { sr := [(2 * s.toNat, 2)], sw := [(d.toNat, 1)] }
  | .rwait d => { sr := [(d.toNat, 1)], sw := [(d.toNat, 1)] }
  | .wgenq d n a => { vr := [(a.toNat, 1)], vw := [(d.toNat, 1)], sr := [(n.toNat, 1)] }
  | .launch d s => { sr := [(2 * s.toNat, 2)], sw := [(d.toNat, 1)] }
  | .wgfin => {}
  | .mldf d n => { sr := [(n.toNat, 1)], sw := [(d.toNat, 1)] }
  | .mma _ a b => { sr := [(a.toNat, 1), (b.toNat, 1)] }
  | .mmaz _ a b => { sr := [(a.toNat, 1), (b.toNat, 1)] }
  | .mpost _ _ a b => { sr := [(a.toNat, 1), (b.toNat, 1)] }
  | .mwait _ _ => {}
  | .mdrain _ a b => { sr := [(a.toNat, 1), (b.toNat, 1)] }
  | .mfill _ a b => { sr := [(a.toNat, 1), (b.toNat, 1)] }
  | .mvnb d a => { sr := [(a.toNat, 1)], sw := [(d.toNat, 1)] }
  | .mvwait => {}
  | .hload d a s _ => { sr := [(a.toNat, 1), (2 * s.toNat, 2)], sw := [(d.toNat, 1)] }
  | .hstore d a s _ => { sr := [(a.toNat, 1), (2 * s.toNat, 2)], sw := [(d.toNat, 1)] }
  | .hmcast d a s _ => { sr := [(a.toNat, 1), (2 * s.toNat, 2)], sw := [(d.toNat, 1)] }
  | .hpref d a s _ => { sr := [(a.toNat, 1), (2 * s.toNat, 2)], sw := [(d.toNat, 1)] }
  | .hbatch d => { sw := [(d.toNat, 1)] }
  | .waitb n => { sr := [(n.toNat, 1)] }
  | .hqry d a s _ => { sr := [(a.toNat, 1), (2 * s.toNat, 2)], sw := [(d.toNat, 1)] }
  | .trap _ => {}
  | .rte => {}
  | .scall _ => { sr := [(8, 8)] }
  | .ctlr d _ => { sw := [(d.toNat, 1)] }
  | .ctlw _ a => { sr := [(a.toNat, 1)] }
  | .bkpt _ => {}
  | .exit => {}
  | .rdtime d => { sw := [(d.toNat, 2)] }
  | .const _ => {}
  | .nonInstruction _ => {}
  | .longLatencyReturn _ _ _ => {}
  | .joinArrive _ _ => {}
  | .splitLeave _ _ => {}
  | .workgroupRetire _ => {}
  | .yieldExpiry _ _ => {}
  | .progressPromote _ _ => {}
  | .writeQueueEnter _ => {}
  | .storeReachHome _ _ => {}
  | .revoke _ _ _ => {}
  | .storeAck _ _ => {}
  | .loadReturn _ _ _ _ => {}
  | .atomicApply _ _ => {}
  | .orderGateAdmit _ _ => {}
  | .orderGateTimeout _ _ => {}
  | .faultMap _ _ => {}
  | .faultDeny _ => {}
  | .faultPoison _ => {}
  | .faultRetry _ => {}
  | .farStoreAck _ _ => {}
  | .farTimeout _ _ _ => {}
  | .cxlLinkLoss _ => {}
  | .poisonTrapDeferred _ _ => {}
  | .softError _ _ => {}
  | .rangeLockRelease _ _ => {}
  | .estContributeApply _ _ => {}
  | .estMergeApply _ _ => {}
  | .estGenApply _ _ => {}
  | .estdropAck _ => {}
  | .watchSweep _ => {}
  | .cmpTermArrive _ _ => {}
  | .crucibleHoldExpire _ => {}
  | .matGrant _ _ => {}
  | .matEntryComplete _ _ => {}
  | .mvnbComplete _ _ => {}
  | .hamperOpStart _ _ => {}
  | .hamperOpComplete _ _ => {}
  | .hmcastShareLand _ _ _ => {}
  | .traceLaneFinish _ _ => {}
  | .traceComplete _ => {}
  | .rasterTriangle _ => {}
  | .rasterTileRecord _ _ => {}
  | .nodeGroupTimer _ _ => {}
  | .workgroupPlace => {}
  | .shadowSwap _ _ _ => {}
  | .shadowSaveTimeout _ _ => {}
  | .fullSave _ _ => {}
  | .restore _ => {}
  | .ladleHandon _ => {}
  | .ladleVisitTimeout _ => {}
  | .oappGrant _ _ => {}
  | .scallAnswer _ _ _ => {}
  | .bkptResume _ _ => {}
  | .clmBankModeWrite _ _ => {}
  | .clmBankRefusedClear _ _ => {}
  | .loopCounterWrite _ _ => {}
  | .hstatClear _ => {}
  | .sstatClear _ _ => {}
  | .mstatClear _ => {}
  | .trapStateWrite _ _ => {}
  | .bandRise _ _ _ => {}
  | .bandFall _ _ _ => {}
  | .soakStable => {}
  | .trainComplete => {}
  | .trainFail => {}
  | .excursionClear => {}
  | .flaskCool => {}
  | .flaskWarm => {}
  | .flaskResume => {}
  | .flaskService => {}
  | .excursionClr => {}
  | .stackwinWrite _ => {}
  | .cxlDownClear _ => {}
  | .platformRegisterWrite _ _ => {}
  | .dutyRequestAnswer _ => {}
  | .refreshRow _ _ => {}
  | .scrubPassStart _ => {}
  | .scrubSector _ _ _ => {}
  | .scrubEscalate _ _ => {}
  | .deviceReset _ _ => {}
  | .hostLoad _ _ _ _ _ => {}
  | .hostUnload _ _ _ => {}
  | .hostLaunch _ _ _ => {}
  | .hostAlloc _ _ _ _ _ => {}
  | .hostCopy _ _ _ => {}
  | .hostAttest _ _ => {}
  | .hostEvents _ _ => {}
  | .hostFree _ _ _ _ _ => {}
  | .hostUnknownRequest _ _ => {}
  | .decroTransferArrive _ _ _ => {}
  | .decroLinkLoss _ => {}
  | .loadComplete _ => {}
  | .regionTeardown _ => {}
  | .runEnd _ => {}
  | .pageRetire _ _ _ => {}
  | .cxlLinkUp _ => {}
  | .rowBinning _ _ _ => {}
  | .bloomFilterLoad _ _ _ => {}

/-- The pipe of a word's major opcode (R27). -/
def pipeOf (op : Nat) : Pipe :=
  match op with
  | 0x00 => .s
  | 0x01 => .s
  | 0x02 => .s
  | 0x03 => .s
  | 0x04 => .s
  | 0x05 => .s
  | 0x06 => .s
  | 0x07 => .s
  | 0x08 => .v
  | 0x09 => .v
  | 0x0A => .v
  | 0x0B => .v
  | 0x0C => .v
  | 0x0D => .v
  | 0x0E => .v
  | 0x0F => .v
  | 0x10 => .x
  | 0x11 => .x
  | 0x12 => .x
  | 0x13 => .x
  | 0x14 => .x
  | 0x15 => .v
  | 0x18 => .m
  | 0x19 => .m
  | 0x1A => .m
  | 0x1B => .m
  | 0x1C => .m
  | 0x1D => .m
  | 0x1E => .m
  | 0x1F => .m
  | 0x20 => .t
  | 0x21 => .t
  | 0x22 => .t
  | 0x23 => .t
  | 0x24 => .m
  | 0x28 => .m
  | 0x2C => .m
  | 0x3E => .s
  | 0x3F => .none
  | _ => .none

/-- The words that a CONST may follow (R23). -/
def takesConst (i : Instr) : Bool :=
  match i with
  | .nop => false
  | .mjoin _ => true
  | .join => false
  | .ret => false
  | .jmpr _ => false
  | .loop _ _ => false
  | .loopi _ _ => true
  | .lbrk => false
  | .yield _ => true
  | .waitx _ => false
  | .br _ => true
  | .call _ => true
  | .bru _ _ _ => true
  | .brs _ _ _ => true
  | .sadd _ _ _ _ => false
  | .ssub _ _ _ _ => false
  | .smul _ _ _ _ => false
  | .smulh _ _ _ _ => false
  | .sdiv _ _ _ _ => false
  | .sdivu _ _ _ _ => false
  | .srem _ _ _ _ => false
  | .sand _ _ _ _ => false
  | .sor _ _ _ _ => false
  | .sxor _ _ _ _ => false
  | .sshl _ _ _ _ => false
  | .sshr _ _ _ _ => false
  | .ssra _ _ _ _ => false
  | .sshli _ _ _ _ => false
  | .sshri _ _ _ _ => false
  | .ssrai _ _ _ _ => false
  | .smin _ _ _ _ => false
  | .smax _ _ _ _ => false
  | .sceq _ _ _ _ => false
  | .sclt _ _ _ _ => false
  | .scltu _ _ _ _ => false
  | .ssel _ _ _ _ => false
  | .sclz _ _ _ => false
  | .spop _ _ _ => false
  | .smov _ _ _ => false
  | .saddi _ _ _ => true
  | .sandi _ _ _ => true
  | .sori _ _ _ => true
  | .vadd _ _ _ _ => false
  | .vsub _ _ _ _ => false
  | .vmul _ _ _ _ => false
  | .vmulh _ _ _ _ => false
  | .vmad _ _ _ _ => false
  | .vand _ _ _ _ => false
  | .vor _ _ _ _ => false
  | .vxor _ _ _ _ => false
  | .vnot _ _ _ => false
  | .vshl _ _ _ _ => false
  | .vshr _ _ _ _ => false
  | .vsra _ _ _ _ => false
  | .vshli _ _ _ _ => false
  | .vshri _ _ _ _ => false
  | .vsrai _ _ _ _ => false
  | .vmin _ _ _ _ => false
  | .vmax _ _ _ _ => false
  | .vabs _ _ _ => false
  | .vneg _ _ _ => false
  | .vclz _ _ _ => false
  | .vpop _ _ _ => false
  | .vmov _ _ _ => false
  | .vselz _ _ _ _ => false
  | .vaddi _ _ _ => true
  | .vandi _ _ _ => true
  | .vli _ _ => true
  | .vceq _ _ _ _ => false
  | .vcne _ _ _ _ => false
  | .vclt _ _ _ _ => false
  | .vcle _ _ _ _ => false
  | .vcltu _ _ _ _ => false
  | .vcleu _ _ _ _ => false
  | .vfceq _ _ _ _ => false
  | .vfcne _ _ _ _ => false
  | .vfclt _ _ _ _ => false
  | .vfcle _ _ _ _ => false
  | .vfcun _ _ _ _ => false
  | .vdotb _ _ _ _ => false
  | .vdotbs _ _ _ _ => false
  | .vdotub _ _ _ _ => false
  | .vdotubs _ _ _ _ => false
  | .vdotn _ _ _ _ => false
  | .vdotns _ _ _ _ => false
  | .vdoth _ _ _ _ => false
  | .vdotbf _ _ _ _ => false
  | .vfadd _ _ _ _ => false
  | .vfsub _ _ _ _ => false
  | .vfmul _ _ _ _ => false
  | .vfma _ _ _ _ => false
  | .vfms _ _ _ _ => false
  | .vfnma _ _ _ _ => false
  | .vfmin _ _ _ _ => false
  | .vfmax _ _ _ _ => false
  | .vfminn _ _ _ _ => false
  | .vfmaxn _ _ _ _ => false
  | .vfabs _ _ _ => false
  | .vfneg _ _ _ => false
  | .vfcps _ _ _ _ => false
  | .vfrnd _ _ _ => false
  | .vftrc _ _ _ => false
  | .vfclass _ _ _ => false
  | .hadd _ _ _ _ => false
  | .hsub _ _ _ _ => false
  | .hmul _ _ _ _ => false
  | .hfma _ _ _ _ => false
  | .hmin _ _ _ _ => false
  | .hmax _ _ _ _ => false
  | .badd _ _ _ _ => false
  | .bmul _ _ _ _ => false
  | .bfma _ _ _ _ => false
  | .xcvt _ _ _ _ _ _ => false
  | .xrcp _ _ _ => false
  | .xrsq _ _ _ => false
  | .xsqrt _ _ _ => false
  | .xexp2 _ _ _ => false
  | .xlog2 _ _ _ => false
  | .xsin _ _ _ => false
  | .xcos _ _ _ => false
  | .xtanh _ _ _ => false
  | .xdiv _ _ _ _ => false
  | .xpack6 _ _ _ => false
  | .xunpk6 _ _ _ => false
  | .xpack4 _ _ _ _ => false
  | .xunpk4 _ _ _ => false
  | .xpackh _ _ _ _ => false
  | .xpackb _ _ _ _ => false
  | .xqnt4 _ _ _ _ => false
  | .xqnt8 _ _ _ _ => false
  | .xdqnt4 _ _ _ _ => false
  | .xdqnt8 _ _ _ _ => false
  | .xqmx _ _ _ _ => false
  | .xdqmx _ _ _ _ => false
  | .xamax _ _ _ _ => false
  | .xrngb _ => false
  | .xrngu _ => false
  | .xrngk _ _ _ _ => false
  | .xrngj _ _ _ => false
  | .wshf _ _ _ _ => false
  | .wshfi _ _ _ _ => false
  | .wxor _ _ _ _ => false
  | .wup _ _ _ _ => false
  | .wdn _ _ _ _ => false
  | .wbc _ _ _ => false
  | .wscan _ _ _ => false
  | .wscanx _ _ _ => false
  | .wscanf _ _ _ => false
  | .wscanmin _ _ _ => false
  | .wscanmax _ _ _ => false
  | .wred _ _ _ => false
  | .wredf _ _ _ => false
  | .wredmin _ _ _ => false
  | .wredmax _ _ _ => false
  | .wredand _ _ _ => false
  | .wredor _ _ _ => false
  | .wvote _ _ _ => false
  | .wany _ _ _ => false
  | .wall _ _ _ => false
  | .wcomp _ _ _ _ => false
  | .wmaxi _ _ _ _ => false
  | .wflg _ _ => false
  | .wflclr _ => false
  | .ldb _ _ _ _ => false
  | .ldbu _ _ _ _ => false
  | .ldh _ _ _ _ => false
  | .ldhu _ _ _ _ => false
  | .ldw _ _ _ _ => false
  | .ldd _ _ _ _ => false
  | .ldq _ _ _ _ => false
  | .sldw _ _ _ _ => false
  | .sldd _ _ _ _ => false
  | .sldq _ _ _ _ => false
  | .stb _ _ _ _ => false
  | .sth _ _ _ _ => false
  | .stw _ _ _ _ => false
  | .std _ _ _ _ => false
  | .stq _ _ _ _ => false
  | .st64 _ _ _ _ => false
  | .sstw _ _ _ _ => false
  | .sstd _ _ _ _ => false
  | .lldw _ _ _ => false
  | .lldq _ _ _ => false
  | .lstw _ _ _ => false
  | .lstq _ _ _ => false
  | .lpush _ _ _ => false
  | .lpop _ _ _ => false
  | .laadd _ _ _ => false
  | .lamin _ _ _ => false
  | .lamax _ _ _ => false
  | .laxch _ _ _ => false
  | .aadd _ _ _ _ => false
  | .amin _ _ _ _ => false
  | .amax _ _ _ _ => false
  | .aand _ _ _ _ => false
  | .aor _ _ _ _ => false
  | .axor _ _ _ _ => false
  | .axch _ _ _ _ => false
  | .acas _ _ _ _ => false
  | .afadd _ _ _ _ => false
  | .afmin _ _ _ _ => false
  | .afmax _ _ _ _ => false
  | .amxi _ _ _ _ => false
  | .acq => false
  | .rel => false
  | .acqrel => false
  | .fsmp => false
  | .fbvh => false
  | .ffar _ _ => false
  | .pref _ _ _ => false
  | .invl _ _ => false
  | .esta _ _ _ _ => false
  | .estw _ _ _ _ => false
  | .estg _ _ _ _ => false
  | .emrg _ _ _ _ => false
  | .eld _ _ _ _ => false
  | .eldr _ _ _ _ => false
  | .egen _ _ _ _ => false
  | .ewatch _ _ _ => false
  | .eunw _ _ => false
  | .cmpt _ _ _ _ => false
  | .clda _ _ _ _ => false
  | .cflush _ _ _ => false
  | .cclr _ _ _ => false
  | .crep _ _ _ _ => false
  | .cbind _ _ _ => false
  | .bar _ => false
  | .bara _ => false
  | .barw _ => false
  | .barx _ _ => false
  | .oapp _ _ _ => false
  | .odecl _ => false
  | .lget => false
  | .lpass => false
  | .smpp _ _ _ _ => false
  | .smpb _ _ _ _ => false
  | .smpt _ _ _ _ => false
  | .smpa _ _ _ _ => false
  | .smpg _ _ _ _ => false
  | .sfet _ _ _ _ => false
  | .slat _ _ _ _ => false
  | .sqry _ _ _ _ => false
  | .dtbind _ _ => false
  | .dtunb _ => false
  | .dtqry _ => false
  | .trace _ _ _ => false
  | .tracea _ _ _ => false
  | .tcall _ _ _ => false
  | .trres _ => false
  | .rdraw _ _ => false
  | .rwait _ => false
  | .wgenq _ _ _ => false
  | .launch _ _ => false
  | .wgfin => false
  | .mldf _ _ => false
  | .mma _ _ _ => false
  | .mmaz _ _ _ => false
  | .mpost _ _ _ _ => false
  | .mwait _ _ => false
  | .mdrain _ _ _ => false
  | .mfill _ _ _ => false
  | .mvnb _ _ => false
  | .mvwait => false
  | .hload _ _ _ _ => false
  | .hstore _ _ _ _ => false
  | .hmcast _ _ _ _ => false
  | .hpref _ _ _ _ => false
  | .hbatch _ => false
  | .waitb _ => false
  | .hqry _ _ _ _ => false
  | .trap _ => false
  | .rte => false
  | .scall _ => false
  | .ctlr _ _ => false
  | .ctlw _ _ => false
  | .bkpt _ => false
  | .exit => false
  | .rdtime _ => false
  | .const _ => false
  | .nonInstruction _ => false
  | .longLatencyReturn _ _ _ => false
  | .joinArrive _ _ => false
  | .splitLeave _ _ => false
  | .workgroupRetire _ => false
  | .yieldExpiry _ _ => false
  | .progressPromote _ _ => false
  | .writeQueueEnter _ => false
  | .storeReachHome _ _ => false
  | .revoke _ _ _ => false
  | .storeAck _ _ => false
  | .loadReturn _ _ _ _ => false
  | .atomicApply _ _ => false
  | .orderGateAdmit _ _ => false
  | .orderGateTimeout _ _ => false
  | .faultMap _ _ => false
  | .faultDeny _ => false
  | .faultPoison _ => false
  | .faultRetry _ => false
  | .farStoreAck _ _ => false
  | .farTimeout _ _ _ => false
  | .cxlLinkLoss _ => false
  | .poisonTrapDeferred _ _ => false
  | .softError _ _ => false
  | .rangeLockRelease _ _ => false
  | .estContributeApply _ _ => false
  | .estMergeApply _ _ => false
  | .estGenApply _ _ => false
  | .estdropAck _ => false
  | .watchSweep _ => false
  | .cmpTermArrive _ _ => false
  | .crucibleHoldExpire _ => false
  | .matGrant _ _ => false
  | .matEntryComplete _ _ => false
  | .mvnbComplete _ _ => false
  | .hamperOpStart _ _ => false
  | .hamperOpComplete _ _ => false
  | .hmcastShareLand _ _ _ => false
  | .traceLaneFinish _ _ => false
  | .traceComplete _ => false
  | .rasterTriangle _ => false
  | .rasterTileRecord _ _ => false
  | .nodeGroupTimer _ _ => false
  | .workgroupPlace => false
  | .shadowSwap _ _ _ => false
  | .shadowSaveTimeout _ _ => false
  | .fullSave _ _ => false
  | .restore _ => false
  | .ladleHandon _ => false
  | .ladleVisitTimeout _ => false
  | .oappGrant _ _ => false
  | .scallAnswer _ _ _ => false
  | .bkptResume _ _ => false
  | .clmBankModeWrite _ _ => false
  | .clmBankRefusedClear _ _ => false
  | .loopCounterWrite _ _ => false
  | .hstatClear _ => false
  | .sstatClear _ _ => false
  | .mstatClear _ => false
  | .trapStateWrite _ _ => false
  | .bandRise _ _ _ => false
  | .bandFall _ _ _ => false
  | .soakStable => false
  | .trainComplete => false
  | .trainFail => false
  | .excursionClear => false
  | .flaskCool => false
  | .flaskWarm => false
  | .flaskResume => false
  | .flaskService => false
  | .excursionClr => false
  | .stackwinWrite _ => false
  | .cxlDownClear _ => false
  | .platformRegisterWrite _ _ => false
  | .dutyRequestAnswer _ => false
  | .refreshRow _ _ => false
  | .scrubPassStart _ => false
  | .scrubSector _ _ _ => false
  | .scrubEscalate _ _ => false
  | .deviceReset _ _ => false
  | .hostLoad _ _ _ _ _ => false
  | .hostUnload _ _ _ => false
  | .hostLaunch _ _ _ => false
  | .hostAlloc _ _ _ _ _ => false
  | .hostCopy _ _ _ => false
  | .hostAttest _ _ => false
  | .hostEvents _ _ => false
  | .hostFree _ _ _ _ _ => false
  | .hostUnknownRequest _ _ => false
  | .decroTransferArrive _ _ _ => false
  | .decroLinkLoss _ => false
  | .loadComplete _ => false
  | .regionTeardown _ => false
  | .runEnd _ => false
  | .pageRetire _ _ _ => false
  | .cxlLinkUp _ => false
  | .rowBinning _ _ _ => false
  | .bloomFilterLoad _ _ _ => false

/-- The scalar loads and stores, which the MCC runs (R28). -/
def scalarMem (i : Instr) : Bool :=
  match i with
  | .sldw .. | .sldd .. | .sldq .. | .sstw .. | .sstd .. => true
  | _ => false

/-- The MCC runs the words of these opcodes, and of LD and ST the scalar forms; a wave runs all but MAT (R28). -/
def kindRuns (mcc : Bool) (op : Nat) (i : Instr) : Bool :=
  if mcc then op ≤ 7 || op == 0x28 || op == 0x2C || op == 0x1F || op == 0x3E || op == 0x3F || scalarMem i
  else op != 0x28

/-- The control register numbers of a wave alone, and of the MCC alone (R360). -/
def ctlForKind (mcc : Bool) (n : Nat) : Bool :=
  let waveOnly := n == 0 || (0x008 ≤ n && n ≤ 0x00C) || n == 0x00F || n == 0x010 || (0x040 ≤ n && n ≤ 0x087)
  let mccOnly := n == 0x011 || n == 0x012
  if mcc then !waveOnly else !mccOnly

/-- CTLR and CTLW name a register of the thread's kind, and a ctl.vtag below VREGS (R359). -/
def ctlOk (mcc : Bool) (vregs : Nat) (i : Instr) : Bool :=
  let ok (r : BitVec 12) : Bool :=
    ctlForKind mcc r.toNat && (r.toNat < 0x040 || 0x080 ≤ r.toNat || r.toNat - 0x040 < vregs)
  match i with
  | .ctlr _ r => ok r
  | .ctlw r _ => ok r
  | _ => true

/-- Every vector register that the word names lies below VREGS (R50). -/
def vregsOk (vregs : Nat) (i : Instr) : Bool :=
  let u := uses i
  (u.vr ++ u.vw).all (fun (n, k) => k == 0 || n + k ≤ vregs)

/-- Two runs share a register. -/
def runsMeet (a b : List (Nat × Nat)) : Bool :=
  a.any (fun (n, k) => b.any (fun (m, j) => n < m + j && m < n + k))

/-- The registers of runs, as bits. -/
def runBits (a : List (Nat × Nat)) : BitVec 64 :=
  a.foldl (fun b (n, k) => (List.range k).foldl (fun b i => b ||| ((1 : BitVec 64) <<< (n + i))) b) 0

/-- The class of the long-latency result of an M-pipe or T-pipe word (R76). -/
def resultClass (i : Instr) : Nat :=
  match i with
  | .smpp .. | .smpb .. | .smpt .. | .smpa .. | .smpg .. | .sfet .. | .slat .. | .sqry .. => 1
  | .trace .. | .tracea .. | .tcall .. | .rdraw .. | .rwait .. => 2
  | .mldf .. | .mvnb .. | .hload .. | .hstore .. | .hmcast .. | .hpref .. | .hbatch .. | .hqry .. => 3
  | _ => 0

/-- The long-latency result that an M-pipe or T-pipe word gives, if it gives one (R77). -/
def owedBy (i : Instr) : Option Owed :=
  let u := uses i
  if u.vw.isEmpty && u.sw.isEmpty then none else some ⟨resultClass i, u.vw, u.sw⟩

/-- A long-latency result: a register written by an M-pipe or T-pipe word other than TRRES (R77). -/
def longLatency (op : Nat) (i : Instr) : Bool :=
  (pipeOf op == .m || pipeOf op == .t) && (match i with
    | .trres _ => false
    | _ => true)

end Sys2Proof.Machine
end

