-- ==== Sys2Proof/Machine/Issue.lean ====
section
/-! DEFINITION. Issuing a group (R19, R29, R50, R63, R78, R80, R82, R83, R160, R174, R363, R366): which split may issue,
what its group is, which word of it traps, and where the split goes on. `ex` is the meaning of one word. -/

namespace Sys2Proof.Machine

/-- A word of a group: its slot and what the decoder makes of it. -/
structure GWord where
  slot : Nat
  op   : Nat
  dec  : Decoded
  raw  : Word
  deriving DecidableEq, Repr

/-- A group, or why it cannot be fetched. -/
inductive Group where
  | words (ws : List GWord)
  | unmapped (va cause : Nat)
  | prot (va cause : Nat)
  deriving DecidableEq, Repr

/-- Fetch words from a place as long as C = 1 (R19). -/
noncomputable def fetchGroup (s : State) (t : Thread) (pc : Word) : Nat → Nat → List GWord → Group
  | 0, _, acc => .words acc.reverse
  | n + 1, slot, acc =>
    match s.fetch t ⟨pc, BitVec.ofNat 2 slot⟩ with
    | .unmapped va c => .unmapped va c
    | .prot va c => .prot va c
    | .word w =>
      let g : GWord := ⟨slot, (w.extractLsb' 24 6).toNat, decodeWord w, w⟩
      if w.getLsbD 31 && slot < 2 then fetchGroup s t pc n (slot + 1) (g :: acc) else .words (g :: acc).reverse

/-- The instruction of a group word, if it is one. -/
def GWord.instr? (g : GWord) : Option Instr :=
  match g.dec with
  | .word _ _ i => some i
  | .reject _ => none

/-- The switch marker of a group word. -/
def GWord.k (g : GWord) : Bool := g.raw.getLsbD 30

/-- The payload, if the word is a CONST. -/
def GWord.const? (g : GWord) : Option (BitVec 24) :=
  match g.dec with
  | .word _ _ (.const p) => some p
  | .word _ _ _ => none
  | .reject _ => none

/-- A payload that its word's entry forbids: bits [23:20] behind a format I word or LOOPI (R23, R72). -/
def constBad (i : Instr) (p : BitVec 24) : Bool :=
  match i with
  | .saddi .. | .sandi .. | .sori .. | .vaddi .. | .vandi .. | .vli .. | .loopi .. => p.extractLsb' 20 4 != 0
  | _ => false

/-- A word is a non-instruction by itself or by the thread that runs it (R28, R29, R50, R359). -/
def wordBad (t : Thread) (g : GWord) : Bool :=
  match g.instr? with
  | none => true
  | some i => !(kindRuns t.mcc g.op i && (t.mcc || vregsOk t.kern.vregs i) && ctlOk t.mcc t.kern.vregs i)

/-- The word makes its chain illegal against the words before it (R19, R23). -/
def chainBad (before : List GWord) (g : GWord) : Bool :=
  let third := g.slot == 2 && g.raw.getLsbD 31
  let const := match g.const?, before.getLast? with
    | some _, none => true
    | some p, some b => (match b.instr? with
      | some i => !takesConst i || constBad i p
      | none => true)
    | none, _ => false
  let clash := before.any (fun b =>
    (pipeOf b.op != .none && pipeOf b.op == pipeOf g.op) ||
    (match b.instr?, g.instr? with
      | some i, some j => runsMeet (uses i).vw (uses j).vw || runsMeet (uses i).sw (uses j).sw
      | _, _ => false))
  third || const || clash

/-- The lowest slot of a group that makes it a non-instruction (R29). -/
def groupBad (t : Thread) (ws : List GWord) : Option Nat :=
  let rec go (before : List GWord) : List GWord → Option Nat
    | [] => none
    | g :: rest => if wordBad t g || chainBad before g then some g.slot else go (before ++ [g]) rest
  go [] ws

/-- The registers that a word reads and writes, those among them that it does not name in a field: WGENQ's record (R332), the
register whose tag CTLR reads (R359). -/
def State.usesAt (s : State) (i : Instr) : Use :=
  match i with
  | .wgenq _ n a =>
    let k := (((s.region? s.thr.env.rcb).bind (fun r => r.nodes[(s.rdS n).toNat]?)).map NodeQueue.recBytes).getD 4 / 4
    if a.toNat + k ≤ min 64 s.thr.kern.vregs then { uses i with vr := [(a.toNat, k)] } else uses i
  | .ctlr _ r => if 0x040 ≤ r.toNat ∧ r.toNat < 0x080 then { uses i with vr := [(r.toNat - 0x040, 1)] } else uses i
  | _ => uses i

/-- A register of the word with a long-latency write of its split outstanding (R79, R80): its number, bit 8 set for a
scalar register. -/
def hazardOf (s : State) (sp : BitVec 2) (i : Instr) : Option Nat :=
  let fs := s.flights.filter (fun f => f.outstanding s.thr.key sp false)
  let ps := ((s.thr.splitsOf false).flatMap Split.words).filter (fun p => p.splits.getLsbD sp.toNat)
  let u := s.usesAt i
  let within (runs : List (Nat × Nat)) (n : Nat) : Bool := runs.any (fun (m, k) => m ≤ n && n < m + k)
  let hit (scalar : Bool) (runs : List (Nat × Nat)) (n : Nat) : Bool :=
    within runs n &&
    (fs.any (fun f => f.scalar == scalar && f.dst ≤ n && n < f.dst + f.count) ||
      ps.any (fun p => p.owed.any (fun o => within (if scalar then o.sw else o.vw) n)))
  match (List.range 64).find? (hit false (u.vr ++ u.vw)) with
  | some n => some n
  | none => ((List.range 64).find? (hit true (u.sr ++ u.sw))).map (· + 256)

/-- The words of a group that do something, each with the CONST behind it, in the order their effects are applied: V, X,
M, T, then S. Each reads the registers as they were when the group issued (R19), and their destinations differ; a V word
draws before an X word (R93). -/
def groupWork (ws : List GWord) : List (GWord × Instr × Option (BitVec 24)) :=
  let rec pair : List GWord → List (GWord × Instr × Option (BitVec 24))
    | [] => []
    | g :: rest =>
      match g.instr? with
      | none => pair rest
      | some i =>
        if i.isConst then pair rest else (g, i, rest.head?.bind GWord.const?) :: pair rest
  let all := pair ws
  [Pipe.v, .x, .m, .t, .s].flatMap (fun p => all.filter (fun (g, _, _) => pipeOf g.op == p))

/-- Execute one word of a group at its slot. -/
def runWord (ex : Instr → State → Out) (s : State) (slot : Nat) (i : Instr) (c : Option Instr) : Out :=
  let s := { s with ctx := { s.ctx with slot := BitVec.ofNat 2 slot, ext := none, owed := owedBy i, out := .done } }
  match c with
  | none => ex i s
  | some k =>
    match ex k s with
    | .next s => ex i s
    | .fault f => .fault f
    | .refused r => .refused r

/-- A word's outcome on the state in which its group issues: `none` when it does not trap. -/
def wordTrap (ex : Instr → State → Out) (s : State) (sp : BitVec 2) (slot : Nat) (i : Instr) (c : Option Instr) :
    Option Out :=
  match (if s.thr.env.hazards then hazardOf s sp i else none) with
  | some r =>
    let s := { s with ctx := { s.ctx with slot := BitVec.ofNat 2 slot } }
    some (.next (s.trapWord clsHAZARD r))
  | none =>
    match runWord ex s slot i c with
    | .next s' => if s'.ctx.out = .trap then some (.next s') else none
    | .fault f => some (.fault f)
    | .refused r => some (.refused r)

/-- The words of a group one after another, each on the state the last one left. -/
def runWords (ex : Instr → State → Out) (mk : BitVec 24 → Instr) : List (GWord × Instr × Option (BitVec 24)) → State → Out
  | [], s => .next s
  | (g, i, c) :: rest, s =>
    match runWord ex s g.slot i (c.map mk) with
    | .next s => runWords ex mk rest s
    | .fault f => .fault f
    | .refused r => .refused r

/-- After a word or group: the split's entry goes on unless a word parked it, trapped, or left the level. A split that waits
at JOIN or EXIT goes no further (R68, R69). -/
def State.goOn (s : State) (sp : BitVec 2) : State :=
  match s.ctx.out with
  | .trap | .left => s
  | .done | .stall =>
    match s.thr.level.split? sp with
    | some e =>
      if e.parked.isSome then s
      else
        match e.also with
        | some q => s.setLevel (s.thr.level.setSplit sp (some { e with parked := some q, also := none }))
        | none => if e.replay.isSome || e.wait == .join || e.wait == .exit then s else s.settle sp e.next e.fell
    | none => s

/-- The switch marker of a BRS holds for both sides: a split that the group opened is marked too (R65, R78). -/
def State.markNew (s : State) (before : Level) (k : Bool) : State :=
  s.setLevel { s.thr.level with splits := ⟨⟨splitSlots.map (fun i =>
    match s.thr.level.split? i, before.split? i with
    | some e, none => some { e with mark := e.mark || k }
    | x, _ => x)⟩, by simp [splitSlots]⟩ }

/-- Issue a group whose words are instructions (R19, R363, R83). -/
noncomputable def issueGroup (ex : Instr → State → Out) (s : State) (sp : BitVec 2) (ws : List GWord) : Out :=
  let work := groupWork ws
  let mk (p : BitVec 24) : Instr := .const p
  let traps := (List.range 3).filterMap (fun n =>
    match work.find? (fun (g, _, _) => g.slot == n) with
    | some (g, i, c) => wordTrap ex s sp g.slot i (c.map mk)
    | none => none)
  match traps with
  | o :: _ => o
  | [] =>
    let vd := work.foldl (fun b (_, i, _) => b ||| runBits (uses i).vw) (0 : BitVec 64)
    let sd := work.foldl (fun b (_, i, _) => b ||| runBits (uses i).sw) (0 : BitVec 64)
    let n := (work.filter (fun (_, i, _) => i != .nop)).length
    let id0 := s.nextId
    let s1 := { s with
      thr := { s.thr with progress := s.thr.progress + n }
      ctx := { s.ctx with grp := some s.thr, vdst := vd, sdst := sd } }
    match runWords ex mk work s1 with
    | .next s2 =>
      let k := ws.any GWord.k
      let fs := s2.flights.map (fun (f : Flight) =>
        if f.id < id0 ∧ f.key = s.thr.key ∧ !f.inBase ∧ f.splits.getLsbD sp.toNat then { f with later := true } else f)
      let s2 : State := { s2 with flights := fs, ctx := { s2.ctx with grp := none, ext := none, vdst := 0, sdst := 0 } }
      let s2 : State := match s2.ctx.out with
        | .left | .trap => s2
        | .done | .stall =>
          (s2.markNew s.thr.level k).setSplit (fun e =>
            { e with mark := e.mark || k, last := s.stamp, since := s.clock, promoted := false })
      .next (s2.goOn sp)
    | .fault f => .fault f
    | .refused r => .refused r

/-- The splits of the thread in focus that wait for something that has not come about. -/
def State.blocked (s : State) (sp : BitVec 2) (e : Split) : Bool := s.blockedAt s.thr sp e

/-- A word that stands parked in the base level has still to wait: frozen, it completes once its wait has ended (R174,
R365). -/
def State.orderWaits (s : State) (p : ParkedWord) : Bool :=
  p.ordering && !(if p.stage = 0 then s.releasedBefore s.thr.key p.id
    else if p.stage = 3 then s.returnedBefore s.thr.key p.id
    else s.farStoresBefore s.thr.key p.id)

/-- An ordering word of another split of the thread is incomplete (R174). -/
def State.orderedBehind (s : State) (sp : BitVec 2) : Bool :=
  (List.range 4).any (fun i => BitVec.ofNat 2 i != sp &&
    (match s.thr.level.split? (BitVec.ofNat 2 i) with
      | some e => e.words.any ParkedWord.ordering
      | none => false)) ||
  (s.thr.splitsOf true).any (fun e => e.words.any s.orderWaits)

/-- A word does not enter the coalescer now: a store holds it, or the word is a store and the write queue is full (R151). -/
def State.coalescerHeld (s : State) (op : Nat) : Bool :=
  let mem := op == 0x18 || op == 0x19 || op == 0x1B || op == 0x1D || op == 0x1E
  (mem && s.hold.any (fun e => e.core == s.port)) ||
    (op == 0x19 && decide (64 ≤ s.wq.countP (fun e => e.core == s.port)))

/-- The group must wait before it issues: an ordering word of another split (R174), or the coalescer (R151). -/
def State.groupHeld (s : State) (sp : BitVec 2) (ws : List GWord) : Bool :=
  (ws.any (fun g => pipeOf g.op == .m || pipeOf g.op == .t) && s.orderedBehind sp) || ws.any (fun g => s.coalescerHeld g.op)

/-- Try again the word a split is parked at (R160), or issue alone the word that RTE replays (R366). `none` when it is no
further than before, or does not enter the coalescer now. A word that its thread may not run traps (R28, R29). -/
noncomputable def retryWord (ex : Instr → State → Out) (s : State) (sp : BitVec 2) (replayed : Bool) (p : ParkedWord) :
    Option Out :=
  match s.fetch s.thr p.at_, s.thr.level.split? sp with
  | .word w, some e =>
    let g : GWord := ⟨p.at_.slot.toNat, (w.extractLsb' 24 6).toNat, decodeWord w, w⟩
    let s := s.enterCtx sp p.at_ e.next (some p)
    let s := { s with ctx := { s.ctx with gslot := p.gslot } }
    let clear (s : State) : State :=
      s.setSplit (fun e => if replayed then { e with replay := none } else { e with parked := none })
    match g.dec with
    | .word _ k i =>
      if wordBad s.thr g ∨ g.const?.isSome then some (ex (.nonInstruction p.at_.slot) (clear s))
      else if if replayed then s.groupHeld sp [g] else s.coalescerHeld g.op then none
      else
        let s := (clear s).setSplit (fun e => { e with mark := e.mark || k })
        match runWord ex s p.at_.slot.toNat i none with
        | .next s' =>
          if s'.ctx.out = .stall ∧ (s'.split.bind Split.parked) = some p then none
          else some (.next ({ s' with ctx := { s'.ctx with part := none } }.goOn sp))
        | .fault f => some (.fault f)
        | .refused r => some (.refused r)
    | .reject _ => some (ex (.nonInstruction p.at_.slot) (clear s))
  | _, _ => none

/-- A split moves on when it issues: it leaves the set of every YIELD 0 (R76). -/
def State.yieldMoved (s : State) (k : TKey) (sp : BitVec 2) : State :=
  let f (t : Thread) : Thread :=
    { t with level := { t.level with splits := t.level.splits.map (fun e => e.map (fun (e : Split) =>
        match e.wait with
        | .yieldSet set c => { e with wait := .yieldSet (set.filter (fun x => x != (k, sp))) c }
        | .none | .join | .exit | .results _ | .yield _ | .rte | .scallRel .. | .scall | .fetch _ => e)) } }
  { s with thr := f s.thr, threads := s.threads.map f }

/-- The trap a fetch raises on a page that forbids it (R63): RTE and the record name the transfer; for a split that reached
the place by a merge, or as a pending side, the place itself (log entry 118). -/
def State.fetchTrap (s : State) (sp : BitVec 2) (e : Split) (va cause : Nat) : State :=
  let p := e.xfer.getD e.at_
  (s.enterCtx sp p p none).takeTrap sp
    { cls := clsPROT, cause := cause, pc := p.pc, slot := p.slot, oslot := p.slot, replay := false,
      addr := BitVec.ofNat 64 va, lanes := e.cur }

/-- Issue split `sp` of thread `k` (R82, R83), or `none` when it cannot issue now. A trap that was held pending while a shadow
swap froze the thread is taken before any of its groups issues (R365, R368). -/
noncomputable def issueSplit (ex : Instr → State → Out) (s : State) (k : TKey) (sp : BitVec 2) : Option Out :=
  match s.focus k with
  | none => none
  | some s =>
    match s.thr.level.split? sp with
    | none => none
    | some e =>
      if !s.running s.thr then none
      else
        match s.thr.level.firstPending with
        | some (i, t) => some (.next ((s.enterCtx i ⟨t.pc, t.slot⟩ ⟨t.pc, t.slot⟩ none).takeTrap i t))
        | none =>
        match e.dueNow with
        | some t => some (.next (s.takeDue sp e t))
        | none =>
        match e.parked with
        | some p => if (p.waits.isEmpty || p.go) && !s.farWait k sp then retryWord ex s sp false p else none
        | none =>
          match e.replay with
          | some m =>
            let s := s.enterCtx sp e.at_ e.at_ none
            if m = 0 then some (.next ((s.setSplit (fun e => { e with replay := none })).settle sp e.next e.fell))
            else retryWord ex s sp true { s.parkedHere with at_ := e.at_, gslot := e.at_.slot, lanes := m }
          | none =>
            if s.blocked sp e then none
            else
              match e.wait with
              | .rte => some (.next (s.enterCtx sp e.at_ e.at_ none).trapReturn)
              | .scallRel n _ =>
                let s := s.enterCtx sp e.at_ e.at_ none
                some (.next (({ s with calls := s.calls ++ [s.callRec sp n] } : State).setSplit (fun e =>
                  { e with wait := .scall })))
              | .none | .join | .exit | .results _ | .yield _ | .yieldSet .. | .scall | .fetch _ =>
                let s := (s.enterCtx sp e.at_ e.at_ none).setSplit (fun e => { e with wait := .none, mark := false })
                if s.atPacketEnd s.thr e.at_ then some (.next (s.settle sp e.at_ true))
                else
                  match fetchGroup s s.thr e.at_.pc 3 e.at_.slot.toNat [] with
                  | .prot va c => some (.next (s.fetchTrap sp e va c))
                  | .unmapped va c =>
                    let (s, ids) := s.addFaults [(va, c)] 3 1
                    some (.next (s.setSplit (fun e => { e with wait := .fetch ids })))
                  | .words ws =>
                    match groupBad s.thr ws with
                    | some n => some (ex (.nonInstruction (BitVec.ofNat 2 n)) s)
                    | none =>
                      if s.groupHeld sp ws then none
                      else
                        let last := (ws.getLast?.map GWord.slot).getD e.at_.slot.toNat
                        let next : Place := ⟨e.at_.pc, BitVec.ofNat 2 (last + 1)⟩
                        let s := (s.enterCtx sp e.at_ next none).yieldMoved k sp
                        let s := s.setSplit (fun e => { e with next := next, fell := true, xfer := none })
                        some (issueGroup ex s sp ws)

end Sys2Proof.Machine
end

