-- ==== Sys2Proof/Machine/Order.lean ====
section
/-! DEFINITION. ORD and SYNC: fences, ranged words, barriers, ordered append, the Ladle (R173 to R185, R339 to R343). -/

namespace Sys2Proof.Machine

/-! ## Fences (R174 to R176) -/

/-- REL: wait for the wave's earlier accesses (R175). -/
def execRel (s : State) : Out := if s.released s.thr.key then .next s else .next (s.parkOrder 0)

/-- ACQ: wait for the wave's earlier reads, then drop what may be stale (R175). -/
def execAcq (s : State) : Out := if s.loadsDone s.thr.key then .next s.acquire else .next (s.parkOrder 3)

/-- ACQREL: as REL, then as ACQ (R175). -/
def execAcqrel (s : State) : Out := if s.released s.thr.key then .next s.acquire else .next (s.parkOrder 0)

/-- FSMP: as REL, then the core's sampler and decoder-table caches are dropped (R176). -/
def execFsmp (s : State) : Out :=
  if s.released s.thr.key then .next (s.modCore s.thr.core (fun c => { c with sampler := [], tables := [] }))
  else .next (s.parkOrder 0)

/-- FBVH: as REL, then the node caches lose the region's nodes (R176). -/
def execFbvh (s : State) : Out :=
  if s.released s.thr.key then .next { s with nodeCache := s.nodeCache.filter (fun n => n.1 != s.thr.env.rcb) }
  else .next (s.parkOrder 0)

/-! ## Ranged words (R173, R177, R178) -/

/-- The base of a ranged word: read at issue, so that of a word which waits stays as it was (R173). -/
def State.rangeBase (s : State) (p : BitVec 5) : BitVec 64 := (s.ctx.part.bind ParkedWord.base).getD (s.base p)

/-- A ranged word waits, with its base (R173, R174). -/
def State.parkRange (s : State) (p : BitVec 5) (stage : Nat) : State :=
  s.parkAt { s.parkedHere with stage := stage, order := true, base := some (s.rangeBase p) }

/-- The lines of a ranged word: the virtual addresses of n + 1 lines from the one that holds the base. -/
def State.lines (s : State) (p : BitVec 5) (n : BitVec 8) : List Nat :=
  let lo := (s.rangeBase p).toNat / 256 * 256
  (List.range (n.toNat + 1)).map (fun i => (lo + 256 * i) % 2 ^ 64)

/-- The PROT trap of a range that includes an invalid address (R177). -/
def State.rangeTrap (s : State) (ls : List Nat) : Option State :=
  match ls.filter (fun a => !validVa a) with
  | [] => none
  | a :: as => some (s.trapGroup clsPROT 1 (BitVec.ofNat 64 (as.foldl min a)) s.active)

/-- FFAR: once the wave's far stores are acknowledged, the homes drop the far lines of the range (R177). -/
def execFfar (p : BitVec 5) (n : BitVec 8) (s : State) : Out :=
  let ls := s.lines p n
  match s.rangeTrap ls with
  | some s => .next s
  | none =>
    if s.farStoresBefore s.thr.key s.opId then
      .next (ls.foldl (fun s va => match s.pageAt s.thr.env.ptroot va with
        | some pg => if pg.type = .far then s.evictL2 (pg.pa / 256) else s
        | none => s) s)
    else .next (s.parkRange p 4)

/-- PREF: bring the lines of the range into their home slices (R178); far memory that does not answer gives none (R165). -/
def execPref (h : BitVec 2) (p : BitVec 5) (n : BitVec 8) (s : State) : Out :=
  .next ((s.lines p n).foldl (fun s va => match s.pageAt s.thr.env.ptroot va with
    | some pg => if s.linked pg then s.touchL2 s.thr.env pg.pa h (pg.type == .far) else s
    | none => s) s)

/-- INVL on one line: unowned words of the cluster's L1, and the core's scalar-cache lines (R177). -/
def State.invalidate (s : State) (pa : Nat) : State :=
  (s.modCluster s.myCluster (fun c => { c with l1 := c.l1.map (fun l =>
    if l.line / 4 = pa / 256 then s.acquireLine l else l) })).modCore s.thr.core (fun c =>
      { c with scalar := c.scalar.filter (fun l => l.line / 4 != pa / 256) })

/-- INVL: as ACQ, within the range (R177). -/
def execInvl (p : BitVec 5) (n : BitVec 8) (s : State) : Out :=
  let ls := s.lines p n
  match s.rangeTrap ls with
  | some s => .next s
  | none =>
    if s.loadsDone s.thr.key then
      .next (ls.foldl (fun s va => match s.pageAt s.thr.env.ptroot va with
        | some pg => s.invalidate pg.pa
        | none => s) s)
    else .next (s.parkRange p 3)

/-! ## Barriers (R180 to R184) -/

/-- A barrier of the thread's workgroup. -/
def State.barrier? (s : State) (b : BitVec 4) : Option Barrier := (s.group? s.thr.key.wg).map (fun g => g.bars[b.toNat]'(by omega))

/-- The thread's arrival bit of a barrier is set. -/
def State.arrivedAt (s : State) (b : Barrier) : Bool := b.arrived.getLsbD s.thr.key.ix

/-- The thread arrives at barrier b in the phase given (R182, R183); an arrival is a hand-on point (R342). -/
def State.arriveBar (s : State) (b : BitVec 4) (phase : BitVec 16) : State :=
  let s := s.handOn s.thr.key s.thr.env.rcb
  let s : State := { s with thr := { s.thr with arrived := s.thr.arrived.set b.toNat (some phase) (by omega) } }
  s.modBarriers s.thr.key.wg (fun i x =>
    if i = b.toNat then { x with arrived := x.arrived ||| ((1 : BitVec 17) <<< s.thr.key.ix) } else x)

/-- The release part and arrival of BAR and BARA (R182, R183): the state, and the phase arrived in, once it has; stage 1 is
a wait for the end of a phase in which the thread has arrived already. -/
def State.releaseArrive (s : State) (b : BitVec 4) : State × Option (BitVec 16) :=
  match s.barrier? b with
  | none => (s, none)
  | some x =>
    if s.stage = 0 ∧ !s.released s.thr.key then (s.parkOrder 0, none)
    else if s.arrivedAt x then (s.parkOrder 1, none)
    else (s.arriveBar b x.phase, some x.phase)

/-- The acquire part of a barrier word (R182): as ACQ; stage 3 is its wait. -/
def State.acquirePart (s : State) : State := if s.loadsDone s.thr.key then s.acquire else s.parkOrder 3

/-- The wait for a phase, then the acquire part (R182); stage 2 holds the phase. -/
def State.awaitPhase (s : State) (b : BitVec 4) (phase : BitVec 16) : State :=
  match s.barrier? b with
  | none => s.acquirePart
  | some x =>
    if x.phase = phase then s.parkAt { s.parkedHere with stage := 2, phase := phase, order := true } else s.acquirePart

/-- A barrier word that has waited goes on (R182): from its phase to its acquire part, or in that part. -/
def State.barOn (s : State) (b : BitVec 4) : State :=
  if s.stage = 3 then s.acquirePart else s.awaitPhase b ((s.ctx.part.map ParkedWord.phase).getD 0)

/-- BAR: release, arrive, wait for the phase, acquire (R182). -/
def execBar (b : BitVec 4) (s : State) : Out :=
  if 2 ≤ s.stage then .next (s.barOn b)
  else
    match s.barrier? b with
    | none => if s.released s.thr.key then .next s.acquire else .next (s.parkOrder 0)
    | some _ =>
      match s.releaseArrive b with
      | (s, some phase) => .next (s.awaitPhase b phase)
      | (s, none) => .next s

/-- BARA: release and arrive (R182). -/
def execBara (b : BitVec 4) (s : State) : Out :=
  match s.barrier? b with
  | none => if s.released s.thr.key then .next s else .next (s.parkOrder 0)
  | some _ => .next (s.releaseArrive b).1

/-- BARW: wait for the phase of the wave's latest arrival, then acquire (R182); a hand-on point (R342, R349). -/
def execBarw (b : BitVec 4) (s : State) : Out :=
  if 2 ≤ s.stage then .next (s.barOn b)
  else
    let s := s.handOn s.thr.key s.thr.env.rcb
    match s.thr.arrived[b.toNat]'(by omega) with
    | some phase => .next (s.awaitPhase b phase)
    | none => .next s.acquirePart

/-- BARX: add sN to the delivery counter (R182, R183); a hand-on point (R342, R349). -/
def execBarx (b : BitVec 4) (n : Reg) (s : State) : Out :=
  let x := s.rdS n
  let s := s.handOn s.thr.key s.thr.env.rcb
  .next (s.modBarriers s.thr.key.wg (fun i y => if i = b.toNat then { y with counter := y.counter + x } else y))

/-! ## Ordered append (R339, R340) -/

/-- The channel of the thread's dispatch. -/
def State.channel? (s : State) (c : BitVec 4) : Option Channel :=
  (s.dispatch? s.thr.disp).map (fun d => d.chans[c.toNat]'(by omega))

/-- Change a channel of a dispatch. -/
def Dispatch.modChan (d : Dispatch) (c : BitVec 4) (f : Channel → Channel) : Dispatch :=
  { d with chans := d.chans.set c.toNat (f (d.chans[c.toNat]'(by omega))) (by omega) }

/-- The workgroup has claimed or declined on the channel. -/
def Channel.settled (c : Channel) (ix : Nat) : Bool := c.claimed.contains ix || c.declined.contains ix

/-- Every lower workgroup of the dispatch has claimed, declined or retired (R340). -/
def State.mayClaim (s : State) (c : Channel) : Bool :=
  let gone := ((s.dispatch? s.thr.disp).map Dispatch.retired).getD []
  (List.range s.thr.index.toNat).all (fun i => c.settled i || gone.contains i)

/-- The claim (R340). -/
def State.claim (s : State) (d n : Reg) (c : BitVec 4) (ch : Channel) : State :=
  let x := s.rdS n
  let s := s.modDispatch s.thr.disp (fun e => e.modChan c (fun ch =>
    { ch with counter := ch.counter + x, claimed := s.thr.index.toNat :: ch.claimed }))
  s.flyScalars 0 d [ch.counter]

/-- The stage of a split parked at OAPP. -/
def oappStage : Nat := 7

/-- OAPP: claim a place in workgroup order (R340); the operands stay with the parked word. -/
def execOapp (d n : Reg) (c : BitVec 4) (s : State) : Out :=
  let s := if s.stage = oappStage then s else s.handOn s.thr.key s.thr.env.rcb
  match s.channel? c with
  | none => .next (s.flyScalars 0 d [0])
  | some ch =>
    if ch.settled s.thr.index.toNat then .next (s.flyScalars 0 d [0xFFFFFFFF])
    else if s.mayClaim ch then .next (s.claim d n c ch)
    else .next (s.parkAt { s.parkedHere with stage := oappStage, phase := c ++ n ++ d })

/-- ODECL: decline (R340). -/
def execOdecl (c : BitVec 4) (s : State) : Out :=
  let s := s.handOn s.thr.key s.thr.env.rcb
  let ix := s.thr.index.toNat
  .next (s.modDispatch s.thr.disp (fun e => e.modChan c (fun ch =>
    if ch.settled ix then ch else { ch with declined := ix :: ch.declined })))

/-- OAPP_GRANT: a parked OAPP claims once every lower workgroup has claimed, declined or retired (R340). -/
def execOappGrant (t : TKey) (sp : BitVec 2) (s : State) : Out :=
  .next (s.forSplit t sp (fun u e =>
    match e.parked with
    | none => s
    | some p =>
      let c := p.phase.extractLsb' 12 4
      match u.channel? c with
      | none => s
      | some ch =>
        if p.stage = oappStage ∧ u.running u.thr ∧ (ch.settled u.thr.index.toNat ∨ u.mayClaim ch) then
          let u := (u.enterCtx sp p.at_ e.next (some p)).setSplit (fun e => { e with parked := none })
          let d := p.phase.extractLsb' 0 6
          let u := if ch.settled u.thr.index.toNat then u.flyScalars 0 d [0xFFFFFFFF]
            else u.claim d (p.phase.extractLsb' 6 6) c ch
          ({ u with ctx := { u.ctx with part := none } } : State).goOn sp
        else s))

/-! ## The Ladle (R341 to R343) -/

/-- LGET: park until the wave holds the Ladle, and open its visit (R343). -/
def execLget (s : State) : Out :=
  if !s.needsLadle true then .next s
  else if s.inVisit then
    .next (s.modRegion s.thr.env.rcb (fun r => { r with ladle := { r.ladle with opened := true } }))
  else .next (s.parkLadle 1)

/-- LPASS: a hand-on point (R342, R343). -/
def execLpass (s : State) : Out := .next (if s.thr.mcc then s else s.handOn s.thr.key s.thr.env.rcb)

end Sys2Proof.Machine
end

