-- ==== Sys2Proof/Machine/System.lean ====
section
/-! DEFINITION. SYS: traps, the supervisor, the control registers, the clock (R354 to R367), and the events that write
control registers or answer Trestle's calls. -/

namespace Sys2Proof.Machine

/-! ## CLM banks (R146, R147, R149) -/

/-- A workgroup's CLM window lies on a bank: bank `b` holds the bytes b × 2^16 to b × 2^16 + 2^16 − 1 (R148). -/
def Workgroup.onBank (g : Workgroup) (b : Nat) : Bool :=
  match g.window with
  | some w => decide (0 < g.kern.clmBytes ∧ w / 65536 ≤ b ∧ b ≤ (w + g.kern.clmBytes - 1) / 65536)
  | none => false

/-- BUSY: a window of a workgroup of the cluster lies on the bank (R146). -/
def State.bankBusy (s : State) (cl b : Nat) : Bool := s.groups.any (fun g => clusterOf g.core == cl && g.onBank b)

/-- The bytes of a bank discarded. -/
def Cluster.clearBank (c : Cluster) (b : Nat) : Cluster :=
  { c with
    clm := c.clm.filter (fun x => x.1 / 65536 != b)
    poison := c.poison.filter (fun x => x * 32 / 65536 != b) }

/-- A bank changes mode (R147): leaving cache mode invalidates the bank's lines, leaving scratch mode discards its
content, leaving or entering FIFO mode starts it empty. Which lines a bank holds is open (log entry 14); with no bank left
in cache mode there is no line. -/
def Cluster.switchBank (stamp : Nat) (c : Cluster) (b : Nat) (m : BitVec 2) : Cluster :=
  match c.banks[b]? with
  | none => c
  | some k =>
    let c := { c with
      banks := c.banks.setIfInBounds b { k with mode := m }
      fifos := c.fifos.filter (fun f => f.1 != b)
      l1 := if k.mode = 0 then c.l1.filter (fun l => !Config.l1InBank stamp b l.line) else c.l1 }
    let c := if c.hasL1 then c else { c with l1 := [] }
    if k.mode = 1 then c.clearBank b else c

/-- A write of MODE to ctl.clm.bank (R147, R149). -/
def State.writeBankMode (s : State) (cl b : Nat) (m : BitVec 2) : State :=
  match (s.cluster cl).banks[b]? with
  | none => s
  | some k =>
    if m = 3 then s
    else if m ≠ k.mode ∧ s.bankBusy cl b then
      s.modCluster cl (fun c => { c with banks := c.banks.setIfInBounds b { k with refused := true } })
    else
      s.modCluster cl (fun c =>
        let c := if m = k.mode then c else c.switchBank s.stamp b m
        { c with banks := c.banks.setIfInBounds b { k with mode := m, launched := false } })

/-- A write of REFUSED: 1 clears it (R146). -/
def State.clearRefused (s : State) (cl b : Nat) (x : Word) : State :=
  if x.getLsbD 3 then
    s.modCluster cl (fun c => match c.banks[b]? with
      | some k => { c with banks := c.banks.setIfInBounds b { k with refused := false } }
      | none => c)
  else s

/-- A word written to ctl.clm.bank b: REFUSED is cleared first, so that a refusal of the same write is seen (log entry
36). -/
def State.writeBank (s : State) (cl b : Nat) (x : Word) : State :=
  (s.clearRefused cl b x).writeBankMode cl b (x.extractLsb' 0 2)

/-- The value of ctl.clm.bank b (R146). -/
def State.readBank (s : State) (cl b : Nat) : Word :=
  match (s.cluster cl).banks[b]? with
  | some k =>
    (if k.launched then 16 else 0) ||| (if k.refused then 8 else 0) ||| (if s.bankBusy cl b then 4 else 0)
      ||| k.mode.zeroExtend 32
  | none => 0

/-! ## Reading and writing control registers (R359 to R361) -/

/-- ctl.lstate (R71). -/
def Loops.state (l : Loops) : Word :=
  (0 : BitVec 9) ++ l.depth ++ l.len[2] ++ l.len[1] ++ l.len[0]

/-- The code of a tag (R361). -/
def Tag.code : Tag → Word
  | .u => 0
  | .a => 1
  | .g => 2

/-- ctl.hstat (R317). -/
def Ctl.hstat (c : Ctl) : Word := (if c.herr then 0x80000000 else 0) ||| (c.hcause.zeroExtend 32 <<< 28) ||| c.hbad.zeroExtend 32

/-- ctl.mstat (R283). -/
def Ctl.mstat (c : Ctl) : Word := (if c.mvpois then 2 else 0) ||| (if c.mpois then 1 else 0)

/-- ctl.einfo (R361). -/
def Ctl.einfo (c : Ctl) : Word :=
  (if c.replay then 16 else 0) ||| (c.oslot.zeroExtend 32 <<< 2) ||| c.rslot.zeroExtend 32

/-- ctl.place (R361): on the MCC the cluster's lowest core, partition 0. -/
def Thread.place (t : Thread) : Word :=
  if t.mcc then BitVec.ofNat 32 (clusterOf t.core * 4 % 1024)
  else (t.part.zeroExtend 32 <<< 10) ||| BitVec.ofNat 32 (t.core % 1024)

/-- The value of a control register of a thread (R360). -/
def State.ctlOf (s : State) (t : Thread) (r : Nat) : Word :=
  let c := t.ctl
  if r = 0x000 then c.round.zeroExtend 32
  else if r = 0x001 then t.level.loops.state
  else if r < 0x005 then t.level.loops.lc[r - 2]?.getD 0
  else if r < 0x008 then t.level.loops.start[r - 5]?.getD 0
  else if r = 0x008 then c.estdrop
  else if r = 0x009 then c.cslot.zeroExtend 32
  else if r < 0x00D then maskWord c.sstat (r - 0x00A)
  else if r = 0x00D then c.hbatch
  else if r = 0x00E then c.hstat
  else if r = 0x00F then c.shash.extractLsb' 0 32
  else if r = 0x010 then c.shash.extractLsb' 32 32
  else if r = 0x011 then c.mtouch
  else if r = 0x012 then c.mstat
  else if r < 0x020 then 0
  else if r < 0x040 then s.readBank (clusterOf t.core) (r - 0x020)
  else if r < 0x080 then (t.tag s.stamp (r - 0x040)).code
  else if r = 0x080 then (c.ecause.zeroExtend 32 <<< 16) ||| c.eclass.zeroExtend 32
  else if r = 0x081 then c.epc
  else if r = 0x082 then c.einfo
  else if r = 0x083 then c.eaddr.extractLsb' 0 32
  else if r = 0x084 then c.eaddr.extractLsb' 32 32
  else if r < 0x088 then maskWord c.elanes (r - 0x085)
  else if r = 0x088 then (if c.shadow then 2 else 0) ||| (if t.base.isSome then 1 else 0)
  else if r = 0x089 then t.place
  else 0

/-- Change the control registers of the thread in focus. -/
def State.modCtl (s : State) (f : Ctl → Ctl) : State := { s with thr := { s.thr with ctl := f s.thr.ctl } }

/-- A write of ctl.round: 0b110 and 0b111 leave it (R95). -/
def Ctl.setRound (c : Ctl) (x : Word) : Ctl :=
  let m := x.extractLsb' 0 3
  if m.toNat < 6 then { c with round := m } else c

/-- Writing 1 to ERR clears ERR, CAUSE and BATCH (R317). -/
def Ctl.clearHstat (c : Ctl) (x : Word) : Ctl := if x.msb then { c with herr := false, hcause := 0, hbad := 0 } else c

/-- Ones written to ctl.sstat clear (R254). -/
def Ctl.clearSstat (c : Ctl) (n : Nat) (x : Word) : Ctl :=
  { c with sstat := setMaskWord c.sstat n (maskWord c.sstat n &&& ~~~x) }

/-- Ones written to ctl.mstat clear (R283). -/
def Ctl.clearMstat (c : Ctl) (x : Word) : Ctl :=
  { c with mpois := c.mpois && !x.getLsbD 0, mvpois := c.mvpois && !x.getLsbD 1 }

/-- A write of a ctl.e register in trap mode (R361). An RSLOT of 3 reads as 0. -/
def Ctl.writeTrap (c : Ctl) (r : Nat) (x : Word) : Ctl :=
  if r = 0x081 then { c with epc := x }
  else if r = 0x082 then
    let n := x.extractLsb' 0 2
    { c with replay := x.getLsbD 4, rslot := if n = 3 then 0 else n }
  else if 0x085 ≤ r ∧ r ≤ 0x087 then { c with elanes := setMaskWord c.elanes (r - 0x085) x }
  else c

/-- A CTLW of a ctl.e register; outside trap mode it is ignored (R361). -/
def State.writeTrapState (s : State) (r : Nat) (x : Word) : State :=
  if s.thr.base.isSome then s.modCtl (fun c => c.writeTrap r x) else s

/-- A CTLW under the register's Access column (R359): read-only registers ignore it. -/
def State.ctlWrite (s : State) (r : Nat) (x : Word) : State :=
  if r = 0x000 then s.modCtl (fun c => c.setRound x)
  else if r = 0x001 then s
  else if r < 0x005 then
    let l := s.thr.level
    { s with thr := { s.thr with level := { l with loops := { l.loops with lc := l.loops.lc.setIfInBounds (r - 2) x } } } }
  else if r < 0x008 then s
  else if r = 0x008 then s.modCtl (fun c => { c with estdrop := x })
  else if r = 0x009 then s.modCtl (fun c => { c with cslot := x.extractLsb' 0 6 })
  else if r < 0x00D then s.modCtl (fun c => c.clearSstat (r - 0x00A) x)
  else if r = 0x00E then s.modCtl (fun c => c.clearHstat x)
  else if r = 0x012 then s.modCtl (fun c => c.clearMstat x)
  else if r < 0x020 then s
  else if r < 0x040 then s.writeBank s.myCluster (r - 0x020) x
  else s.writeTrapState r x

/-- CTLR: sD := the control register (R359). -/
def execCtlr (d : Reg) (r : BitVec 12) (s : State) : Out := .next (s.wrS d (s.ctlOf s.src r.toNat))

/-- CTLW: the control register := sA (R359). A write of ctl.clm.bank needs the region's grant (R146). -/
def execCtlw (r : BitVec 12) (a : Reg) (s : State) : Out :=
  if 0x020 ≤ r.toNat ∧ r.toNat < 0x040 ∧ !s.thr.env.clmGrant then .next (s.trapWord clsPROT 3)
  else .next (s.ctlWrite r.toNat (s.rdS a))

/-! ## Traps, the supervisor, the end of a thread -/

/-- TRAP: a trap of class TRAP with code n (R355). -/
def execTrap (n : BitVec 16) (s : State) : Out := .next (s.trapNext clsTRAP 0 (n.zeroExtend 64))

/-- BKPT without a handler: every split of the wave stops, and Trestle learns of it (R355). -/
def State.stopAtBkpt (s : State) (n : BitVec 16) : State :=
  let s := s.settle s.ctx.sp s.ctx.next true
  let p := (s.split.map Split.at_).getD s.ctx.next
  { s with
    events := s.events ++ [s.waveRecord true clsBKPT 0 p.pc (n.zeroExtend 64)]
    thr := { s.thr with bkpt := some (n.zeroExtend 32, p.pc) }
    ctx := { s.ctx with out := .trap } }

/-- BKPT: a trap of class BKPT with code n, or a stop for Trestle where the kernel has no handler (R355). -/
def execBkpt (n : BitVec 16) (s : State) : Out :=
  if s.thr.mcc || s.thr.base.isSome || s.thr.kern.handler.isSome then .next (s.trapNext clsBKPT 0 (n.zeroExtend 64))
  else .next (s.stopAtBkpt n)

/-- The trap level allows RTE: one live split, an empty stack, no loop (R366). -/
def Level.mayReturn (l : Level) : Bool :=
  l.liveCount == 1 && l.stack.toList.all Option.isNone && l.loops.depth == 0

/-- RTE: return from a trap (R366). -/
def execRte (s : State) : Out :=
  if s.thr.base.isNone then .next (s.trapWord clsILL 0)
  else if !s.thr.level.mayReturn then .next (s.trapWord clsILL 0)
  else if s.pendingResults s.ctx.sp then .next (s.waitFor .rte)
  else
    let s := s.trapReturn
    .next { s with ctx := { s.ctx with out := .left } }

/-- SCALL: wait as REL does, then ask Trestle and park (R356). -/
def execScall (n : BitVec 16) (s : State) : Out :=
  if s.released s.thr.key then
    .next (({ s with calls := s.calls ++ [s.callRec s.ctx.sp n] } : State).waitFor .scall)
  else .next (s.waitFor (.scallRel n s.opId))

/-- EXIT: the split leaves once its results have returned (R69, R78, R357); a hand-on point (R342). -/
def execExit (s : State) : Out :=
  let s := s.handOn s.thr.key s.thr.env.rcb
  if s.pendingResults s.ctx.sp || s.mccBusy then .next (s.waitFor .exit)
  else
    let s := s.leave s.ctx.sp
    .next { s with ctx := { s.ctx with out := .left } }

/-- RDTIME: sD and sD+1 := the part's time (R358). -/
def execRdtime (d : Reg) (s : State) : Out :=
  .next ((s.wrSn d.toNat (BitVec.ofNat 32 s.time)).wrSn (d.toNat + 1) (BitVec.ofNat 32 (s.time / 2 ^ 32)))

/-- CONST: the payload of the word before it (R23). -/
def execConst (p : BitVec 24) (s : State) : Out := .next { s with ctx := { s.ctx with ext := some p } }

/-! ## Events -/

/-- Trestle's answer in a level: the split that waits on SCALL resumes (R356). -/
def Level.answered (l : Level) (sp : BitVec 2) : Option Level :=
  match l.split? sp with
  | some e => if e.wait = .scall then some (l.setSplit sp (some { e with wait := .none })) else none
  | none => none

/-- Write s8 to s15, or the answer for a code that Trestle does not serve (R356). -/
def Thread.answer (t : Thread) (ans : Option (List Word)) : Thread :=
  match ans with
  | some vs => { t with s := (List.range 8).foldl (fun v i => v.setIfInBounds (8 + i) (vs[i]?.getD 0)) t.s,
                        srel := t.srel &&& ~~~(0xFF00 : BitVec 64) }
  | none => { t with s := t.s.setIfInBounds 8 0xFFFFFFFF, srel := t.srel &&& ~~~(0x100 : BitVec 64) }

/-- A thread with a call of split `sp` answered: the base level's, which is the older, before the trap level's. -/
def Thread.answered (t : Thread) (sp : BitVec 2) (ans : Option (List Word)) : Option Thread :=
  match t.base.bind (fun (b, bs) => (b.answered sp).map (fun b => (b, bs))) with
  | some b => some ({ t with base := some b }.answer ans)
  | none => (t.level.answered sp).map (fun l => ({ t with level := l } : Thread).answer ans)

/-- SCALL_ANSWER: Trestle writes s8 to s15 and resumes the split, in the saved context too; the resumption is an acquire
(R356). -/
def execScallAnswer (t : TKey) (sp : BitVec 2) (ans : Option (List Word)) (s : State) : Out :=
  let calls := match s.calls.findIdx? (fun c => c.key == t && c.sp == sp) with
    | some i => s.calls.eraseIdx i
    | none => s.calls
  match s.focus t with
  | some u =>
    match u.thr.answered sp ans with
    | some th => .next ({ u with thr := th, calls := calls } : State).acquire
    | none => .next s
  | none =>
    match s.group? t.wg with
    | some g =>
      match g.saved.find? (fun th => th.key == t) with
      | some th =>
        match th.answered sp ans with
        | some th' =>
          let s := match g.status with
            | .saved area =>
              s.engineWrite (area + fieldAt (s.homeRead area 192) (if t.ix = 16 then 40 else 64 + 8 * t.ix) 8 + 48) (bytesOfWords ((List.range 8).map (fun i => th'.s[8 + i]?.getD 0)))
            | .resident | .frozen | .shadow | .saving _ => s
          .next ({ s with calls := calls }.modGroup t.wg (fun g =>
            { g with saved := g.saved.map (fun (x : Thread) => if x.key = t then th' else x) }))
        | none => .next s
      | none => .next s
    | none => .next s

/-- BKPT_RESUME: Trestle resumes a wave stopped at BKPT, or ends it (R355, R367). -/
def execBkptResume (t : TKey) (resume : Bool) (s : State) : Out :=
  match s.focus t with
  | none => .next s
  | some u =>
    match u.thr.bkpt with
    | none => .next s
    | some (n, pc) =>
      if resume then .next { u with thr := { u.thr with bkpt := none } }
      else .next (u.endThread clsBKPT 0 pc (n.zeroExtend 64))

/-- CLM_BANK_MODE_WRITE: a CTLW of MODE to ctl.clm.bank b by the thread in focus (R147, R149). -/
def execClmBankModeWrite (b : BitVec 5) (x : Word) (s : State) : Out :=
  .next (s.writeBankMode s.myCluster b.toNat (x.extractLsb' 0 2))

/-- CLM_BANK_REFUSED_CLEAR: 1 written to REFUSED clears it (R146). -/
def execClmBankRefusedClear (b : BitVec 5) (x : Word) (s : State) : Out :=
  .next (s.clearRefused s.myCluster b.toNat x)

/-- HSTAT_CLEAR: 1 written to ctl.hstat ERR clears ERR, CAUSE and BATCH (R317). -/
def execHstatClear (x : Word) (s : State) : Out := .next (s.modCtl (fun c => c.clearHstat x))

/-- SSTAT_CLEAR: ones written to ctl.sstat n clear the lanes' bits (R254). -/
def execSstatClear (n : BitVec 2) (x : Word) (s : State) : Out :=
  if n = 3 then .next s else .next (s.modCtl (fun c => c.clearSstat n.toNat x))

/-- MSTAT_CLEAR: ones written to ctl.mstat clear POIS and MVPOIS (R283). -/
def execMstatClear (x : Word) (s : State) : Out := .next (s.modCtl (fun c => c.clearMstat x))

/-- TRAP_STATE_WRITE: a CTLW in trap mode rewrites the state that RTE uses (R361). -/
def execTrapStateWrite (r : BitVec 12) (x : Word) (s : State) : Out := .next (s.writeTrapState r.toNat x)

end Sys2Proof.Machine
end

