-- ==== Sys2Proof/Machine/Area.lean ====
section
/-! DEFINITION. What a restore reads back from a context area (R370, R372 to R376; log entry 123): the parts of a saved workgroup
that the area has a place for, over the part's own record of the workgroup. -/

namespace Sys2Proof.Machine

/-- The mask in 12 bytes. -/
def maskAt (b : List Byte) (i : Nat) : Mask := BitVec.ofNat 96 (fieldAt b i 12)

/-- A frame byte, 0xFF for none (R375). -/
def frameAt (b : List Byte) (i : Nat) : Option (BitVec 4) :=
  if fieldAt b i 1 = 0xFF then none else some (BitVec.ofNat 4 (fieldAt b i 1))

/-- An entry of the split table (R375). What its word waits for, and how far it has come, is the part's to know; an entry
that the part does not hold starts at its place, with the mask of its parked word if it has one. -/
def loadSplit (b : List Byte) (far : Bool) (old : Option Split) : Option Split :=
  let p : Place := ⟨BitVec.ofNat 32 (fieldAt b 0 4), BitVec.ofNat 2 (fieldAt b 4 1)⟩
  let flag (i : Nat) : Bool := fieldAt b 6 1 / 2 ^ i % 2 == 1
  match old with
  | some e =>
    if e.live && !flag 0 then none
    else some { e with
      at_ := if far || e.parked.isSome then e.at_ else p
      parked := e.parked.map (fun w => { w with at_ := p, lanes := maskAt b 32 })
      frame := frameAt b 5, cur := maskAt b 8, owned := maskAt b 20
      wait := if flag 1 then .join else if e.wait = .join then .none else e.wait
      pend := e.pend.map (fun (i, t) => (i, { t with cls := fieldAt b 7 1 })) }
  | none =>
    if flag 0 then
      some { Split.start p.pc (maskAt b 8) with
        at_ := p, next := p, owned := maskAt b 20, frame := frameAt b 5, replay := if flag 2 then some (maskAt b 32) else none }
    else none

/-- An entry of the rejoin stack (R375). -/
def loadRejoin (b : List Byte) : Option Rejoin :=
  match fieldAt b 0 1 with
  | 1 => some (.join (BitVec.ofNat 32 (fieldAt b 4 4)) (frameAt b 1) (maskAt b 32) (maskAt b 20))
  | 2 => some (.pending ⟨BitVec.ofNat 32 (fieldAt b 4 4), BitVec.ofNat 2 (fieldAt b 2 1)⟩ (maskAt b 8) (maskAt b 20) (frameAt b 1))
  | _ => none

/-- The loop registers: ctl.lstate, lc0 to lc2, lstart0 to lstart2 (R71). -/
def loadLoops (b : List Byte) : Loops :=
  let w := wordAt b 0
  { depth := w.extractLsb' 21 2, len := #v[w.extractLsb' 0 7, w.extractLsb' 7 7, w.extractLsb' 14 7]
    lc := #v[wordAt b 4, wordAt b 8, wordAt b 12], start := #v[wordAt b 16, wordAt b 20, wordAt b 24] }

/-- A level block (R375). -/
def Level.load (l : Level) (far : Nat → Bool) (b : List Byte) : Level :=
  { splits := ⟨⟨(List.range 4).map (fun i => loadSplit (b.drop (48 * i)) (far i) (l.splits[i]?.join))⟩, by simp⟩
    stack := ⟨⟨(List.range 16).map (fun i => loadRejoin (b.drop (192 + 48 * i)))⟩, by simp⟩
    loops := loadLoops (b.drop 960) }

/-- The tag of a code (R361). -/
def tagOfCode (c : Nat) : Tag :=
  match c with
  | 0 => .u
  | 1 => .a
  | _ => .g

/-- Bytes of the image of a vector register (R25). -/
def Tag.imageBytes : Tag → Nat
  | .u => 4
  | .a => 8
  | .g => 384

/-- The value of a vector register from its image (R25, R374). -/
def loadLanes (t : Tag) (b : List Byte) : Lanes :=
  lanesOf (fun l => match t with
    | .u => wordAt b 0
    | .a => wordAt b 0 + BitVec.ofNat 32 l * wordAt b 4
    | .g => wordAt b (4 * l))

/-- The vector registers from their images, one after another, and where the images end. -/
def loadVregs (b : List Byte) : List Tag → Nat → List Lanes × Nat
  | [], o => ([], o)
  | t :: ts, o =>
    let (vs, e) := loadVregs b ts (o + t.imageBytes)
    (loadLanes t (b.drop o) :: vs, e)

/-- The control registers that a wave record holds (R360, R374). -/
def Ctl.load (c : Ctl) (b : List Byte) : Ctl :=
  let w (i : Nat) : Word := wordAt b (4 * i)
  { c.setRound (w 0) with
    estdrop := w 1, cslot := (w 2).extractLsb' 0 6, sstat := maskOf3 (w 3) (w 4) (w 5), hbatch := w 6
    herr := (w 7).msb, hcause := (w 7).extractLsb' 28 3, hbad := (w 7).extractLsb' 0 28, shash := w 9 ++ w 8
    ecause := (w 10).extractLsb' 16 16, eclass := (w 10).extractLsb' 0 8, epc := w 11
    replay := (w 12).getLsbD 4, oslot := (w 12).extractLsb' 2 2, rslot := (w 12).extractLsb' 0 2
    eaddr := w 14 ++ w 13, elanes := maskOf3 (w 15) (w 16) (w 17) }

/-- The scalar registers of a record, and none of them released. -/
def Thread.loadSregs (t : Thread) (b : List Byte) : Thread :=
  { t with s := ⟨⟨(List.range 64).map (fun r => wordAt b (4 * r))⟩, by simp⟩, srel := 0 }

/-- A wave record (R374). `far i j` says that split j of level i is parked in its flight alone (R165). -/
def Thread.loadWave (t : Thread) (far : Bool → Nat → Bool) (b : List Byte) : Thread :=
  let tags := (List.range t.kern.vregs).map (fun r => tagOfCode (fieldAt b (272 + r) 1))
  let vs := (loadVregs b tags 4480).1
  { t.loadSregs (b.drop 16) with
    vtag := ⟨⟨(List.range 64).map (fun r => tags[r]?.getD (t.vtag[r]?.getD .u))⟩, by simp⟩
    v := ⟨⟨(List.range 64).map (fun r => vs[r]?.getD (t.v[r]?.getD (Vector.replicate 96 0)))⟩, by simp⟩
    vrel := 0
    fl := ⟨⟨(List.range 96).map (fun l => BitVec.ofNat 5 (fieldAt b (336 + l) 1))⟩, by simp⟩
    ctl := t.ctl.load (b.drop 432)
    level := t.level.load (far false) (b.drop (if t.base.isSome then 1536 else 512))
    base := t.base.map (fun (l, sp) => (l.load (far true) (b.drop 512), sp))
    draw := ⟨⟨(List.range 96).map (fun l => BitVec.ofNat 64 (fieldAt b (2560 + 8 * l) 8))⟩, by simp⟩
    ray := ⟨⟨(List.range 96).map (fun l =>
      let o := 3328 + 12 * l
      ⟨wordAt b o, wordAt b (o + 4), (wordAt b (o + 8)).getLsbD 0⟩)⟩, by simp⟩ }

/-- The lanes of a replay-queue entry: address, size and data of each (R374). -/
def loadRqLanes (b : List Byte) : List (Nat × Nat × List Byte) → Nat → List (Nat × Nat × List Byte) × Nat
  | [], o => ([], o)
  | (l, _, _) :: ls, o =>
    let n := 2 ^ (fieldAt b (o + 8) 1 % 8)
    let (r, e) := loadRqLanes b ls (o + 16 + (n + 15) / 16 * 16)
    ((l, fieldAt b o 8, (b.drop (o + 16)).take n) :: r, e)

/-- The replay-queue entries of a wave record, in queue order (R163, R374). -/
def loadRq (b : List Byte) : List RqEntry → Nat → List RqEntry
  | [], _ => []
  | e :: es, o =>
    let (ls, next) := loadRqLanes b (e.lanes.take (fieldAt b (o + 8) 2)) (o + 16)
    { e with page := fieldAt b o 8, far := fieldAt b (o + 10) 1 == 2, lanes := ls } :: loadRq b es next

/-- Where the replay-queue entries of a wave record stand: behind its vector images, padded to 16. -/
def Thread.rqAt (t : Thread) (b : List Byte) : Nat :=
  ((loadVregs b ((List.range t.kern.vregs).map (fun r => tagOfCode (fieldAt b (272 + r) 1))) 4480).2 + 15) / 16 * 16

/-- A format block (R290, R376). -/
def loadFormat (b : List Byte) : MFormat :=
  { fa := fieldAt b 0 1, fb := fieldAt b 4 1, mode := fieldAt b 1 1 % 4 + 4 * fieldAt b 5 1
    glen := fieldAt b 2 1 % 4 + 4 * fieldAt b 6 1, asc := wordAt b 8, azp := wordAt b 12, bsc := wordAt b 16, bzp := wordAt b 20 }

/-- A saved reservation entry (R376). -/
def Resv.load (r : Resv) (b : List Byte) : Resv :=
  { r with
    fn := fieldAt b 0 1, tile := fieldAt b 1 1, zero := fieldAt b 2 1 != 0, offA := wordAt b 4, offB := wordAt b 8
    ctl := wordAt b 12, fmt := loadFormat (b.drop 16) }

/-- An MCC record (R376). -/
def Thread.loadMcc (t : Thread) (b : List Byte) : Thread :=
  { t.loadSregs (b.drop 16) with
    ctl := { t.ctl with
      mtouch := wordAt b 8, mpois := (wordAt b 12).getLsbD 0, mvpois := (wordAt b 12).getLsbD 1, hbatch := wordAt b 336
      herr := (wordAt b 340).msb, hcause := (wordAt b 340).extractLsb' 28 3, hbad := (wordAt b 340).extractLsb' 0 28 }
    level := { t.level with loops := loadLoops (b.drop 272) }
    mfmt := loadFormat (b.drop 304) }

/-- A barrier image (R373). -/
def Barrier.load (b : List Byte) : Barrier :=
  { phase := BitVec.ofNat 16 (fieldAt b 0 2), expect := fieldAt b 2 1, arrived := BitVec.ofNat 17 (fieldAt b 4 4)
    counter := BitVec.ofNat 32 (fieldAt b 8 4) }

/-- A lane that waits for an expander or for an order gate whose queue was full: its split is parked at the word (R165, R346). -/
def LaneAcc.parked (a : LaneAcc) : Bool := a.wait.isSome || a.gated == some true

/-- The word that a split is parked at in its flight alone, and its unfinished lanes (R160, R165). -/
def farParked (far : List Flight) (k : TKey) (inBase : Bool) (sp : Nat) : Option (Place × Mask) :=
  (far.find? (fun f => f.key == k && f.sp.toNat == sp && f.inBase == inBase && f.todo.any LaneAcc.parked)).map (fun f =>
    (f.at_, maskOf (fun l => f.todo.any (fun a => a.lane == l && a.parked))))

/-- The bytes of a wave's or the MCC thread's record in a context area (R372). -/
def State.recordOf (s : State) (area : Nat) (t : Thread) : List Byte :=
  let o := area + fieldAt (s.homeRead area 512) (if t.mcc then 40 else 64 + 8 * t.key.ix) 8
  s.homeRead o (fieldAt (s.homeRead o 4) 0 4)

/-- A flight of a word parked in it, with the unfinished lanes that its split's entry gives. -/
def Flight.load (f : Flight) (t : Thread) (b : List Byte) : Flight :=
  if f.todo.any LaneAcc.parked then
    let o := (if f.inBase || t.base.isNone then 512 else 1536) + 48 * f.sp.toNat + 32
    { f with todo := f.todo.filter (fun a => !a.parked || (maskAt b o).getLsbD a.lane) }
  else f

/-- A saved workgroup as its context area has it (R370). -/
def State.loadArea (s : State) (g : Workgroup) (area : Nat) : Workgroup :=
  let far (t : Thread) (inBase : Bool) (sp : Nat) : Bool := (farParked g.far t.key inBase sp).isSome
  let rec_ (k : TKey) : Option (Thread × List Byte) := (g.saved.find? (fun t => t.key == k)).map (fun t => (t, s.recordOf area t))
  let mcc := (g.saved.find? Thread.mcc).map (s.recordOf area)
  { g with
    saved := g.saved.map (fun t => if t.mcc then t.loadMcc (s.recordOf area t) else t.loadWave (far t) (s.recordOf area t))
    bars := ⟨⟨(List.range 16).map (fun i => Barrier.load (s.homeRead (area + 256 + 16 * i) 16))⟩, by simp⟩
    ents := ((List.range g.ents.length).zip g.ents).map (fun (i, r) => match mcc with
      | some b => r.load (b.drop (352 + 64 * i))
      | none => r)
    queue := ((g.queue.map RqEntry.key).dedup).flatMap (fun k => match rec_ k with
      | some (t, b) => loadRq b (g.queue.filter (fun e => e.key == k)) (t.rqAt b)
      | none => g.queue.filter (fun e => e.key == k))
    far := g.far.map (fun f => match rec_ f.key with
      | some (t, b) => if (farParked g.far f.key f.inBase f.sp.toNat).map Prod.fst = some f.at_ then f.load t b else f
      | none => f) }

end Sys2Proof.Machine
end

