-- ==== Sys2Proof/Machine/Crucible.lean ====
section
/-! DEFINITION. The Crucible: the CMP256 word, accepting and folding terms, the insertion buffer, the adjoint log (R220 to
R236). -/

namespace Sys2Proof.Machine

/-! ## The word (R220, R221) -/

/-- A CMP256 word. -/
structure CmpWord where
  l0   : Word
  l1   : Word
  l2   : Word
  t    : Word
  dn   : Word
  df   : Word
  nt   : BitVec 16
  flg  : BitVec 16
  head : Word
  deriving DecidableEq, Repr

/-- The word in 32 bytes. -/
def CmpWord.ofBytes (b : List Byte) : CmpWord :=
  ⟨wordAt b 0, wordAt b 4, wordAt b 8, wordAt b 12, wordAt b 16, wordAt b 20, BitVec.ofNat 16 (fieldAt b 24 2),
    BitVec.ofNat 16 (fieldAt b 26 2), wordAt b 28⟩

/-- The 32 bytes of a word. -/
def CmpWord.bytes (w : CmpWord) : List Byte :=
  bytesOfWords [w.l0, w.l1, w.l2, w.t, w.dn, w.df] ++ bytesOfNat 2 w.nt.toNat ++ bytesOfNat 2 w.flg.toNat ++
    bytesOfNat 4 w.head.toNat

/-- The cleared state under a slot (R220, R233). -/
def CmpWord.cleared (slot : BitVec 6) : CmpWord :=
  ⟨0, 0, 0, 0x3F800000, 0x7F800000, 0xFF800000, 0, slot.zeroExtend 16 <<< 6, 0xFFFFFFFF⟩

/-- The flags of FLG. -/
def flgCLOSED : BitVec 16 := 1
def flgORDER : BitVec 16 := 2
def flgFULLFOLD : BitVec 16 := 4
def flgLOGLOST : BitVec 16 := 8
def flgDROPPED : BitVec 16 := 16
def flgNANIN : BitVec 16 := 32

/-- The word with a flag set. -/
def CmpWord.set (w : CmpWord) (f : BitVec 16) : CmpWord := { w with flg := w.flg ||| f }

/-- The word is closed. -/
def CmpWord.closed (w : CmpWord) : Bool := w.flg.getLsbD 0

/-- The word's slot. -/
def CmpWord.slot (w : CmpWord) : BitVec 6 := w.flg.extractLsb' 6 6

/-- Depth order (R94, R226). -/
def depthLe (a b : Word) : Bool := decide ((key32 a).toNat ≤ (key32 b).toNat)

/-- A term: depth, opacity, colour. -/
structure Term where
  z  : Word
  a  : Word
  c0 : Word
  c1 : Word
  c2 : Word
  deriving DecidableEq, Repr

/-- A term with a NaN input (R226). -/
def Term.nan (t : Term) : Bool := isNan32 t.z || isNan32 t.a || isNan32 t.c0 || isNan32 t.c1 || isNan32 t.c2

/-- The exact clamp of α (R226). -/
def clampAlpha (a : Word) : Word :=
  match FFmt.fp32.read a with
  | .zero _ => 0
  | .inf n => if n then 0 else 0x3F800000
  | .fin x => if x ≤ 0 then 0 else if 1 < x then 0x3F800000 else a
  | .nan => a

/-- FP32 order of two values that are not NaN. -/
def less32 (a b : Word) : Bool :=
  !isNan32 a && !isNan32 b && (a &&& 0x7FFFFFFF != 0 || b &&& 0x7FFFFFFF != 0) &&
    decide ((key32 a).toNat < (key32 b).toNat)

/-- What a fold makes of the word, and the KIND of its record; none when the term is dropped (R228). -/
def CmpWord.fold (e : CmpWord) (tau : Word) (t : Term) (forced : Bool) : CmpWord × Option Nat :=
  if e.closed && depthLe e.df t.z then (e.set flgDROPPED, none)
  else
    let om := sub32 0x3F800000 t.a
    let normal := depthLe e.df t.z
    let between := !normal && !depthLe t.z e.dn
    let a := mul32 e.t t.a
    let e1 :=
      if normal then { e with l0 := fma32 a t.c0 e.l0, l1 := fma32 a t.c1 e.l1, l2 := fma32 a t.c2 e.l2 }
      else { e with
        l0 := fma32 om e.l0 (mul32 t.a t.c0), l1 := fma32 om e.l1 (mul32 t.a t.c1), l2 := fma32 om e.l2 (mul32 t.a t.c2) }
    let e2 := { e1 with
      t := mul32 e.t om
      dn := if depthLe e.dn t.z then e.dn else t.z
      df := if depthLe t.z e.df then e.df else t.z
      nt := if e.nt = 65535 then e.nt else e.nt + 1 }
    let e3 := if between then e2.set flgORDER else e2
    let e4 := if forced then e3.set flgFULLFOLD else e3
    let shut := less32 e4.t tau
    (if shut then e4.set flgCLOSED else e4,
     some ((if normal then 0 else 1) + (if between then 2 else 0) + (if forced then 4 else 0) + (if shut then 8 else 0)))

/-- What CLDA writes (R232). -/
def CmpWord.loaded (w : CmpWord) : List Word := [w.l0, w.l1, w.l2, w.t, w.nt ++ w.flg]

/-! ## Slots and the adjoint log (R222, R230) -/

/-- A compositing slot. -/
def State.slotOf (s : State) (k : BitVec 6) : CmpSlot := s.slots[k.toNat]'(by omega)

/-- The log cursor of a slice in a slot. -/
def CmpSlot.cursor (c : CmpSlot) (q : Nat) : Nat := ((c.cursors.find? (fun x => x.1 == q)).map Prod.snd).getD 0

/-- The record of a fold (R230). -/
def adjointRecord (e : CmpWord) (t : Term) (kind : Nat) : List Byte :=
  bytesOfWords [e.head, BitVec.ofNat 32 kind, t.z, t.a, t.c0, t.c1, t.c2, e.t, e.l0, e.l1, e.l2, 0, 0, 0, 0, 0]

/-- A fold is logged: the word with its new HEAD, or with LOGLOST set (R230). `e` is the word before the fold. -/
def State.logFold (s : State) (pa : Nat) (e w : CmpWord) (t : Term) (kind : Nat) : State × CmpWord :=
  let k := e.slot
  let c := s.slotOf k
  if !c.lflags.getLsbD 0 then (s, w)
  else
    let q := s.sliceOf pa
    let j := c.cursor q
    if 2 ^ c.segLog ≤ j then (s, w.set flgLOGLOST)
    else
      let i := q * 2 ^ c.segLog + j
      let c' := { c with cursors := (q, j + 1) :: c.cursors.filter (fun x => x.1 != q) }
      let s := { s with slots := s.slots.setIfInBounds k.toNat c' }
      match s.recordPage { Env.none with ptroot := c.root } (c.logBase + 64 * i) 64 with
      | some rec => (s.engineWrite rec (adjointRecord e t kind), { w with head := BitVec.ofNat 32 i })
      | none => (s, w.set flgLOGLOST)

/-! ## The insertion buffer (R227) -/

/-- The buffered entries of a word, nearest first. -/
def State.buffered (s : State) (pa : Nat) : List CrucEntry :=
  ((s.crucible.find? (fun x => x.1 == pa)).map Prod.snd).getD []

/-- Replace a word's entries. -/
def State.setBuffered (s : State) (pa : Nat) (es : List CrucEntry) : State :=
  let rest := s.crucible.filter (fun x => x.1 != pa)
  { s with crucible := if es.isEmpty then rest else (pa, es) :: rest }

/-- The word at its home. -/
def State.cmpWord (s : State) (pa : Nat) : CmpWord := CmpWord.ofBytes (s.homeRead pa 32)

/-- Write the word at its home. -/
def State.writeCmp (s : State) (pa : Nat) (w : CmpWord) : State :=
  (s.engineWrite pa w.bytes).l2Write Env.none pa 32 0 false

/-- The term of an entry. -/
def CrucEntry.term (e : CrucEntry) : Term := ⟨e.depth, e.alpha, e.c0, e.c1, e.c2⟩

/-- Fold one term into its word (R228, R230); a poisoned word takes none (R236). -/
def State.foldTerm (s : State) (pa : Nat) (t : Term) (forced : Bool) : State :=
  if s.poisoned pa 32 then s
  else
    let e := s.cmpWord pa
    match e.fold (s.slotOf e.slot).tau t forced with
    | (w, none) => s.writeCmp pa w
    | (w, some kind) =>
      let (s, w) := s.logFold pa e w t kind
      s.writeCmp pa w

/-- The nearest entry of a word folds. -/
def State.foldNearest (s : State) (pa : Nat) (forced : Bool) : State :=
  match s.buffered pa with
  | [] => s
  | e :: es => if s.poisoned pa 32 then s.setBuffered pa [] else (s.setBuffered pa es).foldTerm pa e.term forced

/-- The clocks a word's nearest entry must have waited (R227). -/
def State.holdWindow (s : State) (pa : Nat) : Nat := max 1 (s.slotOf (s.cmpWord pa).slot).hold

/-- The clock in which the nearest entry of a word folds by its age. -/
def State.holdDue (s : State) (pa : Nat) : Option Nat := (s.buffered pa).head?.map (fun e => e.clock + s.holdWindow pa)

/-- The nearest entry of a word has reached the hold window. -/
def State.holdOver (s : State) (pa : Nat) : Bool := (s.holdDue pa).any (fun c => decide (c ≤ s.clock))

/-- The nearest entry of a word folds by its age, in clock `c`; the one behind it folds in a later clock. -/
def State.holdFold (s : State) (pa c : Nat) : State :=
  let s := s.foldNearest pa false
  match s.buffered pa with
  | [] => s
  | e :: es => s.setBuffered pa ({ e with clock := max e.clock (c + 1 - s.holdWindow pa) } :: es)

/-- Of the words of a slice with an entry that is due by now, the one whose entry folds first, and its clock. -/
def State.firstDue (s : State) (slice : Nat) : Option (Nat × Nat) :=
  s.crucible.foldl (fun best (pa, _) =>
    match s.holdDue pa with
    | some c =>
      if s.sliceOf pa = slice ∧ c ≤ s.clock ∧ best.all (fun b => decide (c < b.2)) then some (pa, c) else best
    | none => best) none

/-- The entries of a slice that have been due fold, each in its clock (R227). -/
def State.foldDue (s : State) (slice : Nat) : Nat → State
  | 0 => s
  | n + 1 =>
    match s.firstDue slice with
    | some (pa, c) => (s.holdFold pa c).foldDue slice n
    | none => s

/-- The Crucible of a word as it stands in the present clock: what was due has folded. -/
def State.crucibleNow (s : State) (pa : Nat) : State :=
  s.foldDue (s.sliceOf pa) (s.crucible.map (fun x => x.2.length)).sum

/-- Every entry of a word folds, nearest first, behind those of its slice that were due; a poisoned word's entries are discarded
(R227, R236). -/
def State.foldAll (s : State) (pa : Nat) : State :=
  let s := s.crucibleNow pa
  let es := s.buffered pa
  if s.poisoned pa 32 then s.setBuffered pa []
  else es.foldl (fun s e => s.foldTerm pa e.term false) (s.setBuffered pa [])

/-- A raw access to bytes of a CMP page forces the entries of each word it touches (R234). -/
def State.foldRange (s : State) (pa n : Nat) : State :=
  (List.range ((pa + n - 1) / 32 + 1 - pa / 32)).foldl (fun s i => s.foldAll (32 * (pa / 32 + i))) s

/-- Insert an entry behind those at its depth or nearer. -/
def insertEntry (x : CrucEntry) : List CrucEntry → List CrucEntry
  | [] => [x]
  | y :: ys => if depthLe y.depth x.depth then y :: insertEntry x ys else x :: y :: ys

/-- An arriving term enters the buffer of its word. -/
def State.bufferTerm (s : State) (pa : Nat) (t : Term) : State :=
  s.setBuffered pa (insertEntry ⟨t.z, t.a, t.c0, t.c1, t.c2, s.clock⟩ (s.buffered pa))

/-- A term enters the insertion buffer, or folds at once (R227). -/
def State.enterTerm (s : State) (pa : Nat) (ds : Bool) (t : Term) : State :=
  let es := s.buffered pa
  let here := s.crucible.filter (fun x => s.sliceOf x.1 == s.sliceOf pa)
  if ds then s.foldTerm pa t false
  else if es.isEmpty ∧ 512 ≤ here.length then s.foldTerm pa t true
  else if 4096 ≤ (here.map (fun x => x.2.length)).sum then s.foldTerm pa t true
  else if 8 ≤ es.length then
    if es.all (fun e => !depthLe e.depth t.z) then s.foldTerm pa t true
    else (s.foldNearest pa true).bufferTerm pa t
  else s.bufferTerm pa t

/-- A term arrives at its word, behind the folds that are due by this clock (R226, R227, R236). -/
def State.acceptTerm (s : State) (pa : Nat) (ds : Bool) (t : Term) : State :=
  let s := s.crucibleNow pa
  if s.poisoned pa 32 then s.setBuffered pa []
  else
    let e := s.cmpWord pa
    if t.nan then s.writeCmp pa (e.set flgNANIN)
    else if e.closed && depthLe e.df t.z then s.writeCmp pa (e.set flgDROPPED)
    else s.enterTerm pa ds { t with a := clampAlpha t.a }

/-- CRUCIBLE_HOLD_EXPIRE: the nearest entry of a word has reached the hold window and folds, behind those of the slice that were
due (R227). -/
def execCrucibleHoldExpire (pa : Nat) (s : State) : Out :=
  if s.holdOver pa then .next (s.crucibleNow pa) else .next s

/-- CCLR's write: the entries that are not yet due are discarded, the whole sector is written (R233, R236). -/
def State.clearCmp (s : State) (pa : Nat) (slot : BitVec 6) : State :=
  ((s.crucibleNow pa).setBuffered pa []).writeCmp pa (CmpWord.cleared slot)

end Sys2Proof.Machine
end

