-- ==== Sys2Proof/Machine/Nodes.lean ====
section
/-! DEFINITION. Regions and node queues: resolving an RCB chain (R325, R326), appending records, firing groups (R331,
R334). -/

namespace Sys2Proof.Machine

/-! ## Region control blocks (R325, R326) -/

/-- Bytes of an RCB image that the layout gives as zero, and fields inside their limits (R325). -/
def rcbOk (b : List Byte) : Bool :=
  let zero (i n : Nat) : Bool := fieldAt b i n == 0
  decide (b.length = 256) && fieldAt b 0 8 % 256 == 0 && fieldAt b 8 8 % 4096 == 0 && decide (fieldAt b 16 4 ≤ 640) &&
    decide (fieldAt b 32 1 ≤ 16) && fieldAt b 33 1 / 8 % 16 == 0 && fieldAt b 36 2 / 32 == 0 &&
    decide (fieldAt b 40 1 ≤ 3) && zero 41 7 && fieldAt b 64 8 % 16 == 0 && fieldAt b 80 8 % 64 == 0 &&
    fieldAt b 96 8 % 8 == 0 && decide (fieldAt b 104 4 ≤ 1000000) && zero 120 136

/-- The chain of RCBs from a region to the root, the root first; none when one breaks R325. -/
def State.rcbChain (s : State) : Nat → Nat → List (Nat × List Byte) → Option (List (Nat × List Byte))
  | 0, _, _ => none
  | n + 1, rcb, acc =>
    let b := s.homeRead rcb 256
    if rcb % 256 ≠ 0 ∨ !rcbOk b then none
    else if fieldAt b 0 8 = 0 then some ((rcb, b) :: acc)
    else s.rcbChain n (fieldAt b 0 8) ((rcb, b) :: acc)

/-- A field that is inherited when it is zero. -/
def inherit (own parent : Nat) : Nat := if own = 0 then parent else own

/-- One region's facts from its RCB and its parent's facts; `prio` is the resolved priority before its cap. -/
def resolveRcb (up : Env × Nat) (r : Nat × List Byte) : Env × Nat :=
  let (e, prio) := up
  let (rcb, b) := r
  let f := fieldAt b
  let own := f 33 1
  let p := if own / 128 = 1 then own % 8 else prio
  let set : BitVec 5 := BitVec.ofNat 5 (f 38 2)
  let cores := inherit (f 16 4) ((e.chain.head?.map Budget.cores).getD 640)
  let clm := if f 20 4 = 0 then e.chain.head?.bind Budget.clm else some (256 * f 20 4)
  let regs := if f 24 8 = 0 then e.chain.head?.bind Budget.regs else some (f 24 8)
  let root := e.chain.isEmpty
  ({ rcb := rcb
     ptroot := inherit (f 8 8) e.ptroot
     prio := if root then p else min p e.prio
     fdomain := inherit (f 34 2) e.fdomain
     policy := (BitVec.ofNat 5 (f 36 2) &&& set) ||| (e.policy &&& ~~~set)
     dmode := inherit (f 40 1) e.dmode
     key := if f 48 16 = 0 then e.key else BitVec.ofNat 128 (f 48 16)
     l2ways := inherit (f 32 1) e.l2ways
     trbase := f 64 8
     trcap := f 72 4
     logbase := f 80 8
     logcap := f 88 4
     hashbase := f 96 8
     reptmo := inherit (f 104 4) 1000
     chain := ⟨rcb, cores, clm, regs⟩ :: e.chain }, p)

/-- The facts of a region, resolved along its chain; none when an RCB of it breaks R325 or no page-table root is found
(R325). A chain of more than 64 regions has a cycle or counts as one. -/
def State.resolveEnv (s : State) (rcb : Nat) : Option Env :=
  match s.rcbChain 64 rcb [] with
  | none => none
  | some c =>
    let e := (c.foldl resolveRcb (Env.none, 0)).1
    if e.ptroot = 0 then none else some e

/-- The Ladle of a region in which nothing has run. -/
def Ladle.start : Ladle :=
  { holder := none, opened := false, count := 0, want := 0, leaving := false, last := none, since := 0, fallback := false }

/-- A region in which nothing has run. -/
def Region.start (e : Env) : Region :=
  { rcb := e.rcb, env := e, nextSeq := 0, runFrom := 0, nodes := [], ticket := 0, ladle := Ladle.start,
    traceStop := false, wgCursor := 0, visitCursor := 0, wgFallback := false, logStop := false, gates := [] }

/-- The part holds the region, with the facts as they resolve now; another DMODE begins a run. -/
def State.openRegion (s : State) (e : Env) : State :=
  match s.region? e.rcb with
  | some _ => s.modRegion e.rcb (fun r =>
    { r with env := e, runFrom := if r.env.dmode = e.dmode then r.runFrom else r.nextSeq })
  | none => { s with regions := s.regions ++ [Region.start e] }

/-! ## Node queues (R331, R334) -/

/-- A node of a region; a node whose image was unloaded has no ring. -/
def State.node? (s : State) (rcb n : Nat) : Option NodeQueue :=
  ((s.region? rcb).bind (fun r => r.nodes[n]?)).filter (fun q => q.cap != 0)

/-- Change a node of a region. -/
def State.modNode (s : State) (rcb n : Nat) (f : NodeQueue → NodeQueue) : State :=
  s.modRegion rcb (fun r => { r with nodes := (List.range r.nodes.length).zip r.nodes |>.map (fun (i, q) =>
    if i = n then f q else q) })

/-- The index in the region of the node that a field of the kernel's image names (R331; log entry 41). -/
def State.imageNode (s : State) (k : Kern) (n : Nat) : Nat :=
  ((s.images.find? (fun i => i.handle == k.image)).bind (fun i => i.nodes.head?)).getD 0 + n

/-- The ring has a free slot (R331). -/
def NodeQueue.hasRoom (q : NodeQueue) : Bool := decide (q.appended - q.freed < q.cap)

/-- The virtual address of a slot. -/
def NodeQueue.slotVa (q : NodeQueue) (k : Nat) : Nat := q.ring.toNat + q.recBytes * (k % q.cap)

/-- Put slots into waves in order: 96 to a wave, a record of the raster pipeline in a wave of its own (R334, R278).
`done` are the full waves before the one being filled; what finds no wave is left over. -/
def packWaves (waves : Nat) (solo : Nat → Bool) : List (List Nat) → List Nat → List Nat → List (List Nat) × List Nat
  | done, cur, [] => (if cur.isEmpty then done else done ++ [cur], [])
  | done, cur, k :: ks =>
    let closed := if cur.isEmpty then done else done ++ [cur]
    if solo k then
      if closed.length < waves then packWaves waves solo (closed ++ [[k]]) [] ks else (closed, k :: ks)
    else if cur.length < 96 ∧ done.length < waves then packWaves waves solo done (cur ++ [k]) ks
    else if closed.length < waves then packWaves waves solo closed [k] ks
    else (closed, k :: ks)

/-- The slots of a node that no group has taken. -/
def NodeQueue.free (q : NodeQueue) : List Nat := (List.range (q.appended - q.taken)).map (fun i => q.taken + i)

/-- The groups of a node's waiting records: the waves of the first group, and what is left over. -/
def NodeQueue.pack (q : NodeQueue) : List (List Nat) × List Nat :=
  packWaves q.kern.waves (fun k => q.solo.contains k) [] [] q.free

/-- A group is full: a record is left over, or every wave is as full as it can be (R334). -/
def NodeQueue.full (q : NodeQueue) : Bool :=
  let (ws, rest) := q.pack
  !rest.isEmpty || (ws.length == q.kern.waves &&
    (ws.getLast?.map (fun w => w.length == 96 || w.any (fun k => q.solo.contains k))).getD false)

/-- The RCB made from a region template for a launching region (R46). -/
def Image.copyFor (i : Image) (template rcb : Nat) : Option Nat :=
  (i.made.find? (fun (t, r, _) => t == template && r == rcb)).map (fun (_, _, a) => a)

/-- The region that a node's stream runs under: its kernel's region template, or the node's region (R44). -/
def State.streamRegion (s : State) (rcb : Nat) (q : NodeQueue) : Nat :=
  ((s.images.find? (fun i => i.handle == q.kern.image)).bind (fun i =>
    q.kern.template.bind (fun t => i.copyFor t rcb))).getD rcb

/-- The dispatch that stands for a node's stream, made when it first launches (R325, R334). -/
def State.openStream (s : State) (rcb n : Nat) : State × Nat :=
  match s.node? rcb n with
  | none => (s, 0)
  | some q =>
    match q.stream with
    | some d => (s, d)
    | none =>
      let env := (s.resolveEnv (s.streamRegion rcb q)).getD ((s.region? rcb).map Region.env |>.getD Env.none)
      let d : Dispatch :=
        { id := s.nextId, env := env, kern := q.kern, seq := 0xFFFFFFFF, node := some (rcb, n), args := q.ring, count := 0, next := 0
          done := 0, retired := [], chans := Vector.replicate 16 ⟨0, [], []⟩, groups := [] }
      let s := s.openRegion env
      (({ s with nextId := s.nextId + 1, dispatches := s.dispatches ++ [d] } : State).modNode rcb n (fun q =>
        { q with stream := some d.id }), d.id)

/-- The first records of a node that no group has taken, as many as `limit`, fire as one group (R334). -/
def State.fireSome (s : State) (rcb n limit : Nat) : State :=
  match s.node? rcb n with
  | none => s
  | some q =>
    let (ws, rest) := packWaves q.kern.waves (fun k => q.solo.contains k) [] [] (q.free.take limit)
    let left := rest.length + (q.free.length - limit)
    if ws.isEmpty then s
    else
      let (s, d) := s.openStream rcb n
      let s := s.modDispatch d (fun d => { d with count := d.count + 1, groups := d.groups ++ [ws] })
      s.modNode rcb n (fun q => { q with
        taken := q.appended - left
        ages := q.ages.drop (q.appended - left - q.taken)
        solo := q.solo.filter (fun k => decide (q.appended - left ≤ k)) })

/-- The waiting records of a node fire as one group (R334). -/
def State.fireGroup (s : State) (rcb n : Nat) : State :=
  match s.node? rcb n with
  | some q => s.fireSome rcb n q.free.length
  | none => s

/-- The launcher of a region is held to its trace (R337). -/
def Region.replays (r : Region) : Bool := r.env.dmode == 3 && !r.wgFallback

/-- The facts under which a node's stream runs, or will run. -/
def State.streamReplays (s : State) (rcb : Nat) (q : NodeQueue) : Bool :=
  match s.region? (s.streamRegion rcb q) with
  | some r => r.replays
  | none => ((s.resolveEnv (s.streamRegion rcb q)).map (fun e => e.dmode == 3)).getD false

/-- A group of a node is due: it fires, or asks Trestle first (R388); in a replayed region the trace says when it fires
(R337). -/
def State.groupDue (s : State) (rcb n : Nat) : State :=
  match s.node? rcb n with
  | none => s
  | some q =>
    if s.streamReplays rcb q then s
    else if s.assisted 4 then
      if s.plat.dutyReqs.any (fun r => r.fn == 4 && r.a == rcb && r.b == n) then s else s.ask 4 rcb n []
    else s.fireGroup rcb n

/-- Append a record to a node's queue; none when the ring is full (R331). The bytes of a record whose slot lies on no
page that may be written are lost (log entry 42). -/
def State.appendRecord (s : State) (rcb n : Nat) (bytes : List Byte) (solo : Bool) : Option State :=
  match s.region? rcb, s.node? rcb n with
  | some r, some q =>
    if !q.hasRoom then none
    else
      let s := (s.writeVirt r.env.ptroot (q.slotVa q.appended) bytes).modNode rcb n (fun q => { q with
        appended := q.appended + 1
        ages := q.ages ++ [s.time]
        solo := if solo then q.solo ++ [q.appended] else q.solo })
      some (if ((s.node? rcb n).map NodeQueue.full).getD false then s.groupDue rcb n else s)
  | _, _ => none

/-- NODE_GROUP_TIMER: TIMER ns have passed since the first record of a partial group was appended (R334). -/
def execNodeGroupTimer (rcb node : Nat) (s : State) : Out :=
  match s.node? rcb node with
  | some q =>
    if q.taken < q.appended ∧ (q.ages.headD 0 + q.timer ≤ s.time ∨ q.full) then .next (s.groupDue rcb node) else .next s
  | none => .next s

end Sys2Proof.Machine
end

