-- ==== Sys2Proof/Machine/Estimator.lean ====
section
/-! DEFINITION. EST: the EST128 word and its arithmetic, contributions, merges, generations, reads, watches (R197 to
R215). -/

namespace Sys2Proof.Machine

/-! ## The word (R197, R198) -/

/-- An EST128 word. -/
structure EstWord where
  w    : Word
  mean : Word
  m2   : Word
  n    : Nat
  gen  : Nat
  dec  : Nat
  deriving DecidableEq, Repr

/-- The word in 16 bytes. -/
def EstWord.ofBytes (b : List Byte) : EstWord :=
  let x := fieldAt b 12 4
  ⟨wordAt b 0, wordAt b 4, wordAt b 8, x % 65536, x / 65536 % 4096, x / 2 ^ 28⟩

/-- Bits [127:96]. -/
def EstWord.top (e : EstWord) : Word := BitVec.ofNat 32 (e.n + 65536 * e.gen + 2 ^ 28 * e.dec)

/-- The 16 bytes of a word. -/
def EstWord.bytes (e : EstWord) : List Byte := bytesOfWords [e.w, e.mean, e.m2, e.top]

/-- Ageing by k (R198). -/
def age (v : Word) (k : Nat) : Word :=
  match FFmt.fp32.read v with
  | .fin x =>
    if k = 0 then v
    else if 300 < k then v &&& 0x80000000
    else
      let y := x * pow2 (-(k : Int))
      let r := fp32Of y
      if rat32 r = y then r else v &&& 0x80000000
  | .nan | .inf _ | .zero _ => v

/-- The FP32 value is below zero. -/
def below0 (v : Word) : Bool :=
  match FFmt.fp32.read v with
  | .inf n => n
  | .fin x => decide (x < 0)
  | .nan | .zero _ => false

/-- The FP32 value is zero. -/
def isZero32 (v : Word) : Bool := v &&& 0x7FFFFFFF == 0

/-- The generation step from a word to an incoming generation (R198): newer by, older by. -/
def genStep (e g : Nat) : Nat × Nat :=
  let d := (g + 4096 - e % 4096) % 4096
  if d = 0 then (0, 0) else if d ≤ 2047 then (d, 0) else (0, 4096 - d)

/-- The word aged to a newer generation, or as it is (R200, R203). -/
def EstWord.ageTo (e : EstWord) (g : Nat) : EstWord :=
  let n := (genStep e.gen g).1
  if n = 0 then e else { e with w := age e.w (e.dec * n), m2 := age e.m2 (e.dec * n), gen := g % 4096 }

/-- A contribution; none when it is discarded (R200). -/
def EstWord.contribute (e : EstWord) (x w : Word) (g : Nat) : Option EstWord :=
  if notFinite32 x || notFinite32 w || below0 w then none
  else
    let older := (genStep e.gen g).2
    let e := e.ageTo g
    let w := if older = 0 then w else age w (e.dec * older)
    let e := { e with n := min (e.n + 1) 65535 }
    if isZero32 w then some e
    else
      let w1 := add32 e.w w
      let delta := sub32 x e.mean
      let r := div32 w w1
      let m1 := add32 e.mean (mul32 r delta)
      let t := sub32 x m1
      some { e with m2 := add32 e.m2 (mul32 (mul32 w delta) t), w := w1, mean := m1 }

/-- A merge with a partial estimator; none when it is discarded (R202). -/
def EstWord.merge (e b : EstWord) : Option EstWord :=
  if notFinite32 b.w || notFinite32 b.mean || notFinite32 b.m2 || below0 b.w || below0 b.m2 then none
  else
    let older := (genStep e.gen b.gen).2
    let e := e.ageTo b.gen
    let bw := if older = 0 then b.w else age b.w (e.dec * older)
    let bm := if older = 0 then b.m2 else age b.m2 (e.dec * older)
    let e := { e with n := min (e.n + b.n) 65535 }
    if isZero32 bw then some { e with m2 := add32 e.m2 bm }
    else
      let w := add32 e.w bw
      let delta := sub32 b.mean e.mean
      let r := div32 bw w
      let m1 := add32 e.mean (mul32 r delta)
      let p := div32 (mul32 (mul32 (mul32 delta delta) e.w) bw) w
      some { e with m2 := add32 (add32 e.m2 bm) p, w := w, mean := m1 }

/-- The standard error that ELD returns, as the steps of R204 give it: where its prose has a negative M2 or W give canon(FP32),
the steps give +infinity for N below 2, and a number where both are negative or the quotient is −0 (log entry 121). -/
def EstWord.se (e : EstWord) : Word :=
  if e.n < 2 ∨ isZero32 e.w then 0x7F800000
  else (fsqrt32 (div32 (div32 e.m2 e.w) (fp32Of (e.n - 1 : Nat)))).v

/-- What ELD and ELDR write (R204, R205). -/
def EstWord.loaded (e : EstWord) (raw : Bool) : List Word :=
  if raw then [e.w, e.mean, e.m2, e.top] else [e.mean, e.se, e.w, e.top]

/-! ## Words in flight (R199, R206) -/

/-- A lane's requests: for EGEN one run of words in each 256-byte line, so that runs with different homes are not ordered (R203);
else the lane itself. -/
def genRuns (work : Work) (a : LaneAcc) : List LaneAcc :=
  if work = .estGen then
    let g := a.data[0]?.getD 0
    let c := (a.data[1]?.getD 0).toNat
    (List.range ((a.pa % 256 + 16 * c + 255) / 256)).map (fun i =>
      let lo := max a.pa (256 * (a.pa / 256 + i))
      let hi := min (a.pa + 16 * c) (256 * (a.pa / 256 + i) + 256)
      { a with va := a.va + (lo - a.pa), pa := lo, data := [g, BitVec.ofNat 32 ((hi - lo) / 16)] })
  else [a]

/-- A word whose lanes send updates to EST words (R206): `data` gives a lane's words. -/
def estSend (work : Work) (p : BitVec 5) (a : Reg) (h : BitVec 2) (extra : Nat → Nat → Page → Bool)
    (data : Nat → List Word) (s : State) (span : Nat → Nat := fun _ => 16) : State :=
  s.accessQueue .estAdd 16 16 4 (some work) false false h extra (fun l => bytesOfWords (data l)) (s.vecReqs p a)
    (fun (s : State) ds go => s.fly { s.newFlight work 0 false 0 0 h ((s.laneAccs go data).flatMap (genRuns work)) [] with ds := ds })
    span

/-- ESTA: a sample of weight 1 (R199). -/
def execEsta (d a : Reg) (p : BitVec 5) (h : BitVec 2) (s : State) : Out :=
  .next (estSend (.estAdd 0) p a h noExtra (s.laneData d.toNat 1) s)

/-- ESTW: a sample and its weight (R199). -/
def execEstw (d a : Reg) (p : BitVec 5) (h : BitVec 2) (s : State) : Out :=
  .next (estSend (.estAdd 1) p a h noExtra (s.laneData d.toNat 2) s)

/-- ESTG: a sample, its weight and its generation (R199). -/
def execEstg (d a : Reg) (p : BitVec 5) (h : BitVec 2) (s : State) : Out :=
  .next (estSend (.estAdd 2) p a h noExtra (s.laneData d.toNat 3) s)

/-- EMRG: a partial estimator (R202). -/
def execEmrg (d a : Reg) (p : BitVec 5) (h : BitVec 2) (s : State) : Out :=
  .next (estSend .estMerge p a h noExtra (s.laneData d.toNat 4) s)

/-- What EGEN's lanes carry: the generation and the count of words (R203). -/
def genData (x : Word) : List Word := [x &&& 0xFFF, (x >>> 16) + 1]

/-- EGEN's range ends inside the page of its first word (R203). -/
def genFits (data : Nat → List Word) (l va : Nat) (p : Page) : Bool :=
  decide (va % p.size + 16 * ((data l)[1]?.getD 0).toNat ≤ p.size)

/-- EGEN: advance the generation of a run of words (R203). -/
def execEgen (d a : Reg) (p : BitVec 5) (h : BitVec 2) (s : State) : Out :=
  let data (l : Nat) : List Word := genData (laneOf (s.rdV d) l)
  .next (estSend .estGen p a h (genFits data) data s (fun l => 16 * ((data l)[1]?.getD 0).toNat))

/-- ELD and ELDR (R204, R205, R206). -/
def estLoad (raw : Bool) (d a : Reg) (p : BitVec 5) (h : BitVec 2) (s : State) : State :=
  s.accessPark .estRead 16 16 false 4 noExtra (s.vecReqs p a)
    (fun (s : State) _ go => s.fly (s.newFlight (.estLoad raw) 0 false d.toNat 4 h (s.laneAccs go (fun _ => [])) []))

/-- ELD: mean, standard error, weight, counts (R204). -/
def execEld (d a : Reg) (p : BitVec 5) (h : BitVec 2) (s : State) : Out := .next (estLoad false d a p h s)

/-- ELDR: the raw word (R205). -/
def execEldr (d a : Reg) (p : BitVec 5) (h : BitVec 2) (s : State) : Out := .next (estLoad true d a p h s)

/-! ## Application at the home slice (R200 to R203, R207, R208) -/

/-- A discarded update of a thread: its acknowledgement is on the way (R201). -/
def State.dropEst (s : State) (k : TKey) : State := s.modThread k (fun t => { t with drops := t.drops + 1 })

/-- One lane's update of the word at its home; a poisoned word takes none (R207). -/
def State.applyEst (s : State) (k : TKey) (hint : BitVec 2) (pa : Nat) (f : EstWord → Option EstWord) : State :=
  let env := s.envOf k
  let s := s.touchL2 env pa hint false
  if s.poisoned pa 16 then s.dropEst k
  else
    match f (EstWord.ofBytes (s.homeRead pa 16)) with
    | some e => (s.engineWrite pa e.bytes).l2Write env pa 16 hint false
    | none => s.dropEst k

/-- What a lane's data does to its word. -/
def estUpdate (work : Work) (data : List Word) (e : EstWord) : Option EstWord :=
  let w (i : Nat) : Word := data[i]?.getD 0
  match work with
  | .estAdd 0 => e.contribute (w 0) 0x3F800000 e.gen
  | .estAdd 1 => e.contribute (w 0) (w 1) e.gen
  | .estAdd _ => e.contribute (w 0) (w 1) ((w 2).toNat % 4096)
  | .estMerge => e.merge (EstWord.ofBytes (bytesOfWords data))
  | .estGen => some (e.ageTo (w 0).toNat)
  | .load .. | .atomic _ | .estLoad _ | .cmpTerm | .cmpFlush | .cmpClear _ | .cmpLoad | .crep |
    .ray .. | .format | .result => some e

/-- An EGEN lane after one word: on to the next, or done. -/
def nextGen (a : LaneAcc) : Option LaneAcc :=
  let n := (a.data[1]?.getD 0)
  if n ≤ 1 then none
  else some { a with va := a.va + 16, pa := a.pa + 16, data := [a.data[0]?.getD 0, n - 1] }

/-- The lanes of a flight that stand at one word: they update it one after another, in ascending order (R192). -/
def Flight.at? (f : Flight) (pa : Nat) : List LaneAcc :=
  (List.range 96).filterMap (fun l => f.todo.find? (fun a => a.lane == l && a.pa == pa))

/-- A lane's update may be applied now: nothing of its thread stands before it (R208), and for EGEN every lane that still
has to reach the word stands at it, and no earlier run of the lane has the same home (R192, R203). -/
def State.estReady (s : State) (f : Flight) (a : LaneAcc) : Bool :=
  !s.behind f a && !s.behindStore f a &&
  (f.work != .estGen || f.todo.all (fun b =>
    (b.pa == a.pa || !overlaps b.pa (b.span .estGen) a.pa 16) &&
      !(b.lane == a.lane && decide (b.pa < a.pa) && s.sliceOf b.pa == s.sliceOf a.pa)))

/-- Of the runs of a lane that may go on, the one that does: which of several is open (R203). -/
def State.estNext (s : State) (f : Flight) (lane : Nat) : Option LaneAcc :=
  match f.todo.filter (fun a => a.lane == lane && s.estReady f a) with
  | [] => none
  | [a] => some a
  | a :: as => (a :: as)[Config.genOrder s.stamp % (as.length + 1)]?

/-- The lanes of a flight at the word of one lane are applied. -/
def State.estApply (s : State) (id lane : Nat) (mine : Work → Bool) : State :=
  match s.flight? id with
  | none => s
  | some f =>
    match s.estNext f lane with
    | none => s
    | some a =>
      if !mine f.work then s
      else
        let here := f.at? a.pa
        let s := here.foldl (fun s b => s.applyEst f.key f.hint b.pa (estUpdate f.work b.data)) s
        (s.modFlight id (fun f => { f with todo := f.todo.filterMap (fun b =>
          if b.pa = a.pa then (if f.work = .estGen then nextGen b else none) else some b) })).sweepFlights

/-- The flight contributes. -/
def Work.isEstAdd : Work → Bool
  | .estAdd _ => true
  | .load .. | .atomic _ | .estMerge | .estGen | .estLoad _ | .cmpTerm | .cmpFlush | .cmpClear _ | .cmpLoad | .crep |
    .ray .. | .format | .result =>
    false

/-- EST_CONTRIBUTE_APPLY: a contribution is folded into its word, with those of the same instruction to that word
(R200, R208). -/
def execEstContributeApply (id lane : Nat) (s : State) : Out := .next (s.estApply id lane Work.isEstAdd)

/-- EST_MERGE_APPLY: a partial is merged into its word (R202, R208). -/
def execEstMergeApply (id lane : Nat) (s : State) : Out := .next (s.estApply id lane (· == .estMerge))

/-- EST_GEN_APPLY: the next word of a lane's run is aged (R203, R208). -/
def execEstGenApply (id lane : Nat) (s : State) : Out := .next (s.estApply id lane (· == .estGen))

/-- ESTDROP_ACK: a discard's acknowledgement returns and is counted (R201). -/
def execEstdropAck (t : TKey) (s : State) : Out :=
  .next (s.modThread t (fun th =>
    if th.drops = 0 then th
    else { th with
      drops := th.drops - 1
      ctl := { th.ctl with estdrop := if th.ctl.estdrop = -1 then -1 else th.ctl.estdrop + 1 } }))

/-! ## Watches (R211 to R215) -/

/-- The fields of a descriptor lie inside R211. -/
def watchOk (b : List Byte) : Bool :=
  let f := fieldAt b
  let tse := wordAt b 12
  f 0 8 % 1024 == 0 && f 8 4 % 64 == 0 && decide (64 ≤ f 8 4 ∧ f 8 4 ≤ 1048576) &&
    !notFinite32 tse && !isZero32 tse && !below0 tse && decide (f 16 4 ≤ 65535) &&
    decide (10 ≤ f 24 4 ∧ f 24 4 ≤ 1000000) && f 28 4 == 0 && f 32 8 % 8 == 0 && f 40 24 == 0

/-- The lowest handle in no use: R212 does not say which free handle a watch gets (log entry 121). -/
def State.freeWatch (s : State) : Option Nat := (List.range 256).find? (fun h => !s.watches.any (fun w => w.handle == h))

/-- EWATCH, with its descriptor read (R212). -/
def State.startWatch (s : State) (d : Reg) (b : List Byte) : State :=
  let t := s.thr
  let node := s.imageNode t.kern (fieldAt b 20 4)
  match s.freeWatch with
  | none => s.flyScalars 0 d [0x80000001]
  | some h =>
    if !(watchOk b && s.allNormal t.env.ptroot (fieldAt b 32 8) (fieldAt b 8 4 / 512 + 1)) then s.flyScalars 0 d [0x80000002]
    else if ((s.node? t.env.rcb node).map (fun q => q.recBytes == 16)).getD false then
      let w : Watch :=
        { handle := h, env := t.env, base := fieldAt b 0 8, count := fieldAt b 8 4, tse := wordAt b 12, tn := wordAt b 16
          node := node, outmap := fieldAt b 32 8, period := fieldAt b 24 4, started := s.time, sweep := 0
          tile := 0, running := false, raised := 0, skipped := false }
      ({ s with watches := s.watches ++ [w] } : State).flyScalars 0 d [BitVec.ofNat 32 h]
    else s.flyScalars 0 d [0x80000003]

/-- EWATCH: start a watch (R212). Its descriptor is read as an SLDQ reads, from a page of any type (log entry 121). -/
def execEwatch (d a : Reg) (p : BitVec 5) (s : State) : Out :=
  match s.readBlock (s.eaS p a).toNat 64 64 noExtra with
  | .stop s => .next s
  | .bytes s _ b => .next (s.startWatch d b)

/-- EUNW: end a watch of the issuing region (R215). -/
def execEunw (d a : Reg) (s : State) : Out :=
  let x := s.rdS a
  match s.watches.find? (fun w => w.handle == x.toNat && w.env.rcb == s.thr.env.rcb) with
  | some w =>
    let n := min w.raised 0x7FFFFFFE + (if w.skipped then 2 ^ 31 else 0)
    .next (({ s with watches := s.watches.filter (fun v => v.handle != w.handle) } : State).flyScalars 0 d
      [BitVec.ofNat 32 n])
  | none => .next (s.flyScalars 0 d [0xFFFFFFFF])

/-- The words of a tile, if each can be read as ELD would (R213). -/
def State.tileWords (s : State) (e : Env) (va : Nat) : Option (List EstWord) :=
  (List.range 64).mapM (fun i =>
    match s.pageAt e.ptroot (va + 16 * i) with
    | some p => if p.type = .est ∧ !s.poisoned p.pa 16 then some (EstWord.ofBytes (s.homeRead p.pa 16)) else none
    | none => none)

/-- The greater of two values by key32; negative infinity is the least. -/
def keyMax (a b : Word) : Word := if (key32 a).toNat < (key32 b).toNat then b else a

/-- One tile of a sweep (R213, R214): the watch afterwards is the last part. -/
def State.sweepTile (s : State) (w : Watch) : State × Watch :=
  match s.tileWords w.env (w.base + 1024 * w.tile), s.recordPage w.env (w.outmap + w.tile / 8) 1 with
  | some es, some pa =>
    let worst := (es.map EstWord.se).foldl keyMax 0xFF800000
    let least := (es.map EstWord.n).foldl min 65535
    let bit : Byte := (1 : Byte) <<< (w.tile % 8)
    let old := cellRead s.mem pa
    if (decide ((key32 w.tse).toNat < (key32 worst).toNat) || decide (least < w.tn.toNat)) && old &&& bit == 0 then
      match s.appendRecord w.env.rcb w.node
          (bytesOfWords [BitVec.ofNat 32 w.tile, worst, BitVec.ofNat 32 least, BitVec.ofNat 32 w.handle]) false with
      | some s => (s.engineWrite pa [old ||| bit], { w with raised := w.raised + 1 })
      | none => (s, w)
    else (s, w)
  | _, _ => (s, { w with skipped := true })

/-- The watch after its tile: the next tile, or the end of its sweep. -/
def Watch.advance (w : Watch) : Watch :=
  if w.tile + 1 < w.count / 64 then { w with tile := w.tile + 1 }
  else { w with tile := 0, sweep := w.sweep + 1, running := false }

/-- WATCH_SWEEP: a sweep whose time has come visits its next tile (R213). -/
def execWatchSweep (handle : Nat) (s : State) : Out :=
  match s.watches.find? (fun w => w.handle == handle) with
  | none => .next s
  | some w =>
    if w.running ∨ w.started + 1000 * w.period * (w.sweep + 1) ≤ s.time then
      let (s, w) := s.sweepTile { w with running := true }
      .next { s with watches := s.watches.map (fun v => if v.handle = handle then w.advance else v) }
    else .next s

end Sys2Proof.Machine
end

