-- ==== Sys2Proof/Machine/Scalar.lean ====
section
/-! DEFINITION. Scalar arithmetic: SALU, SADDI, SANDI, SORI (R57 to R59). -/

namespace Sys2Proof.Machine

/-- The word of a truth value. -/
def boolWord (b : Bool) : Word := if b then 1 else 0

/-- A shift left; 0 for an amount of 32 or more. -/
def shlW (a b : Word) : Word := if 32 ≤ b.toNat then 0 else a <<< b.toNat
/-- A logical shift right; 0 for an amount of 32 or more. -/
def shrW (a b : Word) : Word := if 32 ≤ b.toNat then 0 else a >>> b.toNat
/-- An arithmetic shift right; all copies of bit 31 for an amount of 32 or more. -/
def sraW (a b : Word) : Word := if 32 ≤ b.toNat then a.sshiftRight 31 else a.sshiftRight b.toNat
/-- The high half of the signed 64-bit product. -/
def mulhW (a b : Word) : Word := BitVec.ofInt 32 (a.toInt * b.toInt / 2 ^ 32)
/-- Signed minimum. -/
def sminW (a b : Word) : Word := if a.toInt ≤ b.toInt then a else b
/-- Signed maximum. -/
def smaxW (a b : Word) : Word := if a.toInt ≤ b.toInt then b else a
/-- Signed quotient truncated toward zero, with the cases of R58. -/
def sdivW (a b : Word) : Word := if b = 0 then 0xFFFFFFFF else BitVec.ofInt 32 (Int.tdiv a.toInt b.toInt)
/-- Unsigned quotient, with the cases of R58. -/
def udivW (a b : Word) : Word := if b = 0 then 0xFFFFFFFF else BitVec.ofNat 32 (a.toNat / b.toNat)
/-- Signed remainder with the sign of the dividend, with the cases of R58. -/
def sremW (a b : Word) : Word := if b = 0 then a else BitVec.ofInt 32 (Int.tmod a.toInt b.toInt)
/-- Leading zero bits; 32 for zero. -/
def clzW (a : Word) : Word := if a = 0 then 32 else BitVec.ofNat 32 (31 - Nat.log2 a.toNat)
/-- One bits. -/
def popW (a : Word) : Word := BitVec.ofNat 32 ((List.range 32).countP (fun i => a.getLsbD i))

/-- A binary SALU word: sD := f(sA, sB), with the last-read mark on sA (R57, R81). -/
def salu2 (f : Word → Word → Word) (d a b : Reg) (l : Bool) (s : State) : State :=
  (s.wrS d (f (s.rdS a) (s.rdS b))).releaseS l a d

/-- A unary SALU word (R57, R81). -/
def salu1 (f : Word → Word) (d a : Reg) (l : Bool) (s : State) : State := (s.wrS d (f (s.rdS a))).releaseS l a d

/-- SADD: sD := (sA + sB) mod 2^32 (R57). -/
def execSadd (d a b : Reg) (l : Bool) (s : State) : Out := .next (salu2 (· + ·) d a b l s)

/-- SSUB: sD := (sA − sB) mod 2^32 (R57). -/
def execSsub (d a b : Reg) (l : Bool) (s : State) : Out := .next (salu2 (· - ·) d a b l s)

/-- SMUL: sD := low 32 bits of sA × sB (R57). -/
def execSmul (d a b : Reg) (l : Bool) (s : State) : Out := .next (salu2 (· * ·) d a b l s)

/-- SMULH: sD := high 32 bits of the signed product (R57). -/
def execSmulh (d a b : Reg) (l : Bool) (s : State) : Out := .next (salu2 mulhW d a b l s)

/-- SDIV: signed quotient (R58). -/
def execSdiv (d a b : Reg) (l : Bool) (s : State) : Out := .next (salu2 sdivW d a b l s)

/-- SDIVU: unsigned quotient (R58). -/
def execSdivu (d a b : Reg) (l : Bool) (s : State) : Out := .next (salu2 udivW d a b l s)

/-- SREM: signed remainder (R58). -/
def execSrem (d a b : Reg) (l : Bool) (s : State) : Out := .next (salu2 sremW d a b l s)

/-- SAND: sD := sA and sB (R57). -/
def execSand (d a b : Reg) (l : Bool) (s : State) : Out := .next (salu2 (· &&& ·) d a b l s)

/-- SOR: sD := sA or sB (R57). -/
def execSor (d a b : Reg) (l : Bool) (s : State) : Out := .next (salu2 (· ||| ·) d a b l s)

/-- SXOR: sD := sA xor sB (R57). -/
def execSxor (d a b : Reg) (l : Bool) (s : State) : Out := .next (salu2 (· ^^^ ·) d a b l s)

/-- SSHL: shift left by sB (R57). -/
def execSshl (d a b : Reg) (l : Bool) (s : State) : Out := .next (salu2 shlW d a b l s)

/-- SSHR: logical shift right by sB (R57). -/
def execSshr (d a b : Reg) (l : Bool) (s : State) : Out := .next (salu2 shrW d a b l s)

/-- SSRA: arithmetic shift right by sB (R57). -/
def execSsra (d a b : Reg) (l : Bool) (s : State) : Out := .next (salu2 sraW d a b l s)

/-- SMIN: signed minimum (R57). -/
def execSmin (d a b : Reg) (l : Bool) (s : State) : Out := .next (salu2 sminW d a b l s)

/-- SMAX: signed maximum (R57). -/
def execSmax (d a b : Reg) (l : Bool) (s : State) : Out := .next (salu2 smaxW d a b l s)

/-- SCEQ: 1 if sA = sB, else 0 (R57). -/
def execSceq (d a b : Reg) (l : Bool) (s : State) : Out := .next (salu2 (fun x y => boolWord (x == y)) d a b l s)

/-- SCLT: 1 if sA < sB signed, else 0 (R57). -/
def execSclt (d a b : Reg) (l : Bool) (s : State) : Out := .next (salu2 (fun x y => boolWord (decide (x.toInt < y.toInt))) d a b l s)

/-- SCLTU: 1 if sA < sB unsigned, else 0 (R57). -/
def execScltu (d a b : Reg) (l : Bool) (s : State) : Out := .next (salu2 (fun x y => boolWord (decide (x.toNat < y.toNat))) d a b l s)

/-- SSEL: sD := sA if the old sD is non-zero, else sB (R57). -/
def execSsel (d a b : Reg) (l : Bool) (s : State) : Out :=
  .next (salu2 (fun x y => if s.rdS d ≠ 0 then x else y) d a b l s)

/-- SSHLI: shift left by n (R57). -/
def execSshli (d a n : Reg) (l : Bool) (s : State) : Out := .next (salu1 (fun x => x <<< n.toNat) d a l s)

/-- SSHRI: logical shift right by n (R57). -/
def execSshri (d a n : Reg) (l : Bool) (s : State) : Out := .next (salu1 (fun x => x >>> n.toNat) d a l s)

/-- SSRAI: arithmetic shift right by n (R57). -/
def execSsrai (d a n : Reg) (l : Bool) (s : State) : Out := .next (salu1 (fun x => x.sshiftRight n.toNat) d a l s)

/-- SCLZ: leading zero bits (R57). -/
def execSclz (d a : Reg) (l : Bool) (s : State) : Out := .next (salu1 clzW d a l s)

/-- SPOP: one bits (R57). -/
def execSpop (d a : Reg) (l : Bool) (s : State) : Out := .next (salu1 popW d a l s)

/-- SMOV: sD := sA (R57). -/
def execSmov (d a : Reg) (l : Bool) (s : State) : Out := .next (salu1 id d a l s)

/-- SADDI: sD := (sA + imm) mod 2^32 (R59). -/
def execSaddi (d a : Reg) (i : BitVec 12) (s : State) : Out := .next (s.wrS d (s.rdS a + s.immS i))

/-- SANDI: sD := sA and imm (R59). -/
def execSandi (d a : Reg) (i : BitVec 12) (s : State) : Out := .next (s.wrS d (s.rdS a &&& s.immS i))

/-- SORI: sD := sA or imm (R59). -/
def execSori (d a : Reg) (i : BitVec 12) (s : State) : Out := .next (s.wrS d (s.rdS a ||| s.immU i))

end Sys2Proof.Machine
end

