-- ==== Sys2Proof/Machine/Xfun.lean ====
section
/-! DEFINITION. The arithmetic of the X pipe (R109 to R118): conversion, quantisation, special functions and the
keyed block function, on single lanes. -/

namespace Sys2Proof.Machine

/-! ## XCVT (R109) -/

/-- A NaN converted to format `f`: canon, or +0 with NV for a finite-only format. -/
def cvtNan (f : FFmt) : FRes := if f.finiteOnly then ⟨0, flNV, false⟩ else .exact f.canon

/-- A floating value converted to a floating format (R109). -/
def cvtFF (x : Val) (df : FFmt) (mode : RMode) (sat : Bool) (r : BitVec 16) : FRes :=
  match x with
  | .nan => cvtNan df
  | .inf n =>
    if df.hasInf then .exact (df.inf n)
    else if df.finiteOnly then ⟨df.max n, flWhen (!sat) flNV, false⟩
    else if sat then .exact (df.max n) else .invalid df
  | .zero n => .exact (df.zero n)
  | .fin q => roundTo q df mode sat r

/-- A floating value converted to an integer format (R109). -/
def cvtFI (x : Val) (df : IFmt) (mode : RMode) (sat : Bool) (r : BitVec 16) : FRes :=
  match x with
  | .nan => ⟨0, flNV, false⟩
  | .zero _ => .exact 0
  | .inf n => ⟨wordOfInt (if n then df.range.1 else df.range.2), flWhen (!sat) flNV, false⟩
  | .fin q =>
    let (n, integral) := roundInt q mode r
    let inRange := decide (df.range.1 ≤ n ∧ n ≤ df.range.2)
    ⟨wordOfInt (satInt n df), flWhen (!inRange && !sat) flNV ||| flWhen (!integral && inRange) flNX,
      !integral && decide (mode = .rs)⟩

/-- An integer converted to a floating format (R109). -/
def cvtIF (x : Int) (df : FFmt) (mode : RMode) (sat : Bool) (r : BitVec 16) : FRes :=
  if x = 0 then .exact 0 else roundTo x df mode sat r

/-- An integer converted to an integer format (R109): clamped, or its low bits read as the format. -/
def cvtII (x : Int) (df : IFmt) (sat : Bool) : FRes :=
  .exact (wordOfInt (if sat then satInt x df else df.read (wordOfInt x)))

/-- XCVT of one element from format code `s` to format code `t` (R30, R109). -/
def convert (s t : Nat) (mode : RMode) (sat : Bool) (r : BitVec 16) (w : Word) : FRes :=
  if s < 8 then
    let x := (FFmt.ofCode s).read w
    if t < 8 then cvtFF x (.ofCode t) mode sat r else cvtFI x (.ofCode t) mode sat r
  else
    let x := (IFmt.ofCode s).read w
    if t < 8 then cvtIF x (.ofCode t) mode sat r else cvtII x (.ofCode t) sat

/-! ## Packing (R110) -/

/-- Bits [hi:lo] of a word as a number. -/
def bitsOf (w : Word) (lo n : Nat) : Nat := w.toNat / 2 ^ lo % 2 ^ n

/-- XPACK6: four 6-bit elements into 24 bits. -/
def pack6 (a : Word) : Word :=
  BitVec.ofNat 32 (bitsOf a 0 6 + bitsOf a 8 6 * 2 ^ 6 + bitsOf a 16 6 * 2 ^ 12 + bitsOf a 24 6 * 2 ^ 18)

/-- XUNPK6. -/
def unpack6 (a : Word) : Word :=
  BitVec.ofNat 32 (bitsOf a 0 6 + bitsOf a 6 6 * 2 ^ 8 + bitsOf a 12 6 * 2 ^ 16 + bitsOf a 18 6 * 2 ^ 24)

/-- The four nibbles at the foot of four bytes, packed into 16 bits. -/
def nibbles (a : Word) : Nat := bitsOf a 0 4 + bitsOf a 8 4 * 16 + bitsOf a 16 4 * 256 + bitsOf a 24 4 * 4096

/-- XPACK4. -/
def pack4 (a b : Word) : Word := BitVec.ofNat 32 (nibbles a + nibbles b * 65536)

/-- XUNPK4: the four nibbles from bit `lo` of vA, each in a byte. -/
def unpack4 (a : Word) (lo : Nat) : Word :=
  BitVec.ofNat 32 (bitsOf a lo 4 + bitsOf a (lo + 4) 4 * 2 ^ 8 + bitsOf a (lo + 8) 4 * 2 ^ 16
    + bitsOf a (lo + 12) 4 * 2 ^ 24)

/-! ## Quantisation (R111 to R114) -/

/-- XQNT4 and XQNT8 (R112). -/
def quantGroup (qmax : Int) (mode : RMode) (r : BitVec 16) (x b : Word) : FRes :=
  let s := FFmt.fp16.read b
  let z := sext (bitsOf b 16 8) 8
  let bad : FRes := ⟨wordOfInt (clampInt z 0 qmax), flNV, false⟩
  match s with
  | .nan => bad
  | .zero _ => bad
  | .inf _ => bad
  | .fin sv =>
    match FFmt.fp32.read x with
    | .nan => bad
    | .inf n => .exact (wordOfInt (if n = s.neg then qmax else 0))
    | .zero _ => .exact (wordOfInt (clampInt z 0 qmax))
    | .fin xv =>
      let (n, integral) := roundInt (xv / sv) mode r
      ⟨wordOfInt (clampInt (n + z) 0 qmax), flWhen (!integral) flNX, !integral && decide (mode = .rs)⟩

/-- XDQNT4 and XDQNT8 (R89, R112). -/
def dequantGroup (bits : Nat) (a b : Word) : Word :=
  valTo32 (groupVal (FFmt.fp16.read b) (zext a.toNat bits) (sext (bitsOf b 16 8) 8))

/-- The smallest E8M0+2 value at or above t > 0, or 0x3FB with OF above the largest (R113). -/
def scaleAtLeast (t : Rat) : FRes :=
  if t > pow2 127 * (7 / 4) then ⟨0x3FB, flOF, false⟩
  else
    let e := max (log2Floor t) (-127)
    let k := ((t / pow2 e - 1) * 4).ceil.toNat
    .exact (BitVec.ofNat 32 ((e + 127).toNat * 4 + k))

/-- The smallest positive FP16 value at or above t > 0, or the largest with OF (R113). -/
def halfAtLeast (t : Rat) : FRes :=
  if t > 65504 then ⟨0x7BFF, flOF, false⟩ else .exact (roundTo t .fp16 .ru false 0).v

/-- XAMAX (R113). -/
def amaxScale (a b : Word) : FRes :=
  let c := bitsOf b 0 4
  let x := FFmt.fp32.read a
  if 3 ≤ c ∧ c ≤ 7 then
    match x with
    | .nan => .exact 0x3FC
    | .zero _ => .exact 0
    | .inf _ => ⟨0x3FB, flOF, false⟩
    | .fin q => scaleAtLeast ((if q < 0 then -q else q) / ((FFmt.ofCode c).read ((FFmt.ofCode c).max false)).toRat)
  else if c = 11 ∨ c = 13 then
    match x with
    | .nan => .exact 0x7E00
    | .zero _ => .exact 1
    | .inf _ => ⟨0x7BFF, flOF, false⟩
    | .fin q => halfAtLeast ((if q < 0 then -q else q) / (if c = 11 then 127 else 7))
  else ⟨0, flNV, false⟩

/-- XQMX (R114). -/
def quantBlock (mode : RMode) (r : BitVec 16) (a b : Word) : FRes :=
  let c := bitsOf b 12 4
  if c < 3 ∨ 7 < c then ⟨0, flNV, false⟩
  else
    let f := FFmt.ofCode c
    match blockScale b with
    | none => ⟨f.canon, flNV, false⟩
    | some s =>
      match FFmt.fp32.read a with
      | .nan => cvtNan f
      | .inf n => .exact (f.max n)
      | .zero n => .exact (f.zero n)
      | .fin x => roundTo (x / s) f mode true r

/-- XDQMX for an element of format `f` under the scale in bits [9:0] of `b` (R114). -/
def dequantBlockAs (f : FFmt) (mode : RMode) (r : BitVec 16) (a b : Word) : FRes :=
  match blockScale b with
  | none => .exact FFmt.fp32.canon
  | some s =>
    match f.read a with
    | .nan => .exact FFmt.fp32.canon
    | .inf n => .exact (FFmt.fp32.inf n)
    | .zero n => .exact (FFmt.fp32.zero n)
    | .fin x => roundTo (x * s) .fp32 mode false r

/-- XDQMX (R114). -/
def dequantBlock (mode : RMode) (r : BitVec 16) (a b : Word) : FRes :=
  let c := bitsOf b 12 4
  if c < 3 ∨ 7 < c then ⟨0, flNV, false⟩ else dequantBlockAs (.ofCode c) mode r a b

/-! ## Special functions (R116) -/

/-- The FP32 value nearest the decimal n / 10^k. -/
def coef (n : Int) (k : Nat) : Word := fp32Of (mkRat n (10 ^ k))

/-- p := fma(p, u, c) for each c in order. -/
def horner (p u : Word) : List Word → Word
  | [] => p
  | c :: cs => horner (fma32 p u c) u cs

/-- The coefficients of XEXP2 after the first. -/
def exp2Coefs : List Word :=
  [coef 15403530 11, coef 13333558 10, coef 96181291 10, coef 55504109 9, coef 24022651 8, coef 69314718 8, coef 1 0]

/-- XEXP2 (R116). -/
def xexp2Lane (a : Word) : FRes :=
  match FFmt.fp32.read a with
  | .nan => .exact FFmt.fp32.canon
  | .inf n => .exact (if n then 0 else FFmt.fp32.inf false)
  | .zero _ => .exact 0x3F800000
  | .fin x =>
    if x ≥ 128 then ⟨FFmt.fp32.inf false, flOF ||| flNX, false⟩
    else if x < -150 then ⟨0, flUF ||| flNX, false⟩
    else
      let n := (roundInt x .rne 0).1
      let p := horner (coef 15252734 12) (fp32Of (x - n)) exp2Coefs
      let res := roundTo (rat32 p * pow2 n) .fp32 .rne false 0
      if x = n ∧ -149 ≤ n ∧ n ≤ 127 then .exact res.v else { res with fl := res.fl ||| flNX }

/-- The coefficients of XLOG2 after the first. -/
def log2Coefs : List Word :=
  [coef 32059889 8, coef 41219858 8, coef 57707801 8, coef 96179669 8, coef 28853901 7]

/-- XLOG2 (R116). -/
def xlog2Lane (a : Word) : FRes :=
  match FFmt.fp32.read a with
  | .nan => .exact FFmt.fp32.canon
  | .zero _ => ⟨FFmt.fp32.inf true, flDZ, false⟩
  | .inf false => .exact (FFmt.fp32.inf false)
  | .inf true => .invalid .fp32
  | .fin x =>
    if x < 0 then .invalid .fp32
    else
      let e0 := log2Floor x
      let m0 := x / pow2 e0
      let halve := decide (m0 > rat32 0x3FB504F3)
      let m := if halve then m0 / 2 else m0
      let e := if halve then e0 + 1 else e0
      let mw := fp32Of m
      let t := div32 (sub32 mw 0x3F800000) (add32 mw 0x3F800000)
      let u := mul32 t t
      let q := horner (coef 26230822 8) u log2Coefs
      let v := fma32 t q (fp32Of e)
      if m0 = 1 then .exact v else ⟨v, flNX, false⟩

/-- A rational within 2^−640 of π / 2. For every FP32 x other than zero, the nearest integer to 2x / π and the FP32
rounding of x − k × π / 2 are those of the exact reals. -/
def halfPi : Rat := mkRat 0x1921fb54442d18469898cc51701b839a252049c1114cf98e804177d4c76273644a29410f31c6809bbdf2a33679a748636605614dbe4be286e9fc26adadaa3848bc90b6aecc4bcfd8de89885d34c6fdad6 (2 ^ 640)

/-- S(r) of R116. -/
def sinPoly (r u : Word) : Word :=
  let p := horner (coef 27557319 13) u [coef (-19841270) 11, coef 83333333 10, coef (-16666667) 8]
  fma32 (mul32 r u) p r

/-- C(r) of R116. -/
def cosPoly (u : Word) : Word :=
  let p := horner (coef (-27557319) 14) u [coef 24801587 12, coef (-13888889) 10, coef 41666667 9, coef (-5) 1]
  fma32 p u 0x3F800000

/-- XSIN for `phase` 0 and XCOS for `phase` 1 on a finite non-zero argument: the row of R116's table is k mod 4, and
XCOS of row k is XSIN of row k + 1. -/
def sinCos (x : Rat) (phase : Int) : Word :=
  let k := (roundInt (x / halfPi) .rne 0).1
  let r := fp32Of (x - (k : Rat) * halfPi)
  let u := mul32 r r
  match ((k + phase) % 4).toNat with
  | 0 => sinPoly r u
  | 1 => cosPoly u
  | 2 => sinPoly r u ^^^ 0x80000000
  | _ => cosPoly u ^^^ 0x80000000

/-- XSIN (R116). -/
def xsinLane (a : Word) : FRes :=
  match FFmt.fp32.read a with
  | .nan => .exact FFmt.fp32.canon
  | .inf _ => .invalid .fp32
  | .zero _ => .exact a
  | .fin x => ⟨sinCos x 0, flNX, false⟩

/-- XCOS (R116). -/
def xcosLane (a : Word) : FRes :=
  match FFmt.fp32.read a with
  | .nan => .exact FFmt.fp32.canon
  | .inf _ => .invalid .fp32
  | .zero _ => .exact 0x3F800000
  | .fin x => ⟨sinCos x 1, flNX, false⟩

/-- XTANH (R116). -/
def xtanhLane (a : Word) : FRes :=
  match FFmt.fp32.read a with
  | .nan => .exact FFmt.fp32.canon
  | .inf n => .exact (if n then 0xBF800000 else 0x3F800000)
  | .zero _ => .exact a
  | .fin x =>
    let neg := decide (x < 0)
    let aw := a &&& 0x7FFFFFFF
    let ax := rat32 aw
    let restore (y : Word) : Word := if neg then y ||| 0x80000000 else y
    if ax ≥ 19 / 2 then ⟨restore 0x3F800000, flNX, false⟩
    else if ax < 1 / 2 then
      let u := mul32 aw aw
      let p := horner (coef (-14558344) 10) u
        [coef 35921280 10, coef (-88632355) 10, coef 21869488 9, coef (-53968254) 9, coef 13333333 8,
          coef (-33333333) 8]
      ⟨restore (fma32 (mul32 aw u) p aw), flNX, false⟩
    else
      let z := fp32Of (2 * ax * rat32 (coef 14426950 7))
      let e := (xexp2Lane z).v
      let y := sub32 0x3F800000 (div32 0x40000000 (add32 e 0x3F800000))
      ⟨restore y, flNX, false⟩

/-! ## Random streams (R117, R118) -/

/-- rotl32(x, n) (R94). -/
def rotl32 (x : Word) (n : Nat) : Word := x.rotateLeft n

/-- Four words, word 0 the lowest. -/
structure Quad where
  x0 : Word
  x1 : Word
  x2 : Word
  x3 : Word
  deriving DecidableEq, Repr

/-- Word i mod 4. -/
def Quad.get (q : Quad) (i : Nat) : Word :=
  match i % 4 with
  | 0 => q.x0
  | 1 => q.x1
  | 2 => q.x2
  | _ => q.x3

/-- The words of a 128-bit value. -/
def Quad.ofNat (n : Nat) : Quad :=
  ⟨BitVec.ofNat 32 n, BitVec.ofNat 32 (n / 2 ^ 32), BitVec.ofNat 32 (n / 2 ^ 64), BitVec.ofNat 32 (n / 2 ^ 96)⟩

/-- One round of the block function (R117). -/
def blockRound (k : Quad) (r : Nat) (x : Quad) : Quad :=
  let x0 := x.x0 + x.x1
  let x3 := rotl32 (x.x3 ^^^ x0) 16
  let x2 := x.x2 + x3
  let x1 := rotl32 (x.x1 ^^^ x2) 12
  let x0 := x0 + x1
  let x3 := rotl32 (x3 ^^^ x0) 8
  let x2 := x2 + x3
  let x1 := rotl32 (x1 ^^^ x2) 7
  ⟨x0 + k.get (r + 1) + BitVec.ofNat 32 (r + 1), x1 + k.get (r + 2), x2 + k.get (r + 3), x3 + k.get (r + 4)⟩

/-- block(ctr, key) (R117). -/
def block (ctr key : Quad) : Quad :=
  let x : Quad := ⟨ctr.x0 + key.x0, ctr.x1 + key.x1, ctr.x2 + key.x2, ctr.x3 + key.x3⟩
  blockRound key 7 (blockRound key 6 (blockRound key 5 (blockRound key 4 (blockRound key 3 (blockRound key 2
    (blockRound key 1 (blockRound key 0 x)))))))

/-- Draw j of the stream of global lane g under key K (R117). -/
def streamDraw (g : Nat) (key : Quad) (j : BitVec 64) : Word :=
  (block (Quad.ofNat (g * 2 ^ 64 + j.toNat / 4)) key).get j.toNat

/-- XRNGU's value of a draw (R118). -/
def unitDraw (w : Word) : Word := fp32Of (((w >>> 8).toNat : Rat) * pow2 (-24))

/-- XRNGK (R118). -/
def hashDraw (key : Quad) (a b : Word) : Word := (block ⟨a, b, 0, 0xFFFFFFFF⟩ key).x0

end Sys2Proof.Machine
end

