-- ==== Sys2Proof/Machine/Vector.lean ====
section
/-! DEFINITION. Vector arithmetic: VINT, VADDI, VANDI, VLI, VCMP, VDOT, VF32, VF16 (R97 to R106). -/

namespace Sys2Proof.Machine

/-! ## Shapes of vector words -/

/-- A binary integer word with the tag given: vD := f(vA, vB) in each active lane (R97, R99). -/
def vint2t (f : Word → Word → Word) (tag : Tag) (d a b : Reg) (l : Bool) (s : State) : State :=
  let x := s.rdV a
  let y := s.rdV b
  (s.wrV d (fun i => f (laneOf x i) (laneOf y i)) tag).releaseV l a d

/-- A binary integer word: U when both sources are U, else G (R25). -/
def vint2 (f : Word → Word → Word) (d a b : Reg) (l : Bool) (s : State) : State := vint2t f (s.tagU [a, b]) d a b l s

/-- A binary word that also reads the old vD. -/
def vint3 (f : Word → Word → Word → Word) (d a b : Reg) (l : Bool) (s : State) : State :=
  let x := s.rdV a
  let y := s.rdV b
  let z := s.rdV d
  (s.wrV d (fun i => f (laneOf x i) (laneOf y i) (laneOf z i)) (s.tagU [a, b, d])).releaseV l a d

/-- A unary integer word with the tag given. -/
def vint1t (f : Word → Word) (tag : Tag) (d a : Reg) (l : Bool) (s : State) : State :=
  let x := s.rdV a
  (s.wrV d (fun i => f (laneOf x i)) tag).releaseV l a d

/-- A unary integer word. -/
def vint1 (f : Word → Word) (d a : Reg) (l : Bool) (s : State) : State := vint1t f (s.tagU [a]) d a l s

/-- The tag of VADD and VSUB (R25, R101): A for one A source and one U source. -/
def tagAffine2 (x y : Tag) : Tag :=
  match x, y with
  | .u, .u => .u
  | .a, .u => .a
  | .u, .a => .a
  | .a, .a => .g
  | .g, _ => .g
  | _, .g => .g

/-- The tag of VADDI and VSHLI (R25, R101): that of the source. -/
def tagAffine1 (x : Tag) : Tag := x

/-- What one lane of a floating word gives: its result, its flags, and how many draws it took. -/
structure LaneRes where
  v     : Word
  fl    : Fl
  draws : Nat
  deriving DecidableEq, Repr

/-- A lane's result from one rounding. -/
def FRes.lane (r : FRes) : LaneRes := ⟨r.v, r.fl, if r.drew then 1 else 0⟩

/-- Bits [15:0] of draw `n` counted from the lane's next (R93). -/
def State.draw16 (s : State) (l n : Nat) : BitVec 16 :=
  let t := s.thr
  (streamDraw (t.lane l) (Quad.ofNat t.keyNat) ((t.draw[l]?.getD 0) + BitVec.ofNat 64 n)).extractLsb' 0 16

/-- Advance the random streams of the active lanes (R93, R117). -/
def State.advance (s : State) (n : Nat → Nat) : State :=
  let m := s.active
  { s with thr := { s.thr with draw := tableOf (fun l =>
      let j := s.thr.draw[l]?.getD 0
      if m.getLsbD l then j + BitVec.ofNat 64 (n l) else j) } }

/-- Write the results of a floating word: vD, the flags and the streams of the active lanes, each lane on its own. -/
def fword (f : Nat → LaneRes) (tag : Tag) (d : Reg) (s : State) : State :=
  let r : Vector LaneRes 96 := tableOf f
  let at_ (l : Nat) : LaneRes := r[l]?.getD ⟨0, 0, 0⟩
  ((s.wrV d (fun l => (at_ l).v) tag).raise (fun l => (at_ l).fl)).advance (fun l => (at_ l).draws)

/-- A floating word of two register operands, with the lane's first draw. -/
def fop2 (f : BitVec 16 → Word → Word → FRes) (d a b : Reg) (l : Bool) (s : State) : State :=
  let x := s.rdV a
  let y := s.rdV b
  (fword (fun i => (f (s.draw16 i 0) (laneOf x i) (laneOf y i)).lane) (s.tagU [a, b]) d s).releaseV l a d

/-- A floating word that also reads the old vD. -/
def fop3 (f : BitVec 16 → Word → Word → Word → FRes) (d a b : Reg) (l : Bool) (s : State) : State :=
  let x := s.rdV a
  let y := s.rdV b
  let z := s.rdV d
  (fword (fun i => (f (s.draw16 i 0) (laneOf x i) (laneOf y i) (laneOf z i)).lane) (s.tagU [a, b, d]) d s).releaseV l a d

/-- A floating word of one register operand. -/
def fop1 (f : BitVec 16 → Word → FRes) (d a : Reg) (l : Bool) (s : State) : State :=
  let x := s.rdV a
  (fword (fun i => (f (s.draw16 i 0) (laneOf x i)).lane) (s.tagU [a]) d s).releaseV l a d

/-! ## VINT (R99) -/

/-- VADD: (vA + vB) mod 2^32 (R99, R101). -/
def execVadd (d a b : Reg) (l : Bool) (s : State) : Out :=
  .next (vint2t (· + ·) (tagAffine2 (s.tagOf a) (s.tagOf b)) d a b l s)

/-- VSUB: (vA − vB) mod 2^32 (R99, R101). -/
def execVsub (d a b : Reg) (l : Bool) (s : State) : Out :=
  .next (vint2t (· - ·) (tagAffine2 (s.tagOf a) (s.tagOf b)) d a b l s)

/-- VMUL: low 32 bits of vA × vB (R99). -/
def execVmul (d a b : Reg) (l : Bool) (s : State) : Out := .next (vint2 (· * ·) d a b l s)

/-- VMULH: high 32 bits of the signed product (R99). -/
def execVmulh (d a b : Reg) (l : Bool) (s : State) : Out := .next (vint2 mulhW d a b l s)

/-- VAND: vA and vB (R99). -/
def execVand (d a b : Reg) (l : Bool) (s : State) : Out := .next (vint2 (· &&& ·) d a b l s)

/-- VOR: vA or vB (R99). -/
def execVor (d a b : Reg) (l : Bool) (s : State) : Out := .next (vint2 (· ||| ·) d a b l s)

/-- VXOR: vA xor vB (R99). -/
def execVxor (d a b : Reg) (l : Bool) (s : State) : Out := .next (vint2 (· ^^^ ·) d a b l s)

/-- VSHL: shift left by vB (R99). -/
def execVshl (d a b : Reg) (l : Bool) (s : State) : Out := .next (vint2 shlW d a b l s)

/-- VSHR: logical shift right by vB (R99). -/
def execVshr (d a b : Reg) (l : Bool) (s : State) : Out := .next (vint2 shrW d a b l s)

/-- VSRA: arithmetic shift right by vB (R99). -/
def execVsra (d a b : Reg) (l : Bool) (s : State) : Out := .next (vint2 sraW d a b l s)

/-- VMIN: signed minimum (R99). -/
def execVmin (d a b : Reg) (l : Bool) (s : State) : Out := .next (vint2 sminW d a b l s)

/-- VMAX: signed maximum (R99). -/
def execVmax (d a b : Reg) (l : Bool) (s : State) : Out := .next (vint2 smaxW d a b l s)

/-- VMAD: (vA × vB + vD) mod 2^32, vD read before the write (R99). -/
def execVmad (d a b : Reg) (l : Bool) (s : State) : Out := .next (vint3 (fun x y z => x * y + z) d a b l s)

/-- VSELZ: vA if the old vD is non-zero, else vB (R99). -/
def execVselz (d a b : Reg) (l : Bool) (s : State) : Out :=
  .next (vint3 (fun x y z => if z ≠ 0 then x else y) d a b l s)

/-- VSHLI: vA << n (R99, R101). -/
def execVshli (d a n : Reg) (l : Bool) (s : State) : Out :=
  .next (vint1t (fun x => x <<< n.toNat) (tagAffine1 (s.tagOf a)) d a l s)

/-- VSHRI: logical shift right by n (R99). -/
def execVshri (d a n : Reg) (l : Bool) (s : State) : Out := .next (vint1 (fun x => x >>> n.toNat) d a l s)

/-- VSRAI: arithmetic shift right by n (R99). -/
def execVsrai (d a n : Reg) (l : Bool) (s : State) : Out := .next (vint1 (fun x => x.sshiftRight n.toNat) d a l s)

/-- VNOT: not vA (R99). -/
def execVnot (d a : Reg) (l : Bool) (s : State) : Out := .next (vint1 (fun x => ~~~x) d a l s)

/-- VABS: |vA| mod 2^32 (R99). -/
def execVabs (d a : Reg) (l : Bool) (s : State) : Out := .next (vint1 (fun x => if x.getLsbD 31 then -x else x) d a l s)

/-- VNEG: (0 − vA) mod 2^32 (R99). -/
def execVneg (d a : Reg) (l : Bool) (s : State) : Out := .next (vint1 (fun x => -x) d a l s)

/-- VCLZ: leading zero bits (R99). -/
def execVclz (d a : Reg) (l : Bool) (s : State) : Out := .next (vint1 clzW d a l s)

/-- VPOP: one bits (R99). -/
def execVpop (d a : Reg) (l : Bool) (s : State) : Out := .next (vint1 popW d a l s)

/-- VMOV: vA (R99). -/
def execVmov (d a : Reg) (l : Bool) (s : State) : Out := .next (vint1 id d a l s)

/-- VADDI: (vA + imm) mod 2^32 (R100, R101). -/
def execVaddi (d a : Reg) (i : BitVec 12) (s : State) : Out :=
  .next (vint1t (fun x => x + s.immS i) (tagAffine1 (s.tagOf a)) d a false s)

/-- VANDI: vA and imm (R100). -/
def execVandi (d a : Reg) (i : BitVec 12) (s : State) : Out := .next (vint1 (fun x => x &&& s.immS i) d a false s)

/-- VLI: (imm + l) mod 2^32 in lane l, tag A (R100, R101). -/
def execVli (d : Reg) (i : BitVec 12) (s : State) : Out :=
  .next (s.wrV d (fun l => s.immS i + BitVec.ofNat 32 l) .a)

/-! ## VCMP (R102) -/

/-- A comparison: the triple at sD, with bit l set where lane l is active and the condition holds. It is written even
when no lane is active (R102). -/
def vcmp (p : Word → Word → Bool) (d a b : Reg) (l : Bool) (s : State) : State :=
  let x := s.rdV a
  let y := s.rdV b
  let m := s.active
  (s.wrMask d (maskOf (fun i => m.getLsbD i && p (laneOf x i) (laneOf y i)))).releaseV0 l a

/-- NV in the active lanes where an operand is NaN (R102). -/
def nanRaises (a b : Reg) (s : State) : State :=
  let x := s.rdV a
  let y := s.rdV b
  s.raise (fun i => flWhen (isNan32 (laneOf x i) || isNan32 (laneOf y i)) flNV)

/-- Neither word is an FP32 NaN. -/
def ordered (x y : Word) : Bool := !isNan32 x && !isNan32 y

/-- VCEQ: vA = vB (R102). -/
def execVceq (d a b : Reg) (l : Bool) (s : State) : Out :=
  .next (vcmp (fun x y => x == y) d a b l s)

/-- VCNE: vA ≠ vB (R102). -/
def execVcne (d a b : Reg) (l : Bool) (s : State) : Out :=
  .next (vcmp (fun x y => x != y) d a b l s)

/-- VCLT: vA < vB signed (R102). -/
def execVclt (d a b : Reg) (l : Bool) (s : State) : Out :=
  .next (vcmp (fun x y => decide (x.toInt < y.toInt)) d a b l s)

/-- VCLE: vA ≤ vB signed (R102). -/
def execVcle (d a b : Reg) (l : Bool) (s : State) : Out :=
  .next (vcmp (fun x y => decide (x.toInt ≤ y.toInt)) d a b l s)

/-- VCLTU: vA < vB unsigned (R102). -/
def execVcltu (d a b : Reg) (l : Bool) (s : State) : Out :=
  .next (vcmp (fun x y => decide (x.toNat < y.toNat)) d a b l s)

/-- VCLEU: vA ≤ vB unsigned (R102). -/
def execVcleu (d a b : Reg) (l : Bool) (s : State) : Out :=
  .next (vcmp (fun x y => decide (x.toNat ≤ y.toNat)) d a b l s)

/-- VFCEQ: neither is NaN and the keys are equal (R102). -/
def execVfceq (d a b : Reg) (l : Bool) (s : State) : Out :=
  .next (vcmp (fun x y => ordered x y && key32 x == key32 y) d a b l s)

/-- VFCNE: either is NaN, or the keys differ (R102). -/
def execVfcne (d a b : Reg) (l : Bool) (s : State) : Out :=
  .next (vcmp (fun x y => !ordered x y || key32 x != key32 y) d a b l s)

/-- VFCUN: either is NaN (R102). -/
def execVfcun (d a b : Reg) (l : Bool) (s : State) : Out :=
  .next (vcmp (fun x y => !ordered x y) d a b l s)

/-- VFCLT: neither is NaN and key32(vA) < key32(vB); NV where either is NaN (R102). -/
def execVfclt (d a b : Reg) (l : Bool) (s : State) : Out :=
  .next (vcmp (fun x y => ordered x y && decide ((key32 x).toNat < (key32 y).toNat)) d a b l (nanRaises a b s))

/-- VFCLE: neither is NaN and key32(vA) ≤ key32(vB); NV where either is NaN (R102). -/
def execVfcle (d a b : Reg) (l : Bool) (s : State) : Out :=
  .next (vcmp (fun x y => ordered x y && decide ((key32 x).toNat ≤ (key32 y).toNat)) d a b l (nanRaises a b s))

/-! ## VDOT (R103) -/

/-- The exact total of an integer dot product: vD and the products of `n` elements of `w` bits. -/
def dotInt (n w : Nat) (sa : Bool) (x y z : Word) : Int :=
  (List.range n).foldl (fun acc i =>
    let ai : Int := if sa then sext (bitsOf x (w * i) w) w else zext (bitsOf x (w * i) w) w
    acc + ai * sext (bitsOf y (w * i) w) w) z.toInt

/-- An integer dot product; `sat` saturates once, at the end. -/
def vdotInt (n w : Nat) (sa sat : Bool) (d a b : Reg) (l : Bool) (s : State) : State :=
  vint3 (fun x y z =>
    let t := dotInt n w sa x y z
    wordOfInt (if sat then satInt t .int32 else t)) d a b l s

/-- The term is −0. -/
def isNegZero (v : Val) : Bool := v == .zero true

/-- a_0 × b_0 + a_1 × b_1 + c exactly (R103). -/
def dotExact (f : FFmt) (mode : RMode) (x y z : Word) : Exact :=
  let a0 := f.read x
  let a1 := f.read (x >>> 16)
  let b0 := f.read y
  let b1 := f.read (y >>> 16)
  let c := FFmt.fp32.read z
  if a0 = .nan ∨ a1 = .nan ∨ b0 = .nan ∨ b1 = .nan ∨ c = .nan then .nan
  else
    match mulVal a0 b0, mulVal a1 b1 with
    | some p0, some p1 =>
      let ts := [p0, p1, c]
      sumVals ts (ts.all isNegZero || (decide (mode = .rd) && !ts.all (fun t => t == .zero false)))
    | _, _ => .invalid

/-- A floating dot product (R103). -/
def vdotFp (f : FFmt) (d a b : Reg) (l : Bool) (s : State) : State :=
  fop3 (fun r x y z => (dotExact f s.mode x y z).round .fp32 s.mode false r) d a b l s

/-- VDOTB: 4 × int8 by int8, mod 2^32 (R103). -/
def execVdotb (d a b : Reg) (l : Bool) (s : State) : Out := .next (vdotInt 4 8 true false d a b l s)

/-- VDOTBS: 4 × int8 by int8, saturated (R103). -/
def execVdotbs (d a b : Reg) (l : Bool) (s : State) : Out := .next (vdotInt 4 8 true true d a b l s)

/-- VDOTUB: 4 × uint8 by int8, mod 2^32 (R103). -/
def execVdotub (d a b : Reg) (l : Bool) (s : State) : Out := .next (vdotInt 4 8 false false d a b l s)

/-- VDOTUBS: 4 × uint8 by int8, saturated (R103). -/
def execVdotubs (d a b : Reg) (l : Bool) (s : State) : Out := .next (vdotInt 4 8 false true d a b l s)

/-- VDOTN: 8 × int4 by int4, mod 2^32 (R103). -/
def execVdotn (d a b : Reg) (l : Bool) (s : State) : Out := .next (vdotInt 8 4 true false d a b l s)

/-- VDOTNS: 8 × int4 by int4, saturated (R103). -/
def execVdotns (d a b : Reg) (l : Bool) (s : State) : Out := .next (vdotInt 8 4 true true d a b l s)

/-- VDOTH: 2 × FP16, rounded once to FP32 (R103). -/
def execVdoth (d a b : Reg) (l : Bool) (s : State) : Out := .next (vdotFp .fp16 d a b l s)

/-- VDOTBF: 2 × BF16, rounded once to FP32 (R103). -/
def execVdotbf (d a b : Reg) (l : Bool) (s : State) : Out := .next (vdotFp .bf16 d a b l s)

/-! ## VF32 (R104, R105) -/

/-- VFADD: vA + vB, rounded once (R104). -/
def execVfadd (d a b : Reg) (l : Bool) (s : State) : Out := .next (fop2 (fadd .fp32 s.mode) d a b l s)

/-- VFSUB: vA − vB, rounded once (R104). -/
def execVfsub (d a b : Reg) (l : Bool) (s : State) : Out := .next (fop2 (fsub .fp32 s.mode) d a b l s)

/-- VFMUL: vA × vB, rounded once (R104). -/
def execVfmul (d a b : Reg) (l : Bool) (s : State) : Out := .next (fop2 (fmul .fp32 s.mode) d a b l s)

/-- VFMA: vA × vB + vD, rounded once (R104). -/
def execVfma (d a b : Reg) (l : Bool) (s : State) : Out :=
  .next (fop3 (fun r => ffma .fp32 s.mode r false false) d a b l s)

/-- VFMS: vA × vB − vD, rounded once (R104). -/
def execVfms (d a b : Reg) (l : Bool) (s : State) : Out :=
  .next (fop3 (fun r => ffma .fp32 s.mode r false true) d a b l s)

/-- VFNMA: −(vA × vB) + vD, rounded once (R104). -/
def execVfnma (d a b : Reg) (l : Bool) (s : State) : Out :=
  .next (fop3 (fun r => ffma .fp32 s.mode r true false) d a b l s)

/-- The lesser (`hi` false) or greater of two patterns of a format by their keys; `nan` gives the result for a NaN
operand (R105). -/
def minmax (key : Word → Word) (hi : Bool) (x y : Word) : Word :=
  if hi then (if (key x).toNat < (key y).toNat then y else x) else (if (key y).toNat < (key x).toNat then y else x)

/-- VFMIN and VFMAX (R105): canon(FP32) if either is NaN. -/
def minmax32 (hi : Bool) (x y : Word) : Word :=
  if ordered x y then minmax key32 hi x y else FFmt.fp32.canon

/-- VFMINN and VFMAXN (R105): the non-NaN operand if exactly one is NaN. -/
def minmaxN32 (hi : Bool) (x y : Word) : Word :=
  if ordered x y then minmax key32 hi x y
  else if !isNan32 x then x else if !isNan32 y then y else FFmt.fp32.canon

/-- VFRND and VFTRC (R105): a NaN gives canon, infinities and zeros are unchanged, else the integer, exact in FP32. RS
draws only when the value is not integral. -/
def roundLane (mode : RMode) (r : BitVec 16) (x : Word) : FRes :=
  match FFmt.fp32.read x with
  | .nan => .exact FFmt.fp32.canon
  | .inf _ => .exact x
  | .zero _ => .exact x
  | .fin q =>
    let (n, integral) := roundInt q mode r
    ⟨if n = 0 then FFmt.fp32.zero (decide (q < 0)) else fp32Of n, flNone, !integral && decide (mode = .rs)⟩

/-- The class mask of an FP32 pattern (R105). -/
def classMask (x : Word) : Word :=
  match FFmt.fp32.read x with
  | .nan => if x.getLsbD 22 then 512 else 256
  | .inf n => if n then 1 else 128
  | .zero n => if n then 8 else 16
  | .fin q =>
    let sub := bitsOf x 23 8 == 0
    if q < 0 then (if sub then 4 else 2) else (if sub then 32 else 64)

/-- VFMIN: the lesser by key32 (R105). -/
def execVfmin (d a b : Reg) (l : Bool) (s : State) : Out := .next (vint2 (minmax32 false) d a b l s)

/-- VFMAX: the greater by key32 (R105). -/
def execVfmax (d a b : Reg) (l : Bool) (s : State) : Out := .next (vint2 (minmax32 true) d a b l s)

/-- VFMINN: the lesser, a single NaN passed over (R105). -/
def execVfminn (d a b : Reg) (l : Bool) (s : State) : Out := .next (vint2 (minmaxN32 false) d a b l s)

/-- VFMAXN: the greater, a single NaN passed over (R105). -/
def execVfmaxn (d a b : Reg) (l : Bool) (s : State) : Out := .next (vint2 (minmaxN32 true) d a b l s)

/-- VFCPS: vA[30:0] with the sign of vB (R105). -/
def execVfcps (d a b : Reg) (l : Bool) (s : State) : Out := .next (vint2 ((fun x y => (x &&& 0x7FFFFFFF) ||| (y &&& 0x80000000))) d a b l s)

/-- VFABS: vA with bit 31 cleared (R105). -/
def execVfabs (d a : Reg) (l : Bool) (s : State) : Out := .next (vint1 (fun x => x &&& 0x7FFFFFFF) d a l s)

/-- VFNEG: vA with bit 31 inverted (R105). -/
def execVfneg (d a : Reg) (l : Bool) (s : State) : Out := .next (vint1 (fun x => x ^^^ 0x80000000) d a l s)

/-- VFCLASS: the class mask of vA (R105). -/
def execVfclass (d a : Reg) (l : Bool) (s : State) : Out := .next (vint1 classMask d a l s)

/-- VFRND: rounded to an integer by ctl.round (R105). -/
def execVfrnd (d a : Reg) (l : Bool) (s : State) : Out := .next (fop1 (roundLane s.mode) d a l s)

/-- VFTRC: as VFRND with mode RZ (R105). -/
def execVftrc (d a : Reg) (l : Bool) (s : State) : Out := .next (fop1 (roundLane .rz) d a l s)

/-! ## VF16 (R106) -/

/-- The two halves of a lane, each worked on its own; the low half draws first (R93, R106). -/
def halves (f : BitVec 16 → Word → Word → Word → FRes) (s : State) (l : Nat) (x y z : Word) : LaneRes :=
  let lo := f (s.draw16 l 0) (x &&& 0xFFFF) (y &&& 0xFFFF) (z &&& 0xFFFF)
  let n := if lo.drew then 1 else 0
  let hi := f (s.draw16 l n) (x >>> 16) (y >>> 16) (z >>> 16)
  ⟨(hi.v <<< 16) ||| (lo.v &&& 0xFFFF), lo.fl ||| hi.fl, n + if hi.drew then 1 else 0⟩

/-- A packed word; `acc` says that it reads the old vD (R106). -/
def hop (f : BitVec 16 → Word → Word → Word → FRes) (acc : Bool) (d a b : Reg) (l : Bool) (s : State) : State :=
  let x := s.rdV a
  let y := s.rdV b
  let z := s.rdV d
  (fword (fun i => halves f s i (laneOf x i) (laneOf y i) (laneOf z i))
    (s.tagU (if acc then [a, b, d] else [a, b])) d s).releaseV l a d

/-- HMIN and HMAX on one half (R106). -/
def minmax16 (hi : Bool) (x y : Word) : Word :=
  if FFmt.fp16.read x = .nan ∨ FFmt.fp16.read y = .nan then FFmt.fp16.canon else minmax key16 hi x y

/-- HADD: FP16 a + b on each half (R106). -/
def execHadd (d a b : Reg) (l : Bool) (s : State) : Out :=
  .next (hop (fun r x y _ => fadd .fp16 s.mode r x y) false d a b l s)

/-- HSUB: FP16 a − b on each half (R106). -/
def execHsub (d a b : Reg) (l : Bool) (s : State) : Out :=
  .next (hop (fun r x y _ => fsub .fp16 s.mode r x y) false d a b l s)

/-- HMUL: FP16 a × b on each half (R106). -/
def execHmul (d a b : Reg) (l : Bool) (s : State) : Out :=
  .next (hop (fun r x y _ => fmul .fp16 s.mode r x y) false d a b l s)

/-- HFMA: FP16 a × b + d on each half (R106). -/
def execHfma (d a b : Reg) (l : Bool) (s : State) : Out :=
  .next (hop (fun r x y z => ffma .fp16 s.mode r false false x y z) true d a b l s)

/-- HMIN: FP16 lesser by key16 on each half (R106). -/
def execHmin (d a b : Reg) (l : Bool) (s : State) : Out :=
  .next (hop (fun _ x y _ => .exact (minmax16 false x y)) false d a b l s)

/-- HMAX: FP16 greater by key16 on each half (R106). -/
def execHmax (d a b : Reg) (l : Bool) (s : State) : Out :=
  .next (hop (fun _ x y _ => .exact (minmax16 true x y)) false d a b l s)

/-- BADD: BF16 a + b on each half (R106). -/
def execBadd (d a b : Reg) (l : Bool) (s : State) : Out :=
  .next (hop (fun r x y _ => fadd .bf16 s.mode r x y) false d a b l s)

/-- BMUL: BF16 a × b on each half (R106). -/
def execBmul (d a b : Reg) (l : Bool) (s : State) : Out :=
  .next (hop (fun r x y _ => fmul .bf16 s.mode r x y) false d a b l s)

/-- BFMA: BF16 a × b + d on each half (R106). -/
def execBfma (d a b : Reg) (l : Bool) (s : State) : Out :=
  .next (hop (fun r x y z => ffma .bf16 s.mode r false false x y z) true d a b l s)

end Sys2Proof.Machine
end

