-- ==== Sys2Proof/Machine/Memory.lean ====
section
/-! DEFINITION. LD, ST, ATOM, LCL (R133 to R147), and the events that carry their accesses: returns, stores on their way
home, atomics, faults, far memory, poison (R77, R142, R151, R159 to R166, R170, R172, R346, R397). -/

namespace Sys2Proof.Machine

/-! ## Loads (R136, R138) -/

/-- A load word of `size` bytes for each lane, or of one access (R136, R138). -/
def loadWord (size : Nat) (signed scalar : Bool) (d a : Reg) (p : BitVec 5) (h : BitVec 2) (s : State) : State :=
  s.accessPark .load size size false 0 noExtra (if scalar then s.scalarReq p a else s.vecReqs p a)
    (fun (s : State) _ go =>
      s.fly (s.newFlight (.load size signed scalar) 0 scalar d.toNat (max 1 (size / 4)) h (s.laneAccs go (fun _ => [])) []))

/-- LDB (R134). -/
def execLdb (d a : Reg) (p : BitVec 5) (h : BitVec 2) (s : State) : Out := .next (loadWord 1 true false d a p h s)
/-- LDBU (R134). -/
def execLdbu (d a : Reg) (p : BitVec 5) (h : BitVec 2) (s : State) : Out := .next (loadWord 1 false false d a p h s)
/-- LDH (R134). -/
def execLdh (d a : Reg) (p : BitVec 5) (h : BitVec 2) (s : State) : Out := .next (loadWord 2 true false d a p h s)
/-- LDHU (R134). -/
def execLdhu (d a : Reg) (p : BitVec 5) (h : BitVec 2) (s : State) : Out := .next (loadWord 2 false false d a p h s)
/-- LDW (R134). -/
def execLdw (d a : Reg) (p : BitVec 5) (h : BitVec 2) (s : State) : Out := .next (loadWord 4 false false d a p h s)
/-- LDD (R134). -/
def execLdd (d a : Reg) (p : BitVec 5) (h : BitVec 2) (s : State) : Out := .next (loadWord 8 false false d a p h s)
/-- LDQ (R134). -/
def execLdq (d a : Reg) (p : BitVec 5) (h : BitVec 2) (s : State) : Out := .next (loadWord 16 false false d a p h s)
/-- SLDW (R138). -/
def execSldw (d a : Reg) (p : BitVec 5) (h : BitVec 2) (s : State) : Out := .next (loadWord 4 false true d a p h s)
/-- SLDD (R138). -/
def execSldd (d a : Reg) (p : BitVec 5) (h : BitVec 2) (s : State) : Out := .next (loadWord 8 false true d a p h s)
/-- SLDQ (R138). -/
def execSldq (d a : Reg) (p : BitVec 5) (h : BitVec 2) (s : State) : Out := .next (loadWord 16 false true d a p h s)

/-! ## Stores (R137, R138, R151, R162) -/

/-- A store word of `size` bytes for each lane, or of one access. -/
def storeWord (size : Nat) (scalar : Bool) (d a : Reg) (p : BitVec 5) (h : BitVec 2) (s : State) : State :=
  let n := max 1 (size / 4)
  let words (l : Nat) : List Word :=
    if scalar then (List.range n).map (fun i => s.rdSn (d.toNat + i)) else s.laneData d.toNat n l
  let data (l : Nat) : List Byte := (bytesOfWords (words l)).take size
  let whole := size == 64
  s.accessQueue .store size size 1 none whole true h noExtra data (if scalar then s.scalarReq p a else s.vecReqs p a)
    (fun (s : State) ds go =>
      s.queueStore s.opId s.port s.thr.key s.ctx.sp whole ds h (go.map (fun (l, va, pg) => (va, pg, data l))))

/-- STB (R134). -/
def execStb (d a : Reg) (p : BitVec 5) (h : BitVec 2) (s : State) : Out := .next (storeWord 1 false d a p h s)
/-- STH (R134). -/
def execSth (d a : Reg) (p : BitVec 5) (h : BitVec 2) (s : State) : Out := .next (storeWord 2 false d a p h s)
/-- STW (R134). -/
def execStw (d a : Reg) (p : BitVec 5) (h : BitVec 2) (s : State) : Out := .next (storeWord 4 false d a p h s)
/-- STD (R134). -/
def execStd (d a : Reg) (p : BitVec 5) (h : BitVec 2) (s : State) : Out := .next (storeWord 8 false d a p h s)
/-- STQ (R134). -/
def execStq (d a : Reg) (p : BitVec 5) (h : BitVec 2) (s : State) : Out := .next (storeWord 16 false d a p h s)
/-- ST64: single-copy atomic for its 64 bytes (R137). -/
def execSt64 (d a : Reg) (p : BitVec 5) (h : BitVec 2) (s : State) : Out := .next (storeWord 64 false d a p h s)
/-- SSTW (R138). -/
def execSstw (d a : Reg) (p : BitVec 5) (h : BitVec 2) (s : State) : Out := .next (storeWord 4 true d a p h s)
/-- SSTD (R138). -/
def execSstd (d a : Reg) (p : BitVec 5) (h : BitVec 2) (s : State) : Out := .next (storeWord 8 true d a p h s)

/-! ## Atomics (R139 to R142) -/

/-- Clear the valid bits of the words of an access in a cluster's L1 (R171). -/
def State.unvalid (s : State) (cl pa n : Nat) : State :=
  s.modCluster cl (fun c => { c with l1 := c.l1.map (fun l =>
    if l.line = pa / 64 then { l with valid := l.valid &&& ~~~(lineWords pa n) } else l) })

/-- An atomic to a recorded page that is not deterministic-shared (R342, R345). -/
def Page.recorded (p : Page) : Bool := p.rec_ && !p.ds

/-- An ATOM word with `k` data registers (R139): D = 63 names none, and the data then follows A. -/
def atomWord (fn k : Nat) (d a : Reg) (p : BitVec 5) (h : BitVec 2) (s : State) : State :=
  let size := Work.size (.atomic fn)
  let src := if d = 63 then a.toNat + 1 else d.toNat
  let count := if d = 63 then 0 else if fn = 11 then 2 else 1
  s.accessPark .atom size size true 2 noExtra (s.vecReqs p a)
    (fun (s : State) ds go =>
      let s := if go.any (fun (_, _, pg) => pg.recorded) then s.handOn s.thr.key s.thr.env.rcb else s
      let s := go.foldl (fun s (_, _, pg) => s.unvalid s.myCluster pg.pa size) s
      s.fly { s.newFlight (.atomic fn) 0 false d.toNat count h (s.laneAccs go (s.laneData src k)) [] with ds := ds })

/-- AADD (R140). -/
def execAadd (d a : Reg) (p : BitVec 5) (h : BitVec 2) (s : State) : Out := .next (atomWord 0 1 d a p h s)
/-- AMIN (R140). -/
def execAmin (d a : Reg) (p : BitVec 5) (h : BitVec 2) (s : State) : Out := .next (atomWord 1 1 d a p h s)
/-- AMAX (R140). -/
def execAmax (d a : Reg) (p : BitVec 5) (h : BitVec 2) (s : State) : Out := .next (atomWord 2 1 d a p h s)
/-- AAND (R140). -/
def execAand (d a : Reg) (p : BitVec 5) (h : BitVec 2) (s : State) : Out := .next (atomWord 3 1 d a p h s)
/-- AOR (R140). -/
def execAor (d a : Reg) (p : BitVec 5) (h : BitVec 2) (s : State) : Out := .next (atomWord 4 1 d a p h s)
/-- AXOR (R140). -/
def execAxor (d a : Reg) (p : BitVec 5) (h : BitVec 2) (s : State) : Out := .next (atomWord 5 1 d a p h s)
/-- AXCH (R140). -/
def execAxch (d a : Reg) (p : BitVec 5) (h : BitVec 2) (s : State) : Out := .next (atomWord 6 1 d a p h s)
/-- ACAS (R140). -/
def execAcas (d a : Reg) (p : BitVec 5) (h : BitVec 2) (s : State) : Out := .next (atomWord 7 2 d a p h s)
/-- AFADD (R140). -/
def execAfadd (d a : Reg) (p : BitVec 5) (h : BitVec 2) (s : State) : Out := .next (atomWord 8 1 d a p h s)
/-- AFMIN (R140). -/
def execAfmin (d a : Reg) (p : BitVec 5) (h : BitVec 2) (s : State) : Out := .next (atomWord 9 1 d a p h s)
/-- AFMAX (R140). -/
def execAfmax (d a : Reg) (p : BitVec 5) (h : BitVec 2) (s : State) : Out := .next (atomWord 10 1 d a p h s)
/-- AMXI (R141). -/
def execAmxi (d a : Reg) (p : BitVec 5) (h : BitVec 2) (s : State) : Out := .next (atomWord 11 2 d a p h s)

/-! ## Cluster memory: scratch (R143, R144, R166, R187) -/

/-- The offset of a lane in the workgroup's window (R143). -/
def State.clmOff (s : State) (p : BitVec 5) (a : Reg) (l : Nat) : Nat := (s.rdSn (2 * p.toNat) + laneOf (s.rdV a) l).toNat

/-- The start of the workgroup's CLM window. -/
def State.window (s : State) (wg : Nat) : Nat := ((s.group? wg).bind Workgroup.window).getD 0

/-- The checks of an LCL scratch word (R135, R143, R187): the lanes with their CLM addresses, or the trapped state. -/
def State.clmCheck (s : State) (size : Nat) (writes : Bool) (p : BitVec 5) (a : Reg) : State ⊕ List (Nat × Nat) :=
  let rows := (lanesIn s.active).map (fun l => (l, s.clmOff p a l))
  let w := s.window s.thr.key.wg
  let mis := rows.filterMap (fun (l, o) => if o % size ≠ 0 then some (l, o, 0) else none)
  let out := rows.filterMap (fun (l, o) => if s.thr.kern.clmBytes < o + size then some (l, o, 2) else none)
  let hits := rows.filterMap (fun (l, o) => (s.lockHit true writes (w + o) size).map (fun n => (l, o, n)))
  let stop (cls : Nat) (fs : List (Nat × Nat × Nat)) : State ⊕ List (Nat × Nat) :=
    match s.failTrap cls fs with
    | .trap cls c va lanes => .inl (s.trapGroup cls c (BitVec.ofNat 64 va) lanes)
    | .rows _ _ => .inl s
  if !mis.isEmpty then stop clsALIGN mis
  else if !out.isEmpty then stop clsPROT out
  else if !hits.isEmpty then stop clsLOCKHIT hits
  else .inr (rows.map (fun (l, o) => (l, w + o)))

/-- Some sector of CLM bytes is poisoned. -/
def Cluster.clmPoisoned (c : Cluster) (a n : Nat) : Bool := c.poison.any (fun x => decide (a / 32 ≤ x ∧ x ≤ (a + n - 1) / 32))

/-- A word whose results are known, with the lanes that met poison (R166): a load then writes nothing. -/
def State.flyRead (s : State) (cls : Nat) (load : Bool) (d count : Nat) (ready : List (Nat × Nat × Word))
    (bad : List (Nat × Nat)) : State :=
  s.fly { s.newFlight .result cls false d count 0 [] (if load && !bad.isEmpty then [] else ready) with bad := bad }

/-- LLDW and LLDQ (R144). -/
def clmLoad (n : Nat) (d a : Reg) (p : BitVec 5) (s : State) : State :=
  match s.clmCheck (4 * n) false p a with
  | .inl s => s
  | .inr rows =>
    let c := s.cluster s.myCluster
    let poisoned := rows.filter (fun (_, x) => c.clmPoisoned x (4 * n))
    let val (x i : Nat) : Word :=
      if c.clmPoisoned x (4 * n) then poisonWord false else BitVec.ofNat 32 (natOfBytes (cellsRead c.clm (x + 4 * i) 4))
    let ready := rows.flatMap (fun (l, x) => (List.range n).map (fun i => (l, i, val x i)))
    let w := s.window s.thr.key.wg
    s.flyRead 0 true d.toNat n ready (if s.thr.env.propagate then [] else poisoned.map (fun (l, x) => (l, x - w)))

/-- Write CLM bytes; a sector of which all 32 bytes are written is no longer poisoned (R166). -/
def Cluster.clmWrite (c : Cluster) (rows : List (Nat × List Byte)) : Cluster :=
  let touched (x : Nat) : Bool :=
    (List.range 32).all (fun i => rows.any (fun (a, bs) => decide (a ≤ 32 * x + i ∧ 32 * x + i < a + bs.length)))
  { c with
    clm := rows.foldl (fun m (a, bs) => cellsWrite m a bs) c.clm
    poison := c.poison.filter (fun x => !touched x) }

/-- LSTW and LSTQ (R144). -/
def clmStore (n : Nat) (d a : Reg) (p : BitVec 5) (s : State) : State :=
  match s.clmCheck (4 * n) true p a with
  | .inl s => s
  | .inr rows =>
    s.modCluster s.myCluster (fun c => c.clmWrite (rows.map (fun (l, x) => (x, bytesOfWords (s.laneData d.toNat n l)))))

/-- The LCL atomics (R144): lanes in ascending order; a poisoned lane's operation is not performed (R166). -/
def clmAtomic (f : Word → Word → Word) (d a : Reg) (p : BitVec 5) (s : State) : State :=
  match s.clmCheck 4 true p a with
  | .inl s => s
  | .inr rows =>
    let c := s.cluster s.myCluster
    let w := s.window s.thr.key.wg
    let go (acc : Cluster × List (Nat × Nat × Word) × List (Nat × Nat)) (r : Nat × Nat) :
        Cluster × List (Nat × Nat × Word) × List (Nat × Nat) :=
      let (c, ready, bad) := acc
      let (l, x) := r
      if c.clmPoisoned x 4 then
        if s.thr.env.propagate then (c, ready ++ [(l, 0, poisonWord true)], bad) else (c, ready, bad ++ [(l, x - w)])
      else
        let old := BitVec.ofNat 32 (natOfBytes (cellsRead c.clm x 4))
        ({ c with clm := cellsWrite c.clm x (bytesOfNat 4 (f old (laneOf (s.rdV d) l)).toNat) }, ready ++ [(l, 0, old)], bad)
    let (c, ready, bad) := rows.foldl go (c, [], [])
    (s.setCluster c).flyRead 0 false d.toNat 1 ready bad

/-- LLDW (R144). -/
def execLldw (d a : Reg) (p : BitVec 5) (s : State) : Out := .next (clmLoad 1 d a p s)
/-- LLDQ (R144). -/
def execLldq (d a : Reg) (p : BitVec 5) (s : State) : Out := .next (clmLoad 4 d a p s)
/-- LSTW (R144). -/
def execLstw (d a : Reg) (p : BitVec 5) (s : State) : Out := .next (clmStore 1 d a p s)
/-- LSTQ (R144). -/
def execLstq (d a : Reg) (p : BitVec 5) (s : State) : Out := .next (clmStore 4 d a p s)
/-- LAADD (R144). -/
def execLaadd (d a : Reg) (p : BitVec 5) (s : State) : Out := .next (clmAtomic (· + ·) d a p s)
/-- LAMIN (R144). -/
def execLamin (d a : Reg) (p : BitVec 5) (s : State) : Out := .next (clmAtomic sminW d a p s)
/-- LAMAX (R144). -/
def execLamax (d a : Reg) (p : BitVec 5) (s : State) : Out := .next (clmAtomic smaxW d a p s)
/-- LAXCH (R144). -/
def execLaxch (d a : Reg) (p : BitVec 5) (s : State) : Out := .next (clmAtomic (fun _ x => x) d a p s)

/-! ## Cluster memory: FIFOs (R145) -/

/-- The entries of a bank's FIFO, oldest first; the flag marks a poisoned entry. -/
def Cluster.fifo (c : Cluster) (b : Nat) : List (Word × Bool) := ((c.fifos.find? (fun f => f.1 == b)).map Prod.snd).getD []

/-- Replace a bank's FIFO. -/
def Cluster.setFifo (c : Cluster) (b : Nat) (es : List (Word × Bool)) : Cluster :=
  { c with fifos := (b, es) :: c.fifos.filter (fun f => f.1 != b) }

/-- The checks of LPUSH and LPOP (R145, R187): a bank not in FIFO mode, or one that an engine's range locks. -/
def State.fifoCheck (s : State) (b : Nat) : Option State :=
  if ((s.cluster s.myCluster).banks[b]?.map Bank.mode).getD 0 ≠ 2 then some (s.trapWord clsPROT 0)
  else (s.lockHit true true (65536 * b) 65536).map (fun n => s.trapWord clsLOCKHIT n)

/-- LPUSH: append each lane's word while there is room (R145). -/
def execLpush (d a : Reg) (p : BitVec 5) (s : State) : Out :=
  let b := (s.rdSn (2 * p.toNat)).toNat % 32
  match s.fifoCheck b with
  | some s => .next s
  | none =>
    let c := s.cluster s.myCluster
    let q := c.fifo b
    let ls := lanesIn s.active
    let fits := ls.take (16384 - q.length)
    let s1 := s.setCluster (c.setFifo b (q ++ fits.map (fun l => (laneOf (s.rdV d) l, false))))
    .next (s1.flyRead 0 false a.toNat 1 (ls.map (fun l => (l, 0, if fits.contains l then 1 else 0))) [])

/-- What one lane of LPOP meets. -/
inductive Popped where
  | value (x : Word)
  | empty
  | bad
  deriving DecidableEq, Repr

/-- Serve the lanes of LPOP in ascending order; a poisoned entry stays unless poison propagates (R145, R166). -/
def popLanes (propagate : Bool) : List Nat → List (Word × Bool) → List (Nat × Popped) × List (Word × Bool)
  | [], q => ([], q)
  | l :: ls, q =>
    let (r, q) := match q with
      | [] => (Popped.empty, [])
      | (x, bad) :: rest =>
        if bad then (if propagate then (Popped.value (poisonWord false), rest) else (.bad, (x, bad) :: rest))
        else (.value x, rest)
    let (rs, q) := popLanes propagate ls q
    ((l, r) :: rs, q)

/-- LPOP: take the oldest entries (R145). -/
def execLpop (d a : Reg) (p : BitVec 5) (s : State) : Out :=
  let b := (s.rdSn (2 * p.toNat)).toNat % 32
  match s.fifoCheck b with
  | some s => .next s
  | none =>
    let c := s.cluster s.myCluster
    let (rs, q) := popLanes s.thr.env.propagate (lanesIn s.active) (c.fifo b)
    let vals := rs.filterMap (fun (l, r) => match r with
      | .value x => some (l, 0, x)
      | .empty | .bad => none)
    let oks := rs.filterMap (fun (l, r) => match r with
      | .value _ => some (l, 0, (1 : Word))
      | .empty => some (l, 0, 0)
      | .bad => none)
    let bad := rs.filterMap (fun (l, r) => match r with
      | .bad => some (l, 0)
      | .value _ | .empty => none)
    let s := s.setCluster (c.setFifo b q)
    let s := if d = a then s else s.flyRead 0 false d.toNat 1 vals []
    .next (s.flyRead 0 false a.toNat 1 oks bad)

/-! ## Loads return (R136, R138, R151, R166) -/

/-- The registers that a load writes from its bytes (R134). -/
def loadVals (size : Nat) (signed : Bool) (bs : List Byte) : List Word :=
  let x := natOfBytes bs
  match size with
  | 1 => [if signed then BitVec.signExtend 32 (BitVec.ofNat 8 x) else BitVec.ofNat 32 x]
  | 2 => [if signed then BitVec.signExtend 32 (BitVec.ofNat 16 x) else BitVec.ofNat 32 x]
  | n => (List.range (n / 4)).map (fun i => wordAt bs (4 * i))

/-- The poison values of a load (R166). -/
def loadPoison (size : Nat) : List Word := List.replicate (max 1 (size / 4)) (poisonWord (decide (size < 4)))

/-- A queued write that may forward: it has not reached its home, or what it wrote still stands there and is its cluster's (log
entry 44). -/
def State.forwards (s : State) (e : WqEntry) (pa n : Nat) : Bool :=
  e.stage == .queued ||
    ((wordsOf pa n).all (fun w => s.owner w == some (portCluster e.core)) && e.forward pa n == some (s.homeRead pa n))

/-- The core or MCC port under which a thread's accesses go, from its key (R150). -/
def State.portOf (s : State) (k : TKey) : Nat :=
  let core := ((s.group? k.wg).map Workgroup.core).getD (((s.thread? k).map Thread.core).getD 0)
  if k.ix = 16 then 640 + clusterOf core else core

/-- One lane of a load or EST read is performed, if nothing stands before it. -/
def State.loadLane (s : State) (f : Flight) (a : LaneAcc) (evict : Bool) : State :=
  let n := f.work.size
  let own := s.ownWrites f a.pa n
  if a.wait.isSome || s.behind f a || !s.reaches a.page n true then s
  else
    match f.work with
    | .estLoad raw =>
      if !own.isEmpty then s
      else
        let s := s.touchL2 (s.envOf f.key) a.pa f.hint false
        if s.poisoned a.pa 16 then
          s.performedBad f.id a (if raw then loadPoison 16 else [0x7FC00000, 0x7FC00000, 0x7FC00000, 0x0BAD0BAD])
        else s.performed f.id a.lane ((EstWord.ofBytes (s.homeRead a.pa 16)).loaded raw)
    | .cmpLoad =>
      if !own.isEmpty then s
      else
        let s := (s.touchL2 (s.envOf f.key) a.pa f.hint false).foldAll a.pa
        if s.poisoned a.pa 32 then s.performedBad f.id a [0x7FC00000, 0x7FC00000, 0x7FC00000, 0x7FC00000, 0x0BAD0BAD]
        else s.performed f.id a.lane (s.cmpWord a.pa).loaded
    | .load size signed scalar =>
      if a.page.uncached && s.behindStore f a then s
      else
      match (if a.page.uncached then none else own.getLast?) with
      | some e =>
        if !s.forwards e a.pa n then s
        else
          match e.forward a.pa n with
          | some bs => s.performed f.id a.lane (loadVals size signed bs)
          | none => s
      | none =>
        let s := if a.page.type = .cmp then s.foldRange a.pa n else s
        let port := s.portOf f.key
        let (s, r) :=
          if scalar && decide (port < 640) then s.readScalar (s.envOf f.key) port a n f.hint evict
          else s.readVector (s.envOf f.key) port a n f.hint evict
        match r with
        | some bs => s.performed f.id a.lane (loadVals size signed bs)
        | none => s.performedBad f.id a (loadPoison size)
    | .atomic _ | .estAdd _ | .estMerge | .estGen | .cmpTerm | .cmpFlush | .cmpClear _ | .crep | .ray .. | .format | .result => s

/-- The lanes of a flight that go in one request with some lanes: those of the same 32-byte sectors (R150). -/
def Flight.mates (f : Flight) (lanes : Mask) : List LaneAcc :=
  let named := f.todo.filter (fun a => lanes.getLsbD a.lane)
  f.todo.filter (fun a => named.any (fun b => sectorOf a.pa == sectorOf b.pa))

/-- LOAD_RETURN: the lanes named, with those that share a request with them, read their bytes, in ascending order, and the
registers named are written (R136, R150). -/
def execLoadReturn (id : Nat) (lanes : Mask) (regs : BitVec 8) (evict : Bool) (s : State) : Out :=
  let mates := ((s.flight? id).map (fun f => f.mates lanes)).getD []
  let s := mates.foldl (fun s a =>
    match s.flight? id with
    | some f => s.loadLane f a evict
    | none => s) s
  .next (s.landFlight id lanes regs)

/-- LONG_LATENCY_RETURN: results that are known reach their registers (R77, R79). -/
def execLongLatencyReturn (id : Nat) (lanes : Mask) (regs : BitVec 8) (s : State) : Out :=
  .next (s.landFlight id lanes regs).sweepFlights

/-! ## Stores on their way home (R151, R170, R172) -/

/-- WRITE_QUEUE_ENTER: a held sector enters the queue (R151). -/
def execWriteQueueEnter (core : Nat) (s : State) : Out := .next (s.enterHeld core)

/-- The root port behind an address has its link (R391). -/
def State.portUp (s : State) (pa : Nat) : Bool := (if cxlPort pa then s.plat.cxl1 else s.plat.cxl0).link

/-- Every earlier load and atomic of the store's wave has read its value (R172), and its earlier updates that share the
store's words or, on EST and CMP pages, its slice have been applied (R208, R237). A store to far memory waits for the earlier
ones to its sector to complete, since those may have to be replayed (R165). -/
def State.storeMayGo (s : State) (e : WqEntry) : Bool :=
  let slice := s.sliceOf (32 * e.sector)
  !(s.flights ++ s.groups.flatMap Workgroup.far).any (fun f => f.key == e.key && decide (f.op < e.op) && (match f.work with
    | .load .. | .atomic _ | .crep => !f.todo.isEmpty
    | .estLoad _ | .estAdd _ | .estMerge | .estGen | .cmpTerm | .cmpFlush | .cmpClear _ | .cmpLoad =>
      (f.work.isLoad && !f.todo.isEmpty) ||
      f.todo.any (fun a => overlaps a.pa (a.span f.work) (32 * e.sector) 32 ||
        ((e.type == .est || e.type == .cmp) && s.rangeAt a.pa (a.span f.work) slice))
    | .ray .. | .format | .result => false)) &&
  !s.anySplit e.key (fun x => x.words.any (fun p => p.reads && decide (p.id < e.op))) &&
  !(e.type == .far && s.rq.any (fun x => x.key == e.key && x.page == blockOf e.va && decide (x.op < e.op))) &&
  !(s.wq ++ s.hold).any (fun x => x.key == e.key && (x.stage == .queued || e.type == .far) && decide (x.op < e.op) &&
    (x.sector == e.sector || ((e.type == .est || e.type == .cmp) && x.type == e.type && s.sliceOf (32 * x.sector) == slice)))

/-- A sector is written at its home: owners are recorded, other clusters get revokes (R170 steps 1 to 3). -/
def State.reachHome (s : State) (e : WqEntry) : State :=
  let cl := portCluster e.core
  let s := if e.type = .cmp then s.foldRange (32 * e.sector) 32 else s
  let revokes := ((e.words.filterMap s.owner).filter (· != cl)).dedup
  let s := (s.homeWriteSector e.sector e.bytes).l2Write (s.envOf e.key) (32 * e.sector) 32 e.hint (e.type == .far)
  let s := e.words.foldl (fun s w => s.setOwner w (some cl)) s
  let due := s.dueAt e.type (32 * e.sector)
  { s with wq := s.wq.map (fun x => if x.id = e.id then { x with stage := .home revokes, due := due } else x) }

/-- The entries that go home with an entry: both sectors of an ST64's block (R137). -/
def State.together (s : State) (e : WqEntry) : List WqEntry :=
  if e.whole then (s.wq ++ s.hold).filter (fun x => x.op == e.op && x.core == e.core && x.whole && x.sector / 2 == e.sector / 2)
  else [e]

/-- The store may go home now: what precedes it has gone (R172, R208), and no sector of its access is held (R137, R151). -/
def State.storeReady (s : State) (e : WqEntry) : Bool :=
  (s.together e).all (fun x => s.storeMayGo x && !s.hold.any (fun h => h.id == x.id))

/-- STORE_REACH_HOME: a store's sector reaches its home slice (R170); one to far memory, while its port's link is up (R164). -/
def execStoreReachHome (core id : Nat) (s : State) : Out :=
  match s.wq.find? (fun e => e.core == core && e.id == id) with
  | none => .next s
  | some e =>
    if e.stage = .queued ∧ s.storeReady e ∧ (e.type ≠ .far ∨ s.portUp (32 * e.sector)) then
      .next ((s.together e).foldl State.reachHome s)
    else .next s

/-- REVOKE: a cluster answers a store's revoke, its words no longer owned (R170 step 3). -/
def execRevoke (core id cluster : Nat) (s : State) : Out :=
  match s.wq.find? (fun e => e.core == core && e.id == id) with
  | none => .next s
  | some e =>
    match e.stage with
    | .home rs =>
      if rs.contains cluster then
        let s := s.modCluster cluster (fun c => e.words.foldl Cluster.revoke c)
        .next { s with wq := s.wq.map (fun x => if x.id = id then { x with stage := .home (rs.erase cluster) } else x) }
      else .next s
    | .queued => .next s

/-- A store is complete: its words enter the storing cluster's L1 as they stand at the home, where they are still its own and
their sector is not poisoned, and the entry leaves the queue (R166, R170 step 4; log entry 44). -/
def State.finishStore (s : State) (e : WqEntry) : State :=
  let cl := portCluster e.core
  let mine := e.words.filter (fun w => s.owner w == some cl)
  let lost := e.words.filter (fun w => s.owner w != some cl)
  let bad := s.poisoned (32 * e.sector) 32
  let bits := (if bad then [] else mine).foldl (fun m w => m ||| ((1 : BitVec 16) <<< (w % 16))) 0
  let line := e.sector / 2
  let s := s.modCluster cl (fun c => c.mergeStore line bits (s.homeRead (64 * line) 64))
  let s := (if bad then e.words else lost).foldl (fun s w => s.unvalid cl (4 * w) 4) s
  let s := lost.foldl (fun s w => s.modCluster cl (fun c => c.revoke w)) s
  let s := if e.core < 640 then s.dropScalar e.core (32 * e.sector) 32 else s
  { s with wq := s.wq.filter (fun x => x.id != e.id) }

/-- STORE_ACK: every revoke of a store has been answered (R170 step 4). -/
def execStoreAck (core id : Nat) (s : State) : Out :=
  match s.wq.find? (fun e => e.core == core && e.id == id) with
  | some e => if e.stage = .home [] ∧ e.type ≠ .far then .next (s.finishStore e) else .next s
  | none => .next s

/-- FAR_STORE_ACK: the expander acknowledges a store; it does while the port's link is up, for a request that has not completed
as UNREACHABLE (R164, R165). -/
def execFarStoreAck (core id : Nat) (s : State) : Out :=
  match s.wq.find? (fun e => e.core == core && e.id == id) with
  | some e =>
    if e.stage = .home [] ∧ e.type = .far ∧ !e.stuck ∧ s.portUp (32 * e.sector) then .next (s.finishStore e) else .next s
  | none => .next s

/-! ## Atomics at their homes (R140 to R142, R345, R346) -/

/-- The new value of a 4-byte word (R140). -/
def atomNew (fn : Nat) (m : Word) (d : List Word) : Word :=
  let x := d.headD 0
  match fn with
  | 0 => m + x
  | 1 => sminW m x
  | 2 => smaxW m x
  | 3 => m &&& x
  | 4 => m ||| x
  | 5 => m ^^^ x
  | 6 => x
  | 7 => if m = x then d[1]?.getD 0 else m
  | 8 => add32 m x
  | 9 => minmax32 false m x
  | _ => minmax32 true m x

/-- The poison value of an atomic (R166). -/
def atomPoison (fn : Nat) : Word := poisonWord (!(fn == 8 || fn == 9 || fn == 10))

/-- One lane's atomic at its home slice; none on a poisoned sector (R142, R166). -/
def State.applyAtomic (s : State) (f : Flight) (a : LaneAcc) (fn : Nat) : State :=
  let n := f.work.size
  let port := s.portOf f.key
  let env := s.envOf f.key
  let s := s.touchL2 env a.pa f.hint (a.page.type == .far)
  if s.poisoned a.pa n then s.performedBad f.id a (List.replicate f.count (atomPoison fn))
  else
    let old := s.homeRead a.pa n
    let tie := wordAt old 0
    let order := wordAt old 4
    let dOrder := a.data.headD 0
    let dTie := a.data[1]?.getD 0
    let greater := decide (order.toNat * 2 ^ 32 + tie.toNat < dOrder.toNat * 2 ^ 32 + dTie.toNat)
    let new := if fn = 11 then (if greater then [dTie, dOrder] else [tie, order]) else [atomNew fn tie a.data]
    let s := (s.engineWrite a.pa (bytesOfWords new)).l2Write env a.pa n f.hint (a.page.type == .far)
    let s := (s.unvalid (portCluster port) a.pa n).dropScalar port a.pa n
    s.performed f.id a.lane (if fn = 11 then [order, tie] else [tie])

/-- The dispatch sequence and workgroup index of a thread, from its workgroup. -/
def State.dispatchOf (s : State) (k : TKey) : Word × Word :=
  match s.group? k.wg with
  | some g =>
    ((match s.dispatch? g.disp with
      | some d => if d.node.isSome then 0xFFFFFFFF else d.seq
      | none => 0xFFFFFFFF), g.index)
  | none => (0, 0)

/-- A lane waits in its slice's gate queue, which holds 16 atomic words; past that its split parks (R346). -/
def State.gateQueue (s : State) (f : Flight) (a : LaneAcc) : State :=
  let slice := s.sliceOf a.pa
  let here := s.flights.filter (fun g => g.id != f.id && g.todo.any (fun b => b.gated == some false && s.sliceOf b.pa == slice))
  let full := decide (16 ≤ here.length)
  s.modFlight f.id (fun f => { f with todo := f.todo.map (fun b => if b.lane = a.lane then { b with gated := some full } else b) })

/-- An atomic reaches its home slice (R142): on a recorded page it is logged (R345), or waits for its turn (R346). -/
def State.arriveAtomic (s : State) (f : Flight) (a : LaneAcc) (fn : Nat) : State :=
  match s.group? f.key.wg with
  | none => s.applyAtomic f a fn
  | some g =>
    let (seq, index) := s.dispatchOf f.key
    let slice := s.sliceOf a.pa
    if !a.page.recorded then s.applyAtomic f a fn
    else if g.env.dmode = 2 then
      let bad := s.poisoned a.pa f.work.size
      let s := s.applyAtomic f a fn
      if bad then s else s.logAtomic g.env.rcb a.va slice seq index
    else if g.env.dmode = 3 then
      match s.region? g.env.rcb with
      | none => s.applyAtomic f a fn
      | some r =>
        match s.gateTurn r a.va slice seq index with
        | .free => s.applyAtomic f a fn
        | .now gate => ((s.setGate r.rcb gate).applyAtomic f a fn).gateAdvanced slice
        | .broken gate => (s.gateFall r.rcb gate seq index).applyAtomic f a fn
        | .later gate =>
          let s := s.setGate r.rcb (if s.gateWaits r.rcb a.va then gate else { gate with since := s.time })
          if a.gated = some false then s else s.gateQueue f a
    else s.applyAtomic f a fn

/-- The lane of a flight of atomics, and its FN. -/
def State.atomLane (s : State) (id lane : Nat) : Option (Flight × LaneAcc × Nat) :=
  match s.flight? id with
  | none => none
  | some f =>
    match f.work, f.todo.find? (fun a => a.lane == lane) with
    | .atomic fn, some a => some (f, a, fn)
    | _, _ => none

/-- ORDER_GATE_ADMIT: a lane that waits at a gate is admitted in its turn (R346). -/
def execOrderGateAdmit (id lane : Nat) (s : State) : Out :=
  match s.atomLane id lane with
  | some (f, a, fn) => if a.gated = some false then .next (s.arriveAtomic f a fn).sweepFlights else .next s
  | none => .next s

/-! ## Fault records answered (R161 to R163, R165) -/

/-- A parked word no longer waits for a record; it may be tried again. -/
def ParkedWord.answer (p : ParkedWord) (rec : Nat) : ParkedWord :=
  if p.waits.any (fun (i, _) => i == rec) then { p with waits := p.waits.filter (fun (i, _) => i != rec), go := true } else p

/-- A split no longer waits for a record. -/
def Split.answer (e : Split) (rec : Nat) : Split :=
  { e with
    parked := e.parked.map (fun p => p.answer rec)
    also := e.also.map (fun p => p.answer rec)
    wait := match e.wait with
      | .fetch ws => .fetch (ws.filter (fun (i, _) => i != rec))
      | w => w }

/-- The splits of a level, changed. -/
def Level.mapSplits (l : Level) (f : Split → Split) : Level := { l with splits := l.splits.map (fun e => e.map f) }

/-- The splits of a thread, changed, in both its levels. -/
def Thread.mapSplits (t : Thread) (f : Split → Split) : Thread :=
  { t with level := t.level.mapSplits f, base := t.base.map (fun (b, i) => (b.mapSplits f, i)) }

/-- Every waiter of a record resumes. -/
def State.resume (s : State) (rec : Nat) : State :=
  { s with
    faults := s.faults.filter (fun f => f.id != rec)
    plat := { s.plat with dutyReqs := s.plat.dutyReqs.filter (fun r => !(r.fn == 0 && r.a == rec)) }
    thr := s.thr.mapSplits (fun e => e.answer rec)
    threads := s.threads.map (fun t => t.mapSplits (fun e => e.answer rec))
    flights := s.flights.map (fun f => { f with todo := f.todo.map (fun a =>
      if a.wait = some rec then { a with wait := none, due := s.dueAt a.page.type a.pa } else a) })
    draws := s.draws.map (fun d => { d with waits := d.waits.filter (fun (i, _) => i != rec) })
    clusters := s.clusters.map (fun c => { c with hamper := c.hamper.map (fun o =>
      { o with waits := o.waits.filter (fun (i, _) => i != rec) }) }) }

/-- A write of Trestle's into its page tables. -/
def State.writeTables (s : State) (ents : List (Nat × BitVec 64)) : State :=
  ents.foldl (fun s (a, v) => s.engineWrite a (bytesOfNat 8 v.toNat)) s

/-- What an entry of the replay queue does to memory (R158). -/
def RqEntry.acc (e : RqEntry) : Acc :=
  match e.work with
  | none => .store
  | some .cmpTerm => .cmpAdd
  | some .cmpFlush => .cmpAdd
  | some (.cmpClear _) => .cmpAdd
  | some _ => .estAdd

/-- The bit of TYPES of an entry (R159, R206, R235). -/
def RqEntry.typeBit (e : RqEntry) : Nat :=
  match e.acc with
  | .estAdd => 4
  | .cmpAdd => 5
  | .load | .store | .atom | .estRead | .cmpRead | .fetch => 1

/-- The words that a lane of an entry carries. -/
def laneWords (bs : List Byte) : List Word := (List.range (bs.length / 4)).map (fun i => wordAt bs (4 * i))

/-- A lane of an entry may act on its page now (R135, R203). -/
def RqEntry.allowed (e : RqEntry) (va : Nat) (bs : List Byte) (p : Page) : Bool :=
  p.permits e.acc && (e.work != some .estGen || genFits (fun _ => laneWords bs) 0 va p)

/-- The lanes of an entry are lost: its wave traps at its owner's next group or at its waiting REL (R162, R363). -/
def State.denyEntry (s : State) (e : RqEntry) (lanes : List (Nat × Nat × List Byte)) : State :=
  match s.focus e.key with
  | none => s
  | some s =>
    let l := if e.inBase then (s.thr.base.map Prod.fst).getD s.thr.level else s.thr.level
    let cur := ((l.split? e.split).map Split.cur).getD 0
    s.trapDue e.split e.inBase
      { cls := clsPAGE, cause := 2, pc := 0, slot := 0, oslot := 0, replay := false, addr := BitVec.ofNat 64 e.page
        lanes := if lanes.any (fun (x, _, _) => x == onceLane) then cur else maskOf (fun i => lanes.any (fun (x, _, _) => x == i)) }

/-- The lanes of an entry that are mapped go on their way: a store's to the write queue, a contribution's to its home
(R162). -/
def State.releaseEntry (s : State) (e : RqEntry) (lanes : List (Nat × Nat × Page × List Byte)) : State :=
  match e.work with
  | none => s.queueStore e.op e.core e.key e.split e.whole e.ds e.hint (lanes.map (fun (_, va, p, bs) => (va, p, bs)))
  | some w =>
    s.fly
      { id := 0, op := e.op, key := e.key, sp := e.split, splits := 0, pends := 0, inBase := e.inBase, cls := 0, work := w
        scalar := false, dst := 0, count := 0, at_ := ⟨0, 0⟩, hint := e.hint, ready := [], later := false, bad := [], denied := [], ds := e.ds
        todo := lanes.flatMap (fun (l, va, p, bs) =>
          genRuns w ⟨l % 96, va, p.pa, p, laneWords bs, none, none, s.dueAt p.type p.pa⟩) }

/-- The entry waits for a record. -/
def RqEntry.awaits (e : RqEntry) (rec : Nat) : Bool := e.waits == rec && !e.ladle

/-- A replay-queue entry of the same page stands before this one in its core's queue. -/
def State.rqBehind (s : State) (e : RqEntry) : Bool :=
  (s.rq.takeWhile (fun x => x.id != e.id)).any (fun x => x.core == e.core && x.page == e.page)

/-- The word of an entry is a DS access now, for a page that was not mapped when it issued: the holder performs it, and it counts
once for its word; any other wave's entry waits for the Ladle (R210, R238, R341). -/
def State.dsDrain (s : State) (e : RqEntry) : Option State :=
  let env := s.envOf e.key
  match s.region? env.rcb with
  | none => none
  | some r =>
    if r.ladle.holder = some e.key ∧ !r.ladle.leaving then
      let (seq, index) := s.dispatchOf e.key
      let s := s.countDsFor env.rcb seq index
      some { s with rq := s.rq.map (fun x => if x.key = e.key ∧ x.op = e.op then { x with ds := true } else x) }
    else none

/-- The entry waits for the Ladle. -/
def State.ladleEntry (s : State) (e : RqEntry) : State :=
  { s with rq := s.rq.map (fun x => if x.id = e.id then { x with ladle := true } else x) }

/-- The lanes of an entry go their ways: those that their page forbids are lost, the mapped ones go on, those still unmapped open a
record again. -/
def State.drainLanes (s : State) (e : RqEntry) (walked : List (Nat × Nat × List Byte × Walk)) : State :=
  let miss := walked.filterMap (fun (l, va, bs, w) => match w with
    | .fault c => some (l, va, bs, c)
    | .page _ => none)
  let go := walked.filterMap (fun (l, va, bs, w) => match w with
    | .page p => if e.allowed va bs p then some (l, va, p, bs) else none
    | .fault _ => none)
  let lost := walked.filterMap (fun (l, va, bs, w) => match w with
    | .page p => if e.allowed va bs p then none else some (l, va, bs)
    | .fault _ => none)
  let s := if lost.isEmpty then s else s.denyEntry e lost
  let s := if go.isEmpty then s else s.releaseEntry e go
  match miss with
  | [] => { s with rq := s.rq.filter (fun x => x.id != e.id) }
  | (_, va, _, c) :: _ =>
    let (s, id) := s.addFault (portCluster e.core) (s.envOf e.key).rcb va e.typeBit (if e.far then 2 else 1) (if e.far then 2 else c)
    { s with rq := s.rq.map (fun x =>
        if x.id = e.id then { x with waits := id, ladle := false, lanes := miss.map (fun (l, va, bs, _) => (l, va, bs)) } else x) }

/-- Drain one entry of the replay queue (R162), unless one of its page that waits for the Ladle stands before it, or it waits
for the Ladle itself. -/
def State.drainEntry (s : State) (e : RqEntry) : State :=
  let env := s.envOf e.key
  let walked := e.lanes.map (fun (l, va, bs) => (l, va, bs, if validVa va then s.waveWalk env.ptroot va else .fault 0))
  let ds := walked.any (fun (_, va, bs, w) => match w with
    | .page p => p.ds && e.allowed va bs p
    | .fault _ => false)
  if s.rqBehind e then s.ladleEntry e
  else if ds && env.deterministic && e.key.ix != 16 && !e.ds then
    match s.dsDrain e with
    | some s => s.drainLanes { e with ds := true } walked
    | none => s.ladleEntry e
  else s.drainLanes e walked

/-- Drain entries in order, each as it stands when its turn comes. -/
def State.drainEach (s : State) (ids : List Nat) : State :=
  ids.foldl (fun s id => match s.rq.find? (fun e => e.id == id) with
    | some e => s.drainEntry e
    | none => s) s

/-- The entries that wait for the Ladle, or behind such an entry, drain in queue order as far as they may. -/
def State.drainLadle (s : State) : State := s.drainEach ((s.rq.filter RqEntry.ladle).map RqEntry.id)

/-- The entries that wait for a record drain in queue order, and what stood behind them. -/
def State.drainQueue (s : State) (rec : Nat) : State :=
  (s.drainEach ((s.rq.filter (fun e => e.awaits rec)).map RqEntry.id)).drainLadle

/-- LADLE_HANDON: the Ladle leaves its holder once the visit is over, and reaches the next waiting wave, whose replay-queue
entries that wait for it then drain (R341, R344). -/
def execLadleHandon (rcb : Nat) (s : State) : Out :=
  match s.region? rcb with
  | none => .next s
  | some r =>
    if !r.env.deterministic then .next s
    else
      match r.ladle.holder with
      | some k => if s.visitOver r k then .next ((s.endVisit r).ladlePass rcb).drainLadle else .next s
      | none => .next (s.ladlePass rcb).drainLadle

/-- The open record of an identifier and class. -/
def State.record? (s : State) (rec cls : Nat) : Option FaultRec := s.faults.find? (fun f => f.id == rec && f.cls == cls)

/-- FAULT_MAP: Trestle writes page-table entries and resumes the waiters of a PAGE record (R161); in host-assisted mode once
it has answered the record's request (R388). -/
def execFaultMap (rec : Nat) (ents : List (Nat × BitVec 64)) (s : State) : Out :=
  match s.record? rec 1 with
  | some _ =>
    if s.plat.dutyReqs.any (fun r => r.fn == 0 && r.a == rec) then .next s
    else .next (((s.writeTables ents).resume rec).drainQueue rec)
  | none => .next s

/-- The PAGE trap of a split that waits for a record, if it does (R161, R394). -/
def Split.denied (e : Split) (rec cause : Nat) : Option Trap :=
  match e.words.find? (fun p => p.waits.any (fun (i, _) => i == rec)) with
  | some p =>
    (p.waits.find? (fun (i, _) => i == rec)).map (fun (_, va) =>
      { cls := clsPAGE, cause := cause, pc := p.at_.pc, slot := p.at_.slot, oslot := p.at_.slot, replay := true
        addr := BitVec.ofNat 64 va, lanes := p.lanes })
  | none =>
    match e.wait with
    | .fetch ws => (ws.find? (fun (i, _) => i == rec)).map (fun (_, va) =>
        { cls := clsPAGE, cause := cause, pc := e.at_.pc, slot := e.at_.slot, oslot := e.at_.slot, replay := false
          addr := BitVec.ofNat 64 va, lanes := e.cur })
    | .none | .join | .exit | .results _ | .yield _ | .yieldSet .. | .rte | .scallRel .. | .scall => none

/-- The waiters of a thread take their PAGE traps: those of the base level first, then those of its level. Outside trap mode the
first that traps makes the level the base level, and the traps of the others are held pending there (R365). -/
def State.denyThread (s : State) (rec cause : Nat) (k : TKey) : State :=
  let one (inBase : Bool) (s : State) (sp : BitVec 2) : State :=
    match s.focus k with
    | none => s
    | some u =>
      let l := if inBase then u.thr.base.map Prod.fst else some u.thr.level
      match l.bind (fun (l : Level) => l.split? sp) with
      | none => s
      | some e =>
        match e.denied rec cause with
        | none => s
        | some t =>
          let free (x : Split) : Split := { x with wait := match x.wait with
            | .fetch _ => .none
            | w => w }
          let u : State := { u with thr :=
            if inBase then { u.thr with base := u.thr.base.map (fun (b, i) => (b.setSplit sp (some (free e)), i)) }
            else { u.thr with level := u.thr.level.setSplit sp (some (free e)) } }
          u.trapAsync sp inBase t
  if (s.focus k).any (fun u => u.thr.base.isSome) then splitSlots.foldl (one false) (splitSlots.foldl (one true) s)
  else splitSlots.foldl (fun s sp => one ((s.focus k).any (fun u => u.thr.base.isSome)) s sp) s

/-- FAULT_DENY: the waiters of a PAGE record take PAGE traps, its replay-queue entries are discarded (R161, R363). -/
def execFaultDeny (rec : Nat) (s : State) : Out :=
  match s.record? rec 1 with
  | some r =>
    let entries := s.rq.filter (fun e => e.awaits rec)
    let keys := s.allThreads.map Thread.key
    let s : State := { s with rq := s.rq.filter (fun e => !e.awaits rec) }
    let s := entries.foldl (fun s e => s.denyEntry e e.lanes) s
    let s := keys.foldl (fun s k => s.denyThread rec r.cause k) s
    let s : State := { s with
      draws := s.draws.map (fun d => if d.waits.any (fun (i, _) => i == rec) then { d with denied := true } else d)
      clusters := s.clusters.map (fun c => { c with hamper := c.hamper.map (fun o =>
        if o.waits.any (fun (i, _) => i == rec) then { o with denied := r.va :: o.denied } else o) })
      flights := s.flights.map (fun f => { f with
        todo := f.todo.filter (fun a => a.wait != some rec)
        denied := f.denied ++ (f.todo.filter (fun a => a.wait == some rec)).map (fun a => (a.lane, a.va, r.cause)) }) }
    .next (s.resume rec).drainLadle
  | none => .next s

/-- The sectors of the unfinished lanes of a record (R165). -/
def State.farSectors (s : State) (rec : Nat) : List Nat :=
  s.flights.flatMap (fun f => (f.todo.filter (fun a => a.wait == some rec)).flatMap (fun a =>
    if f.work.isRay then [sectorOf a.pa, sectorOf a.pa + 1] else [sectorOf a.pa])) ++
  s.draws.flatMap (fun d => (d.waits.filter (fun (i, _) => i == rec)).map (fun (_, pa, _) => sectorOf pa)) ++
  s.clusters.flatMap (fun c => c.hamper.flatMap (fun o =>
    (o.waits.filter (fun (i, _) => i == rec)).map (fun (_, pa, _) => sectorOf pa))) ++
  (s.rq.filter (fun e => e.awaits rec)).flatMap (fun e =>
    let root := ((s.group? e.key.wg).map (fun g => g.env.ptroot)).getD 0
    e.lanes.flatMap (fun (_, va, bs) => match s.pageAt root va with
      | some p => (List.range ((p.pa + bs.length - 1) / 32 + 1 - p.pa / 32)).map (fun i => p.pa / 32 + i)
      | none => []))

/-- FAULT_POISON: Trestle poisons the sectors of a FAR record's lanes, discards its replay-queue entries and resumes the
waiters (R165). -/
def execFaultPoison (rec : Nat) (s : State) : Out :=
  match s.record? rec 2 with
  | some _ =>
    let s := (s.farSectors rec).dedup.foldl State.poisonSector s
    .next (({ s with rq := s.rq.filter (fun e => !e.awaits rec) } : State).resume rec).drainLadle
  | none => .next s

/-- FAULT_RETRY: Trestle resumes the waiters of a FAR record (R165). -/
def execFaultRetry (rec : Nat) (s : State) : Out :=
  match s.record? rec 2 with
  | some _ => .next ((s.resume rec).drainQueue rec)
  | none => .next s

/-! ## Far memory (R164, R165) -/

/-- The flight reads memory and writes none: the L2 serves it where it holds the line (R164). -/
def Work.readsOnly : Work → Bool
  | .load .. | .ray .. => true
  | .atomic _ | .estAdd _ | .estMerge | .estGen | .estLoad _ | .cmpTerm | .cmpFlush | .cmpClear _ | .cmpLoad | .crep | .format |
    .result => false

/-- The lane is a request outstanding on an expander: it is not served by the L2, and it has not completed as UNREACHABLE. -/
def State.atExpander (s : State) (f : Flight) (a : LaneAcc) : Bool :=
  a.page.type == .far && a.wait.isNone && !(f.work.readsOnly && s.l2.any (fun l => l.line == a.pa / 256))

/-- The lanes of a flight that are outstanding on an expander and satisfy `p` complete as UNREACHABLE: the word is parked for a
FAR record of each block, which counts it once (R159, R165). -/
def State.flightUnreachable (s : State) (id : Nat) (p : LaneAcc → Bool) : State :=
  match s.flight? id with
  | none => s
  | some f =>
    let type := match f.work with
      | .atomic _ => 2
      | .load .. | .estAdd _ | .estMerge | .estGen | .estLoad _ | .cmpTerm | .cmpFlush | .cmpClear _ | .cmpLoad |
        .crep | .ray .. | .format | .result => 0
    let cl := portCluster (s.portOf f.key)
    let gone (a : LaneAcc) : Bool := s.atExpander f a && p a
    (faultBlocks ((f.todo.filter gone).map (fun a => (a.va, 2)))).foldl (fun t (va, _) =>
      let (t, rec) := match f.todo.find? (fun a => a.wait.isSome && blockOf a.va == blockOf va) with
        | some a => (t, a.wait.getD 0)
        | none => t.addFault cl (t.envOf f.key).rcb va type 2 2
      t.modFlight id (fun g => { g with todo := g.todo.map (fun b =>
        if gone b && blockOf b.va == blockOf va then { b with wait := some rec } else b) })) s

/-- A store on its way to an expander completes as UNREACHABLE: its bytes enter the replay queue, with those of its word's
other sectors of the block in one entry, which counts once in a FAR record (R159, R162, R165). With no entry free it stays where
it is until one frees (log entry 57). -/
def State.storeUnreachable (s : State) (e : WqEntry) : State :=
  let lanes := e.bytes.map (fun (o, b) => (0, e.va + o, [b]))
  let rest := s.wq.filter (fun x => x.id != e.id)
  match s.rq.find? (fun x => x.key == e.key && x.op == e.op && x.page == blockOf e.va && x.far && x.work.isNone) with
  | some x => { s with wq := rest, rq := s.rq.map (fun y => if y.id = x.id then { y with lanes := y.lanes ++ lanes } else y) }
  | none =>
    if 32 ≤ s.rq.countP (fun x => x.core == e.core) then
      { s with wq := s.wq.map (fun x => if x.id = e.id then { x with stuck := true } else x) }
    else
      let (s, rec) := s.addFault (portCluster e.core) (s.envOf e.key).rcb e.va 1 2 2
      { s with
        nextId := s.nextId + 1
        wq := rest
        rq := s.rq ++ [⟨s.nextId, e.op, e.core, e.key, e.sp, (s.thread? e.key).any (fun t => t.base.isSome), blockOf e.va, true,
          none, e.whole, e.hint, e.ds, lanes, rec, false⟩] }

/-- A store's sector is a request outstanding on an expander: it has been sent, and not acknowledged. -/
def WqEntry.atExpander (e : WqEntry) : Bool := e.type == .far && e.stage != .queued && !e.stuck

/-- The time of a store's request has run out (R391): of one that was sent, or of one that goes out to a port whose link is
down. -/
def State.storeTimedOut (s : State) (e : WqEntry) : Bool :=
  (e.atExpander || (e.type == .far && e.stage == .queued && !s.portUp (32 * e.sector) && s.storeReady e)) &&
    decide (e.due ≤ s.time)

/-- FAR_TIMEOUT: the requests of a word that have waited for the time of their port, as it stood when they went out, complete as
UNREACHABLE (R165, R391); so does a store that waits for a replay-queue entry, once there is one. -/
def execFarTimeout (store : Bool) (core id : Nat) (s : State) : Out :=
  if store then
    match s.wq.find? (fun e => e.core == core && e.id == id) with
    | some e => if e.stuck || s.storeTimedOut e then .next (s.storeUnreachable e) else .next s
    | none => .next s
  else .next (s.flightUnreachable id (fun a => decide (a.due ≤ s.time)))

/-- CXL_LINK_LOSS: every request outstanding on the port completes as UNREACHABLE; LINK falls, DOWN rises (R165, R391). -/
def execCxlLinkLoss (port : Bool) (s : State) : Out :=
  let s := (s.flights.map Flight.id).foldl (fun s id => s.flightUnreachable id (fun a => cxlPort a.pa == port)) s
  let s := (s.wq.filter (fun e => e.atExpander && cxlPort (32 * e.sector) == port)).foldl State.storeUnreachable s
  let lose (p : CxlPort) : CxlPort := { p with link := false, down := true }
  .next { s with plat :=
    if port then { s.plat with cxl1 := lose s.plat.cxl1 } else { s.plat with cxl0 := lose s.plat.cxl0 } }

/-! ## Poison (R166, R397) -/

/-- POISON_TRAP_DEFERRED: a split takes a POISON trap that arose after later groups had issued (R397). -/
def execPoisonTrapDeferred (t : TKey) (sp : BitVec 2) (s : State) : Out :=
  .next (s.forSplit t sp (fun u e =>
    match e.due with
    | some x => if x.cls = clsPOISON ∧ u.running u.thr then u.takeDue sp e x else s
    | none => s))

/-- Poison a sector of a cluster's CLM; in a FIFO bank, the entries that stand there. -/
def Cluster.clmPoison (c : Cluster) (a : Nat) : Cluster :=
  let b := a / 65536
  if (c.banks[b]?.map Bank.mode).getD 0 = 2 then
    let i := a % 65536 / 32 * 8
    c.setFifo b ((List.range (c.fifo b).length).zip (c.fifo b) |>.map (fun (j, x, p) => (x, p || decide (i ≤ j ∧ j < i + 8))))
  else { c with poison := if c.poison.contains (a / 32) then c.poison else (a / 32) :: c.poison }

/-- SOFT_ERROR: an uncorrectable error poisons a sector, of memory or of a cluster's CLM (R166). -/
def execSoftError (clm : Option Nat) (addr : Nat) (s : State) : Out :=
  match clm with
  | some c => if c < 160 ∧ addr < 2 ^ 21 then .next (s.modCluster c (fun k => k.clmPoison addr)) else .fault .physicalHole
  | none => if inMap s.plat.win.toNat addr then .next (s.poisonSector (sectorOf addr)) else .fault .physicalHole

end Sys2Proof.Machine
end

