-- ==== Sys2Proof/Machine/Composite.lean ====
section
/-! DEFINITION. CMPS: sending terms, reading, flushing, clearing and replaying CMP words, binding slots (R223 to R238). -/

namespace Sys2Proof.Machine

/-! ## Words that update (R226, R232, R233, R235) -/

/-- A word whose lanes send updates to CMP words (R235): `data` gives a lane's words. -/
def cmpSend (work : Work) (p : BitVec 5) (a : Reg) (h : BitVec 2) (data : Nat → List Word) (s : State) : State :=
  s.accessQueue .cmpAdd 32 32 5 (some work) false false h noExtra (fun l => bytesOfWords (data l)) (s.vecReqs p a)
    (fun (s : State) ds go => s.fly { s.newFlight work 0 false 0 0 h (s.laneAccs go data) [] with ds := ds })

/-- CMPT: a depth, an opacity and a colour (R226). -/
def execCmpt (d a : Reg) (p : BitVec 5) (h : BitVec 2) (s : State) : Out :=
  .next (cmpSend .cmpTerm p a h (s.laneData d.toNat 5) s)

/-- CFLUSH: every buffered entry folds (R232). -/
def execCflush (a : Reg) (p : BitVec 5) (h : BitVec 2) (s : State) : Out := .next (cmpSend .cmpFlush p a h (fun _ => []) s)

/-- CCLR: the cleared state under ctl.cslot (R233). -/
def execCclr (a : Reg) (p : BitVec 5) (h : BitVec 2) (s : State) : Out :=
  .next (cmpSend (.cmpClear s.src.ctl.cslot) p a h (fun _ => []) s)

/-- CLDA: fold what is buffered, then read the word (R232). -/
def execClda (d a : Reg) (p : BitVec 5) (h : BitVec 2) (s : State) : Out :=
  .next (s.accessPark .cmpRead 32 32 false 5 noExtra (s.vecReqs p a)
    (fun (s : State) _ go => s.fly (s.newFlight .cmpLoad 0 false d.toNat 5 h (s.laneAccs go (fun _ => [])) [])))

/-- A record lies on a normal page that may be written (R235). -/
def recordNormal (_ _ : Nat) (p : Page) : Bool := p.type == .normal

/-- CREP: gradients through one record (R231). -/
def execCrep (d a : Reg) (p : BitVec 5) (h : BitVec 2) (s : State) : Out :=
  .next (s.accessPark .store 64 64 true 5 recordNormal (s.vecReqs p a)
    (fun (s : State) ds go =>
      let s := go.foldl (fun s (_, _, pg) => s.unvalid s.myCluster pg.pa 64) s
      s.fly { s.newFlight .crep 0 false d.toNat 5 h (s.laneAccs go (s.laneData d.toNat 4)) [] with ds := ds }))

/-! ## At the home slice -/

/-- The term of a lane. -/
def termOf (data : List Word) : Term :=
  let w (i : Nat) : Word := data[i]?.getD 0
  ⟨w 0, w 1, w 2, w 3, w 4⟩

/-- One lane's update of its word (R226, R232, R233). -/
def State.applyCmp (s : State) (work : Work) (a : LaneAcc) : State :=
  match work with
  | .cmpTerm => s.acceptTerm a.pa a.page.ds (termOf a.data)
  | .cmpFlush => s.foldAll a.pa
  | .cmpClear slot => s.clearCmp a.pa slot
  | .load .. | .atomic _ | .estAdd _ | .estMerge | .estGen | .estLoad _ | .cmpLoad | .crep | .ray .. | .format | .result => s

/-- The flight updates CMP words. -/
def Work.isCmp : Work → Bool
  | .cmpTerm | .cmpFlush | .cmpClear _ => true
  | .load .. | .atomic _ | .estAdd _ | .estMerge | .estGen | .estLoad _ | .cmpLoad | .crep | .ray .. | .format | .result => false

/-- CMP_TERM_ARRIVE: an update reaches its Crucible, with those of the same instruction to that word, in lane order, in
consecutive clocks (R192, R227, R237, R241). -/
def execCmpTermArrive (id lane : Nat) (s : State) : Out :=
  match s.flight? id with
  | none => .next s
  | some f =>
    match f.todo.find? (fun a => a.lane == lane) with
    | none => .next s
    | some a =>
      if !f.work.isCmp || s.behind f a || s.behindStore f a then .next s
      else
        let here := f.at? a.pa
        let s := ((List.range here.length).zip here).foldl (fun (t : State) (i, b) =>
          (({ t with clock := s.clock + i } : State).touchL2 (s.envOf f.key) b.pa f.hint false).applyCmp f.work b) s
        .next (s.modFlight id (fun f => { f with todo := f.todo.filter (fun b => b.pa != a.pa) })).sweepFlights

/-- dot of R231: g[B] × v[B] added to g[G] × v[G] added to g[R] × v[R]. -/
def dot3 (g0 g1 g2 v0 v1 v2 : Word) : Word := fma32 g2 v2 (fma32 g1 v1 (mul32 g0 v0))

/-- The sign of a value changed. -/
def negate32 (x : Word) : Word := if isNan32 x then x else x ^^^ 0x80000000

/-- What CREP makes of a record and the gradients: GALPHA and GC, then the lane's registers (R231). -/
def replayRecord (b : List Byte) (g : List Word) : List Word × List Word :=
  let r (i : Nat) : Word := wordAt b (4 * i)
  let al := r 3
  let c0 := r 4
  let c1 := r 5
  let c2 := r 6
  let tb := r 7
  let g0 := g[0]?.getD 0
  let g1 := g[1]?.getD 0
  let g2 := g[2]?.getD 0
  let gT := g[3]?.getD 0
  let om := sub32 0x3F800000 al
  let q := mul32 gT tb
  if (r 1).getLsbD 0 then
    let d0 := sub32 c0 (r 8)
    let d1 := sub32 c1 (r 9)
    let d2 := sub32 c2 (r 10)
    ([sub32 (dot3 g0 g1 g2 d0 d1 d2) q, mul32 al g0, mul32 al g1, mul32 al g2],
     [mul32 om g0, mul32 om g1, mul32 om g2, mul32 om gT, r 0])
  else
    let a := mul32 tb al
    let dc := dot3 g0 g1 g2 c0 c1 c2
    ([fma32 tb dc (negate32 q), mul32 g0 a, mul32 g1 a, mul32 g2 a],
     [g0, g1, g2, fma32 gT om (mul32 al dc), r 0])

/-- One lane's CREP at the home of its record (R231, R236). -/
def State.applyCrep (s : State) (f : Flight) (a : LaneAcc) : State :=
  let env := s.envOf f.key
  let s := s.touchL2 env a.pa f.hint false
  if s.poisoned a.pa 64 then s.performedBad f.id a [0x7FC00000, 0x7FC00000, 0x7FC00000, 0x7FC00000, 0xFFFFFFFF]
  else
    let (grads, regs) := replayRecord (s.homeRead a.pa 64) a.data
    let s := (s.engineWrite (a.pa + 44) (bytesOfWords grads)).l2Write env (a.pa + 44) 16 f.hint false
    let port := s.portOf f.key
    ((s.unvalid (portCluster port) a.pa 64).dropScalar port a.pa 64).performed f.id a.lane regs

/-- An update that returns a value may be applied: nothing of its thread stands before it, every earlier load and atomic of its
thread has read its value, and so has every lower lane of its word that does not wait for an expander (R142, R169, R193, R231). -/
def State.updateReady (s : State) (f : Flight) (a : LaneAcc) : Bool :=
  a.gated.isNone && a.wait.isNone && !s.behind f a && !s.behindStore f a && s.loadsBefore f.key f.op &&
    !f.todo.any (fun b => decide (b.lane < a.lane) && b.wait.isNone) && s.reaches a.page f.work.size false

/-- One lane's atomic or CREP at its home slice, if it may be applied. -/
def State.applyLane (s : State) (f : Flight) (a : LaneAcc) : State :=
  if !s.updateReady f a then s
  else
    match f.work with
    | .atomic fn => s.arriveAtomic f a fn
    | .crep => s.applyCrep f a
    | .load .. | .estAdd _ | .estMerge | .estGen | .estLoad _ | .cmpTerm | .cmpFlush | .cmpClear _ | .cmpLoad | .ray .. | .format
    | .result => s

/-- ATOMIC_APPLY: a lane's atomic, or its CREP, reaches its home slice with those of the lanes that share its request, in
ascending order (R142, R150, R231). -/
def execAtomicApply (id lane : Nat) (s : State) : Out :=
  let mates := ((s.flight? id).map (fun f => f.mates ((1 : Mask) <<< lane))).getD []
  let s := mates.foldl (fun s a =>
    match s.flight? id with
    | some f => s.applyLane f a
    | none => s) s
  .next s.sweepFlights

/-! ## CBIND (R222, R223) -/

/-- The fields of a descriptor lie inside R222. -/
def slotOk (b : List Byte) : Bool :=
  let f := fieldAt b
  let tau := wordAt b 0
  !isNan32 tau && less32 0 tau && !less32 0x3F800000 tau && decide (f 4 4 ≤ 1023) && f 8 8 % 64 == 0 &&
    decide (f 16 4 ≤ 20) && f 20 4 / 2 == 0 && f 24 40 == 0

/-- CBIND: load a descriptor into a compositing slot (R223). The descriptor is read from a page of any type, and every slice and
ctl.cslot have the new version from the issue on, before the result returns: the spec states neither (log entry 121). -/
def execCbind (d a : Reg) (p : BitVec 5) (s : State) : Out :=
  if !s.thr.env.cmpGrant then .next (s.trapWord clsPROT 3)
  else
    let k := s.rdS d
    if 63 < k.toNat then .next (s.flyScalars 0 d [0x80000005])
    else
      match s.readBlock (s.eaS p a).toNat 64 64 noExtra with
      | .stop s => .next s
      | .bytes s _ b =>
        if !slotOk b then .next (s.flyScalars 0 d [0x80000002])
        else
          let slot : CmpSlot :=
            { tau := wordAt b 0, hold := fieldAt b 4 4, logBase := fieldAt b 8 8, segLog := fieldAt b 16 4
              lflags := BitVec.ofNat 8 (fieldAt b 20 4), root := s.thr.env.ptroot, cursors := [] }
          let thr := { s.thr with ctl := { s.thr.ctl with cslot := k.extractLsb' 0 6 } }
          .next (({ s with slots := s.slots.setIfInBounds k.toNat slot, thr := thr } : State).flyScalars 0 d [0])

end Sys2Proof.Machine
end

