-- ==== Sys2Proof/Machine/Sampler.lean ====
section
/-! DEFINITION. The sampler: texture descriptors, filters, the latent decoder, decoder-table slots, the SMP and DTB words
(R242 to R261). -/

namespace Sys2Proof.Machine

/-! ## Descriptors (R242, R243) -/

/-- A texture descriptor. -/
structure Tex where
  base   : Nat
  width  : Nat
  height : Nat
  levels : Nat
  fmt    : Nat
  umode  : Nat
  vmode  : Nat
  aniso  : Nat
  dslot  : Nat
  soft   : Bool
  clamp  : Bool
  border : List Word
  deriving DecidableEq, Repr

/-- FP16 widened exactly (R242). -/
def widen16 (h : Nat) : Word := valTo32 (FFmt.fp16.read (BitVec.ofNat 32 h))

/-- A descriptor from its 64 bytes; none when it breaks R242. -/
def Tex.ofBytes (b : List Byte) : Option Tex :=
  let f := fieldAt b
  let w := f 8 4
  let h := f 12 4
  let ok := f 0 8 % 256 == 0 && decide (1 ≤ w ∧ w ≤ 65536 ∧ 1 ≤ h ∧ h ≤ 65536) &&
    decide (1 ≤ f 16 1 ∧ f 16 1 ≤ 1 + Nat.log2 (max w h)) && decide (f 17 1 ≤ 4) && f 18 1 / 16 == 0 &&
    decide (1 ≤ f 19 1 ∧ f 19 1 ≤ 8) && (f 17 1 == 4 || f 20 1 == 0) && f 21 1 / 4 == 0 && f 22 2 == 0 && f 32 32 == 0
  if ok then
    some
      { base := f 0 8, width := w, height := h, levels := f 16 1, fmt := f 17 1, umode := f 18 1 % 4
        vmode := f 18 1 / 4 % 4, aniso := f 19 1, dslot := f 20 1, soft := f 21 1 % 2 == 1, clamp := f 21 1 / 2 % 2 == 1
        border := (List.range 4).map (fun i => widen16 (f (24 + 2 * i) 2)) }
  else none

/-- The width of level k. -/
def Tex.w (t : Tex) (k : Nat) : Nat := max 1 (t.width >>> k)

/-- The height of level k. -/
def Tex.h (t : Tex) (k : Nat) : Nat := max 1 (t.height >>> k)

/-- The bytes of a texel, or of a block. -/
def Tex.bytes (t : Tex) : Nat :=
  match t.fmt with
  | 0 => 4
  | 1 => 2
  | 2 => 8
  | 3 => 4
  | _ => 16

/-- Columns and rows of units (texels or blocks) of level k. -/
def Tex.grid (t : Tex) (k : Nat) : Nat × Nat :=
  if t.fmt = 4 then ((t.w k + 3) / 4, (t.h k + 3) / 4) else (t.w k, t.h k)

/-- The pitch of level k. -/
def Tex.pitch (t : Tex) (k : Nat) : Nat := ((t.grid k).1 * t.bytes + 255) / 256 * 256

/-- Where level k starts. -/
def Tex.start (t : Tex) (k : Nat) : Nat := (List.range k).foldl (fun a j => a + t.pitch j * (t.grid j).2) t.base

/-- The address of the unit that holds texel (i, j) of level k. -/
def Tex.addr (t : Tex) (k i j : Nat) : Nat :=
  let (x, y) := if t.fmt = 4 then (i / 4, j / 4) else (i, j)
  (t.start k + y * t.pitch k + x * t.bytes) % 2 ^ 64

/-- An index under an address mode; none for the border (R243). -/
def addrMode (mode : Nat) (i : Int) (n : Nat) : Option Nat :=
  match mode with
  | 0 => some (i % n).toNat
  | 1 => some (min (max i 0) (n - 1)).toNat
  | 2 => let p := (i % (2 * n)).toNat; some (if p < n then p else 2 * n - 1 - p)
  | _ => if 0 ≤ i ∧ i < n then some i.toNat else none

/-! ## Which texels a lane reads (R244, R245) -/

/-- A texel that a lane reads: level, column, row; or the border. -/
inductive Tap where
  | border
  | texel (k i j : Nat)
  deriving DecidableEq, Repr

/-- A tap at integer indices. -/
def Tex.tap (t : Tex) (k : Nat) (i j : Int) : Tap :=
  match addrMode t.umode i (t.w k), addrMode t.vmode j (t.h k) with
  | some x, some y => .texel k x y
  | _, _ => .border

/-- A coordinate made finite (R244). -/
def finiteCoord (x : Word) : Rat :=
  match FFmt.fp32.read x with
  | .nan | .zero _ => 0
  | .inf n => if n then -65536 else 65536
  | .fin q => if q < -65536 then -65536 else if 65536 < q then 65536 else q

/-- A coordinate made finite, as an FP32 value. -/
def finiteWord (x : Word) : Word :=
  match FFmt.fp32.read x with
  | .nan => 0
  | .inf n => if n then 0xC7800000 else 0x47800000
  | .zero _ => x
  | .fin q => if q < -65536 then 0xC7800000 else if 65536 < q then 0x47800000 else x

/-- λ in 256ths (R244). -/
def Tex.lq (t : Tex) (lam : Word) : Nat := (min (max (finiteCoord lam * 256).floor 0) (256 * (t.levels - 1 : Nat))).toNat

/-- The nearest level (R244). -/
def Tex.lev (t : Tex) (lam : Word) : Nat := min ((t.lq lam + 128) / 256) (t.levels - 1)

/-- The fixed-point position of a bilinear read along one axis: index and 8-bit fraction (R244). -/
def bilPos (u : Rat) (n : Nat) : Int × Nat :=
  let x := (u * n * 256).floor - 128
  (x / 256, (x % 256).toNat)

/-- The taps of a bilinear read. -/
def Tex.bilTaps (t : Tex) (u v : Rat) (k : Nat) : List Tap :=
  let i := (bilPos u (t.w k)).1
  let j := (bilPos v (t.h k)).1
  [t.tap k i j, t.tap k (i + 1) j, t.tap k i (j + 1), t.tap k (i + 1) (j + 1)]

/-- The weights of a bilinear read (R244). -/
def Tex.bilWeights (t : Tex) (u v : Rat) (k : Nat) : List Word :=
  let x := (bilPos u (t.w k)).2
  let y := (bilPos v (t.h k)).2
  [(256 - x) * (256 - y), x * (256 - y), (256 - x) * y, x * y].map (fun n => fp32Of (mkRat n 65536))

/-- The coordinates of tap t of an anisotropic read (R245). A sum that is not finite, or beyond 65,536 either way, is made finite
as u and v are: R244 says so of the operands, and nothing is said of the sums (log entry 122). -/
def Tex.anisoAt (t : Tex) (op : List Word) (i : Nat) : Rat × Rat :=
  let g (n : Nat) : Word := op[n]?.getD 0
  let d := fp32Of (mkRat (2 * (i : Int) + 1 - t.aniso) (2 * t.aniso))
  (finiteCoord (fma32 d (g 3) (finiteWord (g 0))), finiteCoord (fma32 d (g 4) (finiteWord (g 1))))

/-- The lower level of a trilinear read and its fraction (R245). -/
def Tex.tri (t : Tex) (lam : Word) : Nat × Nat :=
  let l := t.lq lam
  (l / 256, if l / 256 = t.levels - 1 then 0 else l % 256)

/-- The taps of a lane, in the order in which they are combined; `fn` is the word's FN (R252). -/
def Tex.taps (t : Tex) (fn : Nat) (op : List Word) : List Tap :=
  let g (n : Nat) : Word := op[n]?.getD 0
  let u := finiteCoord (g 0)
  let v := finiteCoord (g 1)
  match fn with
  | 0 => [t.tap (t.lev (g 2)) (u * t.w (t.lev (g 2))).floor (v * t.h (t.lev (g 2))).floor]
  | 1 => t.bilTaps u v (t.lev (g 2))
  | 2 =>
    let (k, f) := t.tri (g 2)
    t.bilTaps u v k ++ (if f = 0 then [] else t.bilTaps u v (k + 1))
  | 3 => (List.range t.aniso).flatMap (fun i => let (x, y) := t.anisoAt op i; t.bilTaps x y (t.lev (g 2)))
  | 4 => t.bilTaps u v (t.lev (g 2))
  | 7 => []
  | _ =>
    let i := (g 0).toNat
    let j := (g 1).toNat
    let k := (g 2).toNat
    if k < t.levels ∧ i < t.w k ∧ j < t.h k then [.texel k i j] else [.border]

/-- A weighted sum of texels, channel by channel (R245). -/
def weigh (ws : List Word) (ts : List (List Word)) : List Word :=
  (List.range 4).map (fun c => (ws.zip ts).foldl (fun acc (w, t) => fma32 w (t[c]?.getD 0) acc) 0)

/-- The registers that a lane writes, from its texels (R245, R252). -/
def Tex.combine (t : Tex) (fn : Nat) (op : List Word) (ts : List (List Word)) : List Word :=
  let g (n : Nat) : Word := op[n]?.getD 0
  let u := finiteCoord (g 0)
  let v := finiteCoord (g 1)
  match fn with
  | 1 => weigh (t.bilWeights u v (t.lev (g 2))) ts
  | 2 =>
    let (k, f) := t.tri (g 2)
    let b0 := weigh (t.bilWeights u v k) (ts.take 4)
    if f = 0 then b0
    else
      let b1 := weigh (t.bilWeights u v (k + 1)) (ts.drop 4)
      (b1.zip b0).map (fun (x, y) => fma32 (fp32Of (mkRat f 256)) x (mul32 (fp32Of (mkRat (256 - f : Nat) 256)) y))
  | 3 =>
    let tap (i : Nat) : List Word :=
      let (x, y) := t.anisoAt op i
      weigh (t.bilWeights x y (t.lev (g 2))) ((ts.drop (4 * i)).take 4)
    let sum := (List.range (t.aniso - 1)).foldl (fun s i => (s.zip (tap (i + 1))).map (fun (x, y) => add32 x y)) (tap 0)
    sum.map (fun x => mul32 x (fp32Of (mkRat 1 t.aniso)))
  | 4 => ts.map (fun x => x[(g 3).toNat % 4]?.getD 0)
  | 7 =>
    let k := (g 0).toNat
    let (w, h) := if k < t.levels then (t.w k, t.h k) else (0, 0)
    [BitVec.ofNat 32 w, BitVec.ofNat 32 h, BitVec.ofNat 32 t.levels, BitVec.ofNat 32 (t.fmt + 256 * t.dslot)]
  | _ => ts.headD [0, 0, 0, 0]

/-! ## The latent decoder (R246 to R248) -/

/-- The product of an E4M3 weight and an E5M3 scale, exact in FP32 (R248). -/
def weightOf (w s : Byte) : Word :=
  match fineScale (s.zeroExtend 32) with
  | none => FFmt.fp32.canon
  | some q =>
    match mulVal (FFmt.e4m3.read (w.zeroExtend 32)) (if q = 0 then .zero false else .fin q) with
    | some v => valTo32 v
    | none => FFmt.fp32.canon

/-- One byte of a table. -/
def tableByte (tb : List Byte) (i : Nat) : Byte := tb[i]?.getD 0

/-- One neuron: its weights from `w`, its bias at `b`, its layer's scale (R248). -/
def neuron (tb : List Byte) (w b : Nat) (scale : Byte) (xs : List Word) : Word :=
  ((List.range xs.length).zip xs).foldl (fun acc (i, x) => fma32 (weightOf (tableByte tb (w + i)) scale) x acc)
    (widen16 (fieldAt tb b 2))

/-- relu of R248. -/
def relu (a : Word) : Word :=
  match FFmt.fp32.read a with
  | .fin x => if 0 < x then a else 0
  | .inf n => if n then 0 else a
  | .nan | .zero _ => 0

/-- An output in FP16 (R248). -/
def latentOut (clamp : Bool) (o : Word) : Nat :=
  let h : Word := match FFmt.fp32.read o with
    | .nan => 0x7E00
    | .inf n => if n then 0xFBFF else 0x7BFF
    | .zero n => if n then 0x8000 else 0
    | .fin x => (roundTo x .fp16 .rne true 0).v
  let c : Word := match FFmt.fp16.read h with
    | .nan => 0
    | .zero _ => 0
    | .inf n => if n then 0 else 0x3C00
    | .fin x => if x < 0 then 0 else if 1 < x then 0x3C00 else h
  (if clamp then c else h).toNat % 65536

/-- The inputs of texel (a, b) of a block (R246). -/
def latentInputs (blk : List Byte) (a b : Nat) : List Word :=
  let s := BitVec.ofNat 32 (fieldAt blk 14 2 % 1024)
  (List.range 14).map (fun k => (dequantBlockAs .e4m3 .rne 0 ((tableByte blk k).zeroExtend 32) s).v) ++
    [fp32Of (mkRat (2 * a + 1 : Nat) 8), fp32Of (mkRat (2 * b + 1 : Nat) 8)]

/-- A texel decoded, widened (R248). -/
def decodeLatent (tb blk : List Byte) (clamp : Bool) (a b : Nat) : List Word :=
  let x := latentInputs blk a b
  let h1 := (List.range 32).map (fun n => relu (neuron tb (64 + 16 * n) (1728 + 2 * n) (tableByte tb 24) x))
  let h2 := (List.range 32).map (fun n => relu (neuron tb (576 + 32 * n) (1792 + 2 * n) (tableByte tb 25) h1))
  (List.range 4).map (fun n =>
    if n = 3 ∧ fieldAt tb 6 2 % 2 = 1 then 0x3F800000
    else widen16 (latentOut clamp (neuron tb (1600 + 32 * n) (1856 + 2 * n) (tableByte tb 26) h2)))

/-- An RGBA8 byte as FP32 (R242). -/
def unorm8 (b : Byte) : Word :=
  if b = 0 then 0 else if b = 255 then 0x3F800000 else fp32Of (mkRat b.toNat 255)

/-- The channels of a texel from its bytes; LATENT through its table, or raw for SFET (R242, R252). -/
def Tex.channels (t : Tex) (raw : Bool) (tb bs : List Byte) (i j : Nat) : List Word :=
  match t.fmt with
  | 0 => [wordAt bs 0, 0, 0, 0x3F800000]
  | 1 => [widen16 (fieldAt bs 0 2), 0, 0, 0x3F800000]
  | 2 => (List.range 4).map (fun c => widen16 (fieldAt bs (2 * c) 2))
  | 3 => (List.range 4).map (fun c => unorm8 (tableByte bs c))
  | _ => if raw then (List.range 4).map (fun c => wordAt bs (4 * c)) else decodeLatent tb bs t.clamp (i % 4) (j % 4)

/-! ## The caches (R249, R256, R260) -/

/-- Bytes of a line through the core's sampler cache: a hit makes the line the latest, a miss fills it from its home and
replaces the least recently used line of a full set. None on a poisoned sector; such a line is not kept. -/
def State.samplerRead (s : State) (pa n : Nat) (hint : BitVec 2) : State × Option (List Byte) :=
  let core := s.thr.core
  let line := pa / 64
  let ls := (s.coreOf core).sampler
  let put (s : State) (l : RoLine) : State :=
    let rest := ls.filter (fun x => x.line != line)
    let set := rest.filter (fun x => x.line % 64 == line % 64)
    let rest := match (if 16 ≤ set.length then set.getLast? else none) with
      | some v => rest.filter (fun x => x.line != v.line)
      | none => rest
    s.modCore core (fun c => { c with sampler := l :: rest })
  match ls.find? (fun l => l.line == line) with
  | some l => (put s l, some ((l.bytes.drop (pa % 64)).take n))
  | none =>
    let s := s.touchL2 s.thr.env pa hint false
    if s.poisoned pa n then (s, none)
    else
      let bytes := s.homeRead (64 * line) 64
      (if s.poisoned (64 * line) 64 then s else put s ⟨line, bytes⟩, some ((bytes.drop (pa % 64)).take n))

/-- The slot as it stands. -/
def State.captureSlot (s : State) (k : Nat) : Capture :=
  match s.tables[k]? with
  | some x => ⟨k, x.bound, x.addr, x.gen.toNat⟩
  | none => ⟨k, false, 0, 0⟩

/-- The core's cached table of a slot and generation. -/
def State.tableHit (s : State) (slot gen : Nat) : Option (List Byte) :=
  ((s.coreOf s.thr.core).tables.find? (fun (a, b, _) => a == slot && b == gen)).map (fun (_, _, bs) => bs)

/-- The core keeps a table, latest first, 8 at most (R249; log entry 45). -/
def State.keepTable (s : State) (slot gen : Nat) (bs : List Byte) : State :=
  s.modCore s.thr.core (fun c =>
    { c with tables := ((slot, gen, bs) :: c.tables.filter (fun (a, b, _) => !(a == slot && b == gen))).take 8 })

/-! ## A sampling word (R253 to R255) -/

/-- The registers from `a` that a lane's operands fill, by FN. -/
def smpOperands (fn : Nat) : Nat :=
  match fn with
  | 3 => 5
  | 4 => 4
  | 7 => 1
  | _ => 3

/-- Every active lane gets the same four values. -/
def State.smpAll (s : State) (d : Reg) (x : Word) : State :=
  s.flyRead 1 true d.toNat 4 ((lanesIn s.active).flatMap (fun l => (List.range 4).map (fun i => (l, i, x)))) []

/-- Every active lane met poison at an address (R255). -/
def State.smpPoison (s : State) (d : Reg) (va : Nat) : State :=
  if s.thr.env.propagate then s.smpAll d 0x7FC00000
  else s.flyRead 1 true d.toNat 4 [] ((lanesIn s.active).map (fun l => (l, va)))

/-- What a sampling word has read by address: texels or blocks (R256). -/
abbrev Texels := List (Nat × List Byte)

/-- The split parks at a sampling word on some lanes (R253), which keeps what it captured and read. -/
def State.smpPark (s : State) (cap : Option Capture) (texels : Texels) (lanes : Mask) (miss : List (Nat × Nat × Nat)) : State :=
  let (s, waits) := s.missFaults miss 6
  s.parkAt { s.parkedHere with lanes := lanes, cap := cap, texels := texels, waits := waits }

/-- The texels of a lane, each read once in the word: none when one of them meets poison, at the address given (R255, R256). -/
def State.readTaps (s : State) (t : Tex) (raw : Bool) (tb : List Byte) (h : BitVec 2) (seen : Texels) :
    List Tap → List (List Word) → State × Texels × (List (List Word) ⊕ Nat)
  | [], acc => (s, seen, .inl acc)
  | .border :: ts, acc => s.readTaps t raw tb h seen ts (acc ++ [t.border])
  | .texel k i j :: ts, acc =>
    let va := t.addr k i j
    match seen.find? (fun x => x.1 == va) with
    | some x => s.readTaps t raw tb h seen ts (acc ++ [t.channels raw tb x.2 i j])
    | none =>
      match s.pageAt s.thr.env.ptroot va with
      | none => (s, seen, .inr va)
      | some p =>
        match s.samplerRead p.pa t.bytes h with
        | (s, some bs) => s.readTaps t raw tb h ((va, bs) :: seen) ts (acc ++ [t.channels raw tb bs i j])
        | (s, none) => (s, seen, .inr va)

/-- What serving some lanes has come to: the part, the texels read, the values and the poisoned lanes. -/
structure Served where
  s     : State
  seen  : Texels
  ready : List (Nat × Nat × Word)
  bad   : List (Nat × Nat)
  deriving DecidableEq, Repr

/-- One lane of a sampling word is served (R255). -/
def Served.lane (x : Served) (fn : Nat) (h : BitVec 2) (t : Tex) (tb : List Byte) (l : Nat) (op : List Word) : Served :=
  let out (vs : List Word) : List (Nat × Nat × Word) := ((List.range 4).zip vs).map (fun (i, v) => (l, i, v))
  match x.s.readTaps t (fn == 5) tb h x.seen (t.taps fn op) [] with
  | (s, seen, .inl ts) => ⟨s, seen, x.ready ++ out (t.combine fn op ts), x.bad⟩
  | (s, seen, .inr va) =>
    if s.thr.env.propagate then ⟨s, seen, x.ready ++ out (List.replicate 4 0x7FC00000), x.bad⟩
    else ⟨s, seen, x.ready, x.bad ++ [(l, va)]⟩

/-- The lanes of a sampling word whose addresses are mapped are served (R253 step 7, R255). -/
def State.smpServe (s : State) (fn : Nat) (d : Reg) (h : BitVec 2) (t : Tex) (tb : List Byte)
    (lanes : List (Nat × List Word)) : State × Texels :=
  let seen := (s.ctx.part.map ParkedWord.texels).getD []
  let x := lanes.foldl (fun (x : Served) (l, op) => x.lane fn h t tb l op) ⟨s, seen, [], []⟩
  (x.s.flyRead 1 true d.toNat 4 x.ready x.bad, x.seen)

/-- The addresses of the texels, or blocks, that a lane reads. -/
def Tex.needs (t : Tex) (fn : Nat) (op : List Word) : List Nat :=
  (t.taps fn op).filterMap (fun x => match x with
    | .texel k i j => some (t.addr k i j)
    | .border => none)

/-- The L2 lines of a table are filled or touched with the word's hint (R252). -/
def State.touchTable (s : State) (pa : Nat) (h : BitVec 2) : State :=
  (List.range 8).foldl (fun s i => s.touchL2 s.thr.env (pa + 256 * i) h false) s

/-- Step 7 of R253: the texel and table addresses of the lanes, then the lanes themselves. `cap` is the slot captured by
a word that decodes; a lane that decodes no block needs no table. -/
def State.smpLanes (s : State) (fn : Nat) (d a : Reg) (h : BitVec 2) (t : Tex) (cap : Option Capture) : State :=
  let open_ := (s.ctx.part.map ParkedWord.waits).getD []
  let held (va : Nat) : Bool := open_.any (fun (_, x) => blockOf x == blockOf va)
  let lanes := (lanesIn s.active).map (fun l => (l, s.laneData a.toNat (smpOperands fn) l))
  let hit := cap.bind (fun c => s.tableHit c.slot c.gen)
  let decodes (op : List Word) : Bool := cap.isSome && !(t.needs fn op).isEmpty
  let needs (op : List Word) : List Nat :=
    t.needs fn op ++ (if decodes op && hit.isNone then (cap.map Capture.addr).toList else [])
  let rows := lanes.flatMap (fun (l, op) => (needs op).map (fun va =>
    (l, va, if validVa va then some (s.waveWalk s.thr.env.ptroot va) else none)))
  let bad := rows.filterMap (fun (l, va, w) => match w with
    | none => some (l, va, 1)
    | some (.page p) => if p.type = .normal then none else some (l, va, 0)
    | some (.fault _) => none)
  let miss := rows.filterMap (fun (l, va, w) => match w with
    | some (.fault c) => some (l, va, c)
    | some (.page _) => if held va then some (l, va, 0) else none
    | none => none)
  match s.failTrap clsPROT bad with
  | .trap cls c va ls => s.trapGroup cls c (BitVec.ofNat 64 va) ls
  | .rows _ _ =>
    let out := s.failLanes miss
    let go := lanes.filter (fun (l, _) => !out.getLsbD l)
    let serve (s : State) (tb : List Byte) : State :=
      let (s, seen) := s.smpServe fn d h t tb go
      if miss.isEmpty then s else s.smpPark cap seen out miss
    if !go.any (fun (_, op) => decodes op) then serve s []
    else
      match cap, hit with
      | some c, none =>
        (match s.pageAt s.thr.env.ptroot c.addr with
        | none => s
        | some p =>
          let s := s.touchTable p.pa h
          if s.poisoned p.pa 2048 then s.smpPoison d c.addr
          else
            let tb := s.homeRead p.pa 2048
            serve (s.keepTable c.slot c.gen tb) tb)
      | some c, some tb => serve (s.keepTable c.slot c.gen tb) tb
      | none, _ => serve s []

/-- A sampling word (R253). -/
def smpWord (fn : Nat) (d a : Reg) (p : BitVec 5) (h : BitVec 2) (s : State) : State :=
  let va := (s.base p).toNat
  if va % 64 ≠ 0 then s.trapGroup clsALIGN 0 (s.base p) s.active
  else if !validVa va then s.trapGroup clsPROT 1 (s.base p) s.active
  else
    match s.waveWalk s.thr.env.ptroot va with
    | .fault c => s.smpPark s.parkedHere.cap s.parkedHere.texels s.active [(onceLane, va, c)]
    | .page pg =>
      if pg.type ≠ .normal then s.trapGroup clsPROT 0 (s.base p) s.active
      else
        match s.samplerRead pg.pa 64 h with
        | (s, none) => s.smpPoison d va
        | (s, some b) =>
          match Tex.ofBytes b with
          | none => s.trapWord clsSMPFLT 1
          | some t =>
            if t.fmt = 4 ∧ fn ≠ 5 ∧ fn ≠ 7 then
              let c := (s.ctx.part.bind ParkedWord.cap).getD (s.captureSlot t.dslot)
              if c.bound then s.smpLanes fn d a h t (some c)
              else if !t.soft then s.trapWord clsSMPFLT 2
              else
                let s : State := { s with thr := { s.thr with ctl := { s.thr.ctl with sstat := s.thr.ctl.sstat ||| s.active } } }
                s.smpAll d 0
            else s.smpLanes fn d a h t none

/-- SMPP: point (R252). -/
def execSmpp (d a : Reg) (p : BitVec 5) (h : BitVec 2) (s : State) : Out := .next (smpWord 0 d a p h s)
/-- SMPB: bilinear (R252). -/
def execSmpb (d a : Reg) (p : BitVec 5) (h : BitVec 2) (s : State) : Out := .next (smpWord 1 d a p h s)
/-- SMPT: trilinear (R252). -/
def execSmpt (d a : Reg) (p : BitVec 5) (h : BitVec 2) (s : State) : Out := .next (smpWord 2 d a p h s)
/-- SMPA: anisotropic (R252). -/
def execSmpa (d a : Reg) (p : BitVec 5) (h : BitVec 2) (s : State) : Out := .next (smpWord 3 d a p h s)
/-- SMPG: one channel of the four taps (R252). -/
def execSmpg (d a : Reg) (p : BitVec 5) (h : BitVec 2) (s : State) : Out := .next (smpWord 4 d a p h s)
/-- SFET: a texel or a raw block (R252). -/
def execSfet (d a : Reg) (p : BitVec 5) (h : BitVec 2) (s : State) : Out := .next (smpWord 5 d a p h s)
/-- SLAT: a texel, decoded (R252). -/
def execSlat (d a : Reg) (p : BitVec 5) (h : BitVec 2) (s : State) : Out := .next (smpWord 6 d a p h s)
/-- SQRY: what the descriptor says of a level (R252). -/
def execSqry (d a : Reg) (p : BitVec 5) (h : BitVec 2) (s : State) : Out := .next (smpWord 7 d a p h s)

/-! ## Decoder-table slots (R250) -/

/-- The split waits at the word as REL does (R175, R250). -/
def State.parkRel (s : State) : State :=
  let old := s.ctx.part
  s.parkAt { s.parkedHere with
    stage := s.stage, phase := (old.map ParkedWord.phase).getD 0, ds := (old.map ParkedWord.ds).getD false }

/-- The header of a table meets R247. -/
def headerOk (b : List Byte) : Bool :=
  let f := fieldAt b
  f 0 4 == 0x4C425444 && f 4 2 == 1 && f 6 2 / 2 == 0 && f 27 37 == 0

/-- A slot takes a new state: its generation rises, and a generation that wraps drops the slot's cached tables (R249,
R250). -/
def State.setSlot (s : State) (k : Nat) (bound : Bool) (addr : Nat) : State × Word :=
  match s.tables[k]? with
  | none => (s, 0)
  | some x =>
    let gen := x.gen + 1
    let s : State := { s with tables := s.tables.setIfInBounds k ⟨bound, addr, gen⟩ }
    (if gen = 0 then
       { s with cores := s.cores.map (fun c => { c with tables := c.tables.filter (fun (a, _, _) => a != k) }) }
     else s, gen.zeroExtend 32)

/-- The first steps of DTBIND and DTUNB (R250): a trap, a refusal, a wait, or the slot number. -/
def State.dtbEnter (s : State) (d : Reg) : State ⊕ Nat :=
  let k := s.rdS d
  if !s.thr.env.dtGrant then .inl (s.trapWord clsPROT 3)
  else if 255 < k.toNat then .inl (s.flyScalars 0 d [0x80000005])
  else if !s.released s.thr.key then .inl s.parkRel
  else .inr k.toNat

/-- DTBIND: bind a slot to a table (R250). -/
def execDtbind (d : Reg) (p : BitVec 5) (s : State) : Out :=
  match s.dtbEnter d with
  | .inl s => .next s
  | .inr k =>
    match s.readBlock (s.base p).toNat 2048 64 recordNormal with
    | .stop s => .next s
    | .bytes s _ b =>
      if !headerOk b then .next (s.flyScalars 0 d [0x80000002])
      else
        let (s, gen) := s.setSlot k true (s.base p).toNat
        .next (s.flyScalars 0 d [gen])

/-- DTUNB: unbind a slot (R250). -/
def execDtunb (d : Reg) (s : State) : Out :=
  match s.dtbEnter d with
  | .inl s => .next s
  | .inr k =>
    if (s.captureSlot k).bound then
      let (s, gen) := s.setSlot k false 0
      .next (s.flyScalars 0 d [gen])
    else .next (s.flyScalars 0 d [0x80000003])

/-- DTQRY: report a slot (R250). -/
def execDtqry (d : Reg) (s : State) : Out :=
  let k := s.rdS d
  if 255 < k.toNat then .next (s.flyScalars 0 d [0xFFFFFFFF])
  else
    let c := s.captureSlot k.toNat
    .next (s.flyScalars 0 d [BitVec.ofNat 32 ((if c.bound then 2 ^ 31 else 0) + c.gen)])

end Sys2Proof.Machine
end

