-- ==== Sys2Proof/Machine/Engine.lean ====
section
/-! DEFINITION. What the matrix engine, MVNB and Hamper share: range locks (R186), control blocks in the CLM (R394),
deliveries (R182), the issuing thread's own earlier accesses (R191). -/

namespace Sys2Proof.Machine

/-! ## Range locks (R186) -/

/-- Two ranges of one space overlap. -/
def Lock.meets (a b : Lock) : Bool := a.clm == b.clm && decide (a.lo ≤ b.hi ∧ b.lo ≤ a.hi)

/-- The lock of a CLM range of a window: its offset and length. -/
def Lock.clmRange (op win off len : Nat) (dest : Bool) : Lock := ⟨true, win + off, win + off + len - 1, dest, op⟩

/-- The table has room for an operation's ranges, and none overlaps another's locked destination, or as a destination
another's locked source (R186). -/
def Cluster.lockRoom (c : Cluster) (ls : List Lock) : Bool :=
  decide (c.locks.length + ls.length ≤ 64) &&
    ls.all (fun l => !c.locks.any (fun (_, k) => k.op != l.op && l.meets k && (k.dest || l.dest)))

/-- Enter ranges, each in the lowest free entry. -/
def Cluster.addLocks (c : Cluster) (ls : List Lock) : Cluster :=
  { c with locks := ls.foldl (fun es l =>
      match (List.range 64).find? (fun n => !es.any (fun (m, _) => m == n)) with
      | some n => es ++ [(n, l)]
      | none => es) c.locks }

/-- Release every range of an operation. -/
def Cluster.dropLocks (c : Cluster) (op : Nat) : Cluster := { c with locks := c.locks.filter (fun (_, l) => l.op != op) }

/-- Release an operation's ranges in every cluster. -/
def State.dropLocks (s : State) (op : Nat) : State := { s with clusters := s.clusters.map (fun c => c.dropLocks op) }

/-! ## Control blocks in the CLM (R143, R394) -/

/-- A trap at a CLM offset. -/
def State.trapClm (s : State) (cls cause o : Nat) : State := s.trapGroup cls cause (BitVec.ofNat 64 o) s.active

/-- A word reads a control block in its window (R394). -/
def State.readClm (s : State) (o align n : Nat) : Block :=
  let a := s.window s.thr.key.wg + o
  let c := s.cluster s.myCluster
  if o % align ≠ 0 then .stop (s.trapClm clsALIGN 0 o)
  else if s.thr.kern.clmBytes < o + n then .stop (s.trapClm clsPROT 2 o)
  else
    match s.lockHit true false a n with
    | some k => .stop (s.trapClm clsLOCKHIT k o)
    | none => if c.clmPoisoned a n then .stop (s.trapClm clsPOISON 2 o) else .bytes s a (cellsRead c.clm a n)

/-! ## Completion -/

/-- One delivery is counted down at a barrier of a workgroup (R182). -/
def State.deliver (s : State) (wg b : Nat) : State :=
  s.modBarriers wg (fun i x => if i = b then { x with counter := x.counter - 1 } else x)

/-- The thread's own earlier stores, atomics and contributions that have not completed and touch a range, those of words that
are parked too (R191). -/
def State.ownAhead (s : State) (k : TKey) (op lo hi : Nat) : Bool :=
  let n := hi + 1 - lo
  let queued (e : WqEntry) : Bool := e.key == k && decide (e.op < op) && e.bytes.any (fun (o, _) => decide (lo ≤ e.va + o ∧ e.va + o ≤ hi))
  s.wq.any queued || s.hold.any queued ||
    s.rq.any (fun e => e.key == k && decide (e.op < op) && e.lanes.any (fun (_, va, bs) => overlaps va bs.length lo n)) ||
    s.flights.any (fun f => f.key == k && decide (f.op < op) && !f.work.isLoad && f.todo.any (fun a => overlaps a.va (a.span f.work) lo n)) ||
    s.parkedAhead k op lo n

end Sys2Proof.Machine
end

