-- ==== Sys2Proof/Machine/Matrix.lean ====
section
/-! DEFINITION. The matrix words of the MCC and the matrix engine: formats, passes, drains, fills, MVNB (R281 to R302). -/

namespace Sys2Proof.Machine

/-! ## Formats (R287 to R289) -/

/-- Width of an element code. -/
def codeWidth (c : Nat) : Nat := if c ≤ 7 then (FFmt.ofCode c).width else (IFmt.ofCode c).width

/-- The engine reads the code (R287). -/
def codeOk (c : Nat) : Bool := decide (c ≤ 7) || decide (11 ≤ c ∧ c ≤ 14)

/-- K of a pass (R287). -/
def kOf (c : Nat) : Nat :=
  match codeWidth c with
  | 32 => 32
  | 16 => 64
  | 4 => 256
  | _ => 128

/-- Row bytes of a pass (R287). -/
def rowBytes (c : Nat) : Nat := kOf c * codeWidth c / 8

/-- The format allows the scale mode (R288). -/
def modeOk (c mode glen : Nat) : Bool :=
  match mode with
  | 0 => glen == 0
  | 1 => decide (11 ≤ c) && decide (glen ≤ 2)
  | 2 | 3 => decide (3 ≤ c ∧ c ≤ 7) && glen == 0
  | _ => false

/-- Elements to a scale (R288). -/
def groupLen (mode glen : Nat) : Nat :=
  match mode with
  | 1 => 32 * 2 ^ glen
  | 2 => 32
  | _ => 16

/-- Bytes of a scale (R289). -/
def scaleSize (mode : Nat) : Nat := if mode = 3 then 1 else 2

/-- One element's value under its scale mode (R288); `q` are its bits, `sc` its scale's bits, `z` its zero point. -/
def scaledVal (code mode q sc : Nat) (z : Int) : Val :=
  let w : Word := BitVec.ofNat 32 q
  let x : Val := if code ≤ 7 then (FFmt.ofCode code).read w
    else
      let i := (IFmt.ofCode code).read w
      if i = 0 then .zero false else .fin i
  match mode with
  | 1 => groupVal (FFmt.fp16.read (BitVec.ofNat 32 sc)) ((IFmt.ofCode code).read w) z
  | 2 => (match blockScale (BitVec.ofNat 32 sc) with
    | some r => (mulVal x (.fin r)).getD .nan
    | none => .nan)
  | 3 => (match fineScale (BitVec.ofNat 32 sc) with
    | some r => (mulVal x (if r = 0 then .zero false else .fin r)).getD .nan
    | none => .nan)
  | _ => x

/-- One side's format: code, mode, group length code, offset of the scales and of the zero points. -/
structure Side where
  code : Nat
  mode : Nat
  glen : Nat
  scl  : Nat
  zp   : Nat
  deriving DecidableEq, Repr

def MFormat.sideA (f : MFormat) : Side := ⟨f.fa, f.mode % 4, f.glen % 4, f.asc.toNat, f.azp.toNat⟩
def MFormat.sideB (f : MFormat) : Side := ⟨f.fb, f.mode / 4, f.glen / 4, f.bsc.toNat, f.bzp.toNat⟩

/-- Scale groups along `k` elements of a row. -/
def Side.groups (d : Side) (k : Nat) : Nat := k / groupLen d.mode d.glen

/-- No array of zero points (R288). -/
def Side.noZp (d : Side) : Bool := d.zp == 0xFFFFFFFF

/-- The values of `k` elements of a row, from its run, its scales and its zero points (R289, R291). -/
def Side.values (d : Side) (k : Nat) (run scales zps : List Byte) : List Val :=
  let w := codeWidth d.code
  let n := natOfBytes run
  (List.range k).map (fun i =>
    let g := i / groupLen d.mode d.glen
    scaledVal d.code d.mode (n / 2 ^ (w * i) % 2 ^ w) (fieldAt scales (g * scaleSize d.mode) (scaleSize d.mode))
      ((zps[g]?.getD 0).toInt))

/-- The format set of a block; none when a field breaks R287 or R288. -/
def MFormat.ofBytes (b : List Byte) : Option MFormat :=
  let f := fieldAt b
  let a := f 0 1
  let c := f 4 1
  if codeOk a && codeOk c && codeWidth a == codeWidth c && modeOk a (f 1 1) (f 2 1) && modeOk c (f 5 1) (f 6 1) &&
      f 3 1 == 0 && f 7 1 == 0 && f 24 8 == 0 && (f 1 1 == 0 || f 8 4 % 16 == 0) && (f 5 1 == 0 || f 16 4 % 16 == 0) then
    some
      { fa := a, fb := c, mode := f 1 1 + 4 * f 5 1, glen := f 2 1 + 4 * f 6 1, asc := wordAt b 8, azp := wordAt b 12
        bsc := wordAt b 16, bzp := wordAt b 20 }
  else none

/-! ## Sums (R292) -/

/-- S of R292 over one block: the products of two runs of values. -/
def blockSum (xs ys : List Val) : Val :=
  let ps := (xs.zip ys).map (fun (x, y) => mulVal x y)
  if ps.any (fun p => p == none || p == some .nan) then .nan
  else
    let pos := ps.contains (some (.inf false))
    let neg := ps.contains (some (.inf true))
    if pos && neg then .nan
    else if pos then .inf false
    else if neg then .inf true
    else
      let x := ps.foldl (fun t p => t + ((p.map Val.toRat).getD 0)) (0 : Rat)
      if x = 0 then .zero (ps.all (fun p => p == some (.zero true))) else .fin x

/-- addblock (R292). -/
def addblock (acc : Word) (x : Val) : Word := ((addExact (FFmt.fp32.read acc) x .rne).round .fp32 .rne false 0).v

/-- The accumulation of R292 along `k` elements in blocks of 32. -/
def accumulate (int : Bool) (acc : Word) (k : Nat) (xs ys : List Val) : Word :=
  (List.range (k / 32)).foldl (fun acc b =>
    let x := blockSum ((xs.drop (32 * b)).take 32) ((ys.drop (32 * b)).take 32)
    if int then acc + BitVec.ofInt 32 x.toRat.floor else addblock acc x) acc

/-! ## Tiles and the reservation table (R284, R294, R296) -/

/-- A tile of a cluster. -/
def Cluster.tile (c : Cluster) (t : Nat) : List Word := ((c.tiles.find? (fun x => x.1 == t)).map Prod.snd).getD (List.replicate 4096 0)

/-- Replace a tile. -/
def Cluster.setTile (c : Cluster) (t : Nat) (ws : List Word) : Cluster :=
  { c with tiles := (t, ws) :: c.tiles.filter (fun x => x.1 != t) }

/-- The operation is a pass: MMA, MMAZ or MPOST. -/
def Resv.isPass (r : Resv) : Bool := decide (r.fn ≤ 3)

/-- The ranges that one side of a pass reads in the window: offset and length (R289, R291). -/
def Side.ranges (d : Side) (off : Nat) : List (Nat × Nat) :=
  let ng := d.groups (kOf d.code)
  [(off, 64 * rowBytes d.code)] ++
    (if d.mode = 0 then [] else [(d.scl, 64 * ng * scaleSize d.mode)]) ++
    (if d.mode = 1 ∧ !d.noZp then [(d.zp, 64 * ng)] else [])

/-- Bytes of an element of a drained or filled image (R297). -/
def imageSize (ctl : Word) : Nat := codeWidth (ctl.toNat % 16) / 8

/-- The ranges of an operation: offset, length, whether it is written (R297). -/
def Resv.ranges (r : Resv) : List (Nat × Nat × Bool) :=
  if r.isPass then
    ((r.fmt.sideA.ranges r.offA.toNat) ++ (r.fmt.sideB.ranges r.offB.toNat)).map (fun (o, n) => (o, n, false))
  else [(r.offA.toNat, 4096 * imageSize r.ctl, r.fn == 5)]

/-- The locks of an operation. -/
def Resv.locks (r : Resv) : List Lock := r.ranges.map (fun (o, n, d) => Lock.clmRange r.id r.win o n d)

/-! ## The words -/

/-- A MAT word waits for an MLDF of its thread (R290). -/
def State.mldfBusy (s : State) : Bool := s.flights.any (fun f => f.key == s.thr.key && f.work == .format)

/-- MLDF: load the format set (R290). -/
def execMldf (d n : Reg) (s : State) : Out :=
  if s.mldfBusy then .next s.parkRel
  else
    match s.readClm (s.rdS n).toNat 32 32 with
    | .stop s => .next s
    | .bytes s _ b =>
      let (s, x) := match MFormat.ofBytes b with
        | some f => (({ s with thr := { s.thr with mfmt := f } } : State), (0 : Word))
        | none => (s, 0x80000002)
      .next (s.fly (s.newFlight .format 3 true d.toNat 1 0 [] [(0, 0, x)]))

/-- The operation is posted, if an entry is free (R294 steps 3 and 4); `wait` parks the thread until it completes. -/
def State.postResv (s : State) (r : Resv) (wait : Bool) : State :=
  let c := s.cluster s.myCluster
  if 16 ≤ c.resv.length then s.parkAt { s.parkedHere with stage := 2 + 2 * r.id }
  else
    let s := s.setCluster { c with resv := c.resv ++ [r] }
    let touch := r.isPass || r.fn == 6 || (r.fn == 5 && r.ctl.getLsbD 9)
    let s : State := if touch then
      { s with thr := { s.thr with ctl := { s.thr.ctl with mtouch := s.thr.ctl.mtouch ||| ((1 : Word) <<< r.tile) } } } else s
    if wait then s.parkAt { s.parkedHere with stage := 1 + 2 * r.id } else s

/-- MMA, MMAZ, MPOST, MDRAIN and MFILL (R294). -/
def postWord (fn tile : Nat) (zero : Bool) (offA offB ctl : Word) (wait : Bool) (s : State) : State :=
  let entry (id : Nat) : Resv :=
    { id := id, key := s.thr.key, fn := fn, tile := tile, zero := zero, offA := offA, offB := offB, ctl := ctl, fmt := s.thr.mfmt
      cls := s.thr.env.prio, win := s.window s.thr.key.wg, granted := false, landed := false }
  if s.stage % 2 = 1 then
    if (s.cluster s.myCluster).resv.any (fun r => r.id == s.stage / 2) then s.parkAt { s.parkedHere with stage := s.stage } else s
  else if s.stage ≠ 0 then s.postResv (entry (s.stage / 2 - 1)) wait
  else if s.mldfBusy then s.parkRel
  else
    let r := entry s.nextId
    let mis := (if r.isPass then [offA, offB] else [offA]).filter (fun o => o.toNat % 256 ≠ 0)
    let out := r.ranges.filter (fun (o, n, _) => s.thr.kern.clmBytes < o + n)
    match mis, out with
    | o :: os, _ => s.trapClm clsALIGN 0 (os.foldl (fun a x => min a x.toNat) o.toNat)
    | [], (o, _, _) :: os => s.trapClm clsPROT 2 (os.foldl (fun a (x, _, _) => min a x) o)
    | [], [] =>
      let c := s.cluster s.myCluster
      if !c.lockRoom r.locks then s.parkRel
      else ({ (s.setCluster (c.addLocks r.locks)) with nextId := s.nextId + 1 } : State).postResv r wait

/-- MMA: a pass, and the thread waits for it (R294). -/
def execMma (d a b : Reg) (s : State) : Out := .next (postWord 1 d.toNat false (s.rdS a) (s.rdS b) 0 true s)

/-- MMAZ: a pass from zero, and the thread waits for it (R294). -/
def execMmaz (d a b : Reg) (s : State) : Out := .next (postWord 2 d.toNat true (s.rdS a) (s.rdS b) 0 true s)

/-- MPOST: a pass, posted (R294). -/
def execMpost (z : Bool) (d : BitVec 5) (a b : Reg) (s : State) : Out :=
  .next (postWord 3 d.toNat z (s.rdS a) (s.rdS b) 0 false s)

/-- MDRAIN's control word holds no reserved value (R297). -/
def drainCtlOk (x : Word) : Bool :=
  let n := x.toNat
  (decide (n % 16 ≤ 4) || n % 16 == 8) && decide (n / 16 % 8 ≤ 4) && decide (n < 2 ^ 15)

/-- MFILL's control word holds no reserved value (R297). -/
def fillCtlOk (x : Word) : Bool := decide (x.toNat ≤ 2) || x == 8

/-- MDRAIN: write a tile to the CLM (R297). -/
def execMdrain (d a b : Reg) (s : State) : Out :=
  if s.stage = 0 ∧ !drainCtlOk (s.rdS b) then .next (s.trapWord clsILL 0)
  else .next (postWord 5 d.toNat false (s.rdS a) 0 (s.rdS b) false s)

/-- MFILL: load a tile from the CLM (R297). -/
def execMfill (d a b : Reg) (s : State) : Out :=
  if s.stage = 0 ∧ !fillCtlOk (s.rdS b) then .next (s.trapWord clsILL 0)
  else .next (postWord 6 d.toNat false (s.rdS a) 0 (s.rdS b) false s)

/-- MWAIT: wait for the thread's operations on a tile, or for all of them (R295). -/
def execMwait (e : Bool) (t : BitVec 5) (s : State) : Out :=
  if s.mldfBusy || (s.cluster s.myCluster).resv.any (fun r => r.key == s.thr.key && (e || r.tile == t.toNat)) then .next s.parkRel
  else .next s

/-- MVWAIT: wait for the thread's MVNB operations (R295). -/
def execMvwait (s : State) : Out :=
  if s.mldfBusy || (s.cluster s.myCluster).mvnb.any (fun m => m.key == s.thr.key) then .next s.parkRel else .next s

/-! ## What an operation does (R292, R297, R301) -/

/-- The scale and zero-point bytes of a row, and whether its run or any of them is poisoned. -/
def Cluster.sideRow (c : Cluster) (d : Side) (win off m : Nat) : List Val × Bool :=
  let k := kOf d.code
  let rb := rowBytes d.code
  let ng := d.groups k
  let z := scaleSize d.mode
  let ra := win + off + m * rb
  let sa := win + d.scl + z * (m * ng)
  let za := win + d.zp + m * ng
  let zps := if d.mode = 1 ∧ !d.noZp then cellsRead c.clm za ng else []
  let scs := if d.mode = 0 then [] else cellsRead c.clm sa (z * ng)
  (d.values k (cellsRead c.clm ra rb) scs zps,
   c.clmPoisoned ra rb || (d.mode != 0 && c.clmPoisoned sa (z * ng)) || (d.mode == 1 && !d.noZp && c.clmPoisoned za ng))

/-- A pass: the tile afterwards, and whether it met poison (R292, R301). -/
def Cluster.runPass (c : Cluster) (r : Resv) : List Word × Bool :=
  let a := r.fmt.sideA
  let b := r.fmt.sideB
  let rows := (List.range 64).map (fun m => c.sideRow a r.win r.offA.toNat m)
  let cols := (List.range 64).map (fun n => c.sideRow b r.win r.offB.toNat n)
  let int := decide (11 ≤ a.code ∧ 11 ≤ b.code) && a.mode == 0 && b.mode == 0
  let old := c.tile r.tile
  ((List.range 4096).map (fun i =>
    let (xs, p) := rows[i / 64]?.getD ([], false)
    let (ys, q) := cols[i % 64]?.getD ([], false)
    if p || q then (if int then 0x0BAD0BAD else FFmt.fp32.canon)
    else accumulate int (if r.zero then 0 else old[i]?.getD 0) (kOf a.code) xs ys),
   rows.any Prod.snd || cols.any Prod.snd)

/-- A drain: the image's bytes (R297). -/
def drainImage (ctl : Word) (tile : List Word) : List Byte :=
  let n := ctl.toNat
  let src := if ctl.getLsbD 8 then 8 else 0
  let df := n % 16
  tile.flatMap (fun x =>
    bytesOfNat (imageSize ctl) (if src = df then x else (convert src df (RMode.ofCode (n / 16 % 8)) (ctl.getLsbD 7) 0 x).v).toNat)

/-- A fill: the tile, and whether it met poison (R297, R301). -/
def Cluster.fillTile (c : Cluster) (r : Resv) : List Word × Bool :=
  let z := imageSize r.ctl
  let sf := r.ctl.toNat % 16
  let at_ (i : Nat) : Nat := r.win + r.offA.toNat + z * i
  ((List.range 4096).map (fun i =>
    let x := BitVec.ofNat 32 (natOfBytes (cellsRead c.clm (at_ i) z))
    if c.clmPoisoned (at_ i) z then (if sf = 8 then 0x0BAD0BAD else FFmt.fp32.canon)
    else if sf = 0 ∨ sf = 8 then x else valTo32 ((FFmt.ofCode sf).read x)),
   c.clmPoisoned (at_ 0) (4096 * z))

/-- The thread's ctl.mstat records poison (R283, R301). -/
def State.markPoison (s : State) (k : TKey) (mv : Bool) : State :=
  s.modThread k (fun t => { t with ctl :=
    if mv then { t.ctl with mvpois := true } else { t.ctl with mpois := true } })

/-- A granted operation reads its operands and writes its tile or image. -/
def State.landResv (s : State) (cl : Nat) (r : Resv) : State :=
  if r.landed then s
  else
    let c := s.cluster cl
    let (c, bad) := if r.isPass then let (t, p) := c.runPass r; (c.setTile r.tile t, p)
      else if r.fn = 6 then let (t, p) := c.fillTile r; (c.setTile r.tile t, p)
      else
        let c1 := c.clmWrite [(r.win + r.offA.toNat, drainImage r.ctl (c.tile r.tile))]
        (if r.ctl.getLsbD 9 then c1.setTile r.tile (List.replicate 4096 0) else c1, false)
    let s := s.setCluster { c with resv := c.resv.map (fun x => if x.id = r.id then { x with landed := true } else x) }
    if bad then s.markPoison r.key false else s

/-! ## Events of the engine (R296) -/

/-- No older entry names the entry's tile. -/
def Cluster.resvReady (c : Cluster) (r : Resv) : Bool :=
  !r.granted && !((c.resv.takeWhile (fun x => x.id != r.id)).any (fun x => x.tile == r.tile))

/-- MAT_GRANT: the array, or the tile port, takes an eligible entry: the highest class, then the oldest (R296). -/
def execMatGrant (cluster : Nat) (port : Bool) (s : State) : Out :=
  let c := s.cluster cluster
  let mine (r : Resv) : Bool := r.isPass != port
  if c.resv.any (fun r => mine r && r.granted) then .next s
  else
    match (c.resv.filter (fun r => mine r && c.resvReady r)).foldl (fun (b : Option Resv) r => match b with
        | some x => if x.cls < r.cls then some r else some x
        | none => some r) none with
    | some r => .next (s.setCluster { c with resv := c.resv.map (fun x => if x.id = r.id then { x with granted := true } else x) })
    | none => .next s

/-- MAT_ENTRY_COMPLETE: a granted operation's last write is done; its entry is free, a counted drain is delivered
(R296, R297). -/
def execMatEntryComplete (cluster entry : Nat) (s : State) : Out :=
  match (s.cluster cluster).resv.find? (fun r => r.id == entry) with
  | none => .next s
  | some r =>
    if !r.granted then .next s
    else
      let s := (s.landResv cluster r).modCluster cluster (fun c =>
        { (c.dropLocks r.id) with resv := c.resv.filter (fun x => x.id != r.id) })
      .next (if r.fn = 5 ∧ r.ctl.getLsbD 10 then s.deliver r.key.wg (r.ctl.toNat / 2 ^ 11 % 16) else s)

/-! ## MVNB (R298 to R301) -/

/-- The weights' side of a descriptor. -/
def mvSide (b : List Byte) : Side := ⟨fieldAt b 36 1, fieldAt b 37 1, fieldAt b 38 1, 0, 0⟩

/-- Bytes of a row of weights. -/
def mvRow (b : List Byte) : Nat := fieldAt b 28 4 * codeWidth (fieldAt b 36 1) / 8

/-- Bytes of an element of the vector. -/
def mvX (b : List Byte) : Nat := if fieldAt b 39 1 = 0 then 4 else 2

/-- The fields of a descriptor lie inside R299. -/
def mvnbOk (b : List Byte) : Bool :=
  let f := fieldAt b
  let c := f 36 1
  f 0 8 % 256 == 0 && decide (1 ≤ f 24 4 ∧ f 24 4 ≤ 65536) && f 28 4 % 128 == 0 && decide (128 ≤ f 28 4 ∧ f 28 4 ≤ 65536) &&
    (c == 3 || c == 4 || c == 7 || decide (11 ≤ c ∧ c ≤ 14)) && decide (f 37 1 ≤ 2) && modeOk c (f 37 1) (f 38 1) &&
    f 32 4 % 256 == 0 && decide (mvRow b ≤ f 32 4) && decide (f 39 1 ≤ 2) && f 40 4 % 16 == 0 && f 44 4 % 16 == 0 &&
    decide (f 48 4 < 64) && f 52 12 == 0

/-- The ranges in memory: address and length (R299). -/
def mvRanges (b : List Byte) : List (Nat × Nat) :=
  let f := fieldAt b
  let d := mvSide b
  let ng := d.groups (f 28 4)
  [(f 0 8, (f 24 4 - 1) * f 32 4 + mvRow b)] ++
    (if d.mode = 0 then [] else [(f 8 8, f 24 4 * ng * scaleSize d.mode)]) ++
    (if d.mode = 1 ∧ f 16 8 ≠ 0 then [(f 16 8, f 24 4 * ng)] else [])

/-- The 64 KiB blocks that a range touches, by their addresses. -/
def rangeBlocks (va n : Nat) : List Nat := (List.range ((va + n - 1) / 65536 + 1 - va / 65536)).map (fun i => 65536 * (va / 65536 + i))

/-- The ranges in the window: offset, length, whether it is written. -/
def mvWindow (b : List Byte) : List (Nat × Nat × Bool) :=
  [(fieldAt b 40 4, fieldAt b 28 4 * mvX b, false), (fieldAt b 44 4, 4 * fieldAt b 24 4, true)]

/-- The locks of an MVNB (R186). -/
def mvLocks (id win : Nat) (b : List Byte) : List Lock :=
  (mvRanges b).map (fun (va, n) => ⟨false, va, va + n - 1, false, id⟩) ++ (mvWindow b).map (fun (o, n, d) => Lock.clmRange id win o n d)

/-- The physical stack of a window address. -/
def stackOf (pa : Nat) : Nat := (pa - 2 ^ 50) / 2 ^ 36

/-- MVNB: start a near-bank product (R300). -/
def execMvnb (d a : Reg) (s : State) : Out :=
  if s.mldfBusy then .next s.parkRel
  else
    match s.readClm (s.rdS a).toNat 64 64 with
    | .stop s => .next s
    | .bytes s _ b =>
      if !mvnbOk b then .next (s.flyScalars 3 d [0x80000002])
      else
        let blocks := (mvRanges b).flatMap (fun (va, n) => rangeBlocks va n)
        let walks := blocks.map (fun va => (va, if validVa va then some (s.waveWalk s.thr.env.ptroot va) else none))
        let bad := walks.filterMap (fun (va, w) => match w with
          | none => some (va, 1)
          | some (.page p) => if p.type = .normal then none else some (va, 0)
          | some (.fault _) => none)
        let miss := walks.filterMap (fun (va, w) => match w with
          | some (.fault c) => some (va, c)
          | some (.page _) | none => none)
        let pages := walks.filterMap (fun (va, w) => match w with
          | some (.page p) => some (va, p.pa)
          | some (.fault _) | none => none)
        let win := s.window s.thr.key.wg
        let out := (mvWindow b).filter (fun (o, n, _) => s.thr.kern.clmBytes < o + n)
        let c := s.cluster s.myCluster
        match bad, miss, out with
        | (va, k) :: _, _, _ => .next (s.trapGroup clsPROT k (BitVec.ofNat 64 va) s.active)
        | [], _ :: _, _ =>
          let (s, waits) := s.addFaults miss 7 1
          .next (s.parkAgain waits)
        | [], [], (o, _, _) :: _ => .next (s.trapClm clsPROT 2 o)
        | [], [], [] =>
          let h := (pages.head?.map (fun (_, pa) => stackOf pa)).getD 0
          if !pages.all (fun (_, pa) => inWindow s.plat.win.toNat pa && stackOf pa == h) then .next (s.flyScalars 3 d [0x80000006])
          else if 4 ≤ c.mvnb.length ∨ !c.lockRoom (mvLocks s.nextId win b) ∨
              (mvRanges b).any (fun (va, n) => s.ownAhead s.thr.key s.opId va (va + n - 1)) then .next s.parkRel
          else
            let m : Mvnb := { id := s.nextId, key := s.thr.key, desc := b, win := win, pages := pages, landed := false }
            let c := c.addLocks (mvLocks m.id win b)
            let clean (l : L2Line) : L2Line :=
              if pages.any (fun (va, pa) => pa / 65536 == l.line / 256 &&
                  (mvRanges b).any (fun (lo, n) => overlaps lo n (va + 256 * (l.line % 256)) 256)) then { l with dirty := 0 } else l
            let s := s.setCluster { c with mvnb := c.mvnb ++ [m] }
            .next (({ s with nextId := s.nextId + 1, l2 := s.l2.map clean } : State).flyScalars 3 d [0])

/-- The physical address behind an address of an MVNB's ranges. -/
def Mvnb.pa (m : Mvnb) (va : Nat) : Nat :=
  ((m.pages.find? (fun (b, _) => b == blockOf va)).map Prod.snd).getD 0 + va % 65536

/-- Bytes of an MVNB's ranges, and whether any is poisoned. -/
def State.mvRead (s : State) (m : Mvnb) (va n : Nat) : List Byte × Bool :=
  (sectorRuns va n).foldl (fun (bs, p) (o, k) =>
    (bs ++ s.homeRead (m.pa (va + o)) k, p || s.poisoned (m.pa (va + o)) k)) ([], false)

/-- A row of the product (R300, R301). -/
def State.mvRowValue (s : State) (c : Cluster) (m : Mvnb) (x : List Val) (xBad : Bool) (n : Nat) : Word × Bool :=
  let b := m.desc
  let f := fieldAt b
  let d := mvSide b
  let k := f 28 4
  let ng := d.groups k
  let z := scaleSize d.mode
  let ya := m.win + f 44 4 + 4 * n
  let (run, p0) := s.mvRead m (f 0 8 + n * f 32 4) (mvRow b)
  let (scs, p1) := if d.mode = 0 then ([], false) else s.mvRead m (f 8 8 + z * (n * ng)) (z * ng)
  let (zps, p2) := if d.mode = 1 ∧ f 16 8 ≠ 0 then s.mvRead m (f 16 8 + n * ng) ng else ([], false)
  let acc := f 48 4 % 2 == 1
  if xBad || p0 || p1 || p2 || (acc && c.clmPoisoned ya 4) then (FFmt.fp32.canon, true)
  else
    (accumulate false (if acc then BitVec.ofNat 32 (natOfBytes (cellsRead c.clm ya 4)) else 0) k (d.values k run scs zps) x, false)

/-- An MVNB reads its ranges and writes y. -/
def State.landMvnb (s : State) (cl : Nat) (m : Mvnb) : State :=
  if m.landed then s
  else
    let c := s.cluster cl
    let f := fieldAt m.desc
    let xz := mvX m.desc
    let xa := m.win + f 40 4
    let x := (List.range (f 28 4)).map (fun i =>
      (FFmt.ofCode (f 39 1)).read (BitVec.ofNat 32 (natOfBytes (cellsRead c.clm (xa + xz * i) xz))))
    let rows := (List.range (f 24 4)).map (fun n => s.mvRowValue c m x (c.clmPoisoned xa (xz * f 28 4)) n)
    let c := c.clmWrite [(m.win + f 44 4, bytesOfWords (rows.map Prod.fst))]
    let s := s.setCluster { c with mvnb := c.mvnb.map (fun y => if y.id = m.id then { y with landed := true } else y) }
    if rows.any Prod.snd then s.markPoison m.key true else s

/-- MVNB_COMPLETE: the last y has landed (R300). -/
def execMvnbComplete (cluster id : Nat) (s : State) : Out :=
  match (s.cluster cluster).mvnb.find? (fun m => m.id == id) with
  | none => .next s
  | some m =>
    let s := (s.landMvnb cluster m).modCluster cluster (fun c =>
      { (c.dropLocks m.id) with mvnb := c.mvnb.filter (fun x => x.id != m.id) })
    let n := fieldAt m.desc 48 4
    .next (if n / 2 % 2 = 1 then s.deliver m.key.wg (n / 4 % 16) else s)

end Sys2Proof.Machine
end

