-- ==== Sys2Proof/Machine/Rays.lean ====
section
/-! DEFINITION. Rays: the scene and its nodes, the exact traversal, the RAY words, and the events that carry a
traversal (R262 to R274, R279). -/

namespace Sys2Proof.Machine

/-! ## Points and rays -/

/-- A point or direction, exact. -/
structure Vec3 where
  x : Rat
  y : Rat
  z : Rat
  deriving DecidableEq, Repr

def Vec3.sub (a b : Vec3) : Vec3 := ⟨a.x - b.x, a.y - b.y, a.z - b.z⟩
def Vec3.dot (a b : Vec3) : Rat := a.x * b.x + a.y * b.y + a.z * b.z
def Vec3.cross (a b : Vec3) : Vec3 := ⟨a.y * b.z - a.z * b.y, a.z * b.x - a.x * b.z, a.x * b.y - a.y * b.x⟩
/-- The three coordinates. -/
def Vec3.axes (a : Vec3) : List Rat := [a.x, a.y, a.z]

/-- The value of a finite FP32 word. -/
def finite? (w : Word) : Option Rat :=
  match FFmt.fp32.read w with
  | .zero _ => some 0
  | .fin q => some q
  | .inf _ | .nan => none

/-- Three finite words. -/
def vec3? (a b c : Word) : Option Vec3 := do
  let x ← finite? a
  let y ← finite? b
  let z ← finite? c
  return ⟨x, y, z⟩

/-- A valid ray; `tmax` none is +∞. -/
structure Ray where
  o    : Vec3
  d    : Vec3
  tmin : Rat
  tmax : Option Rat
  deriving DecidableEq, Repr

/-- `x` is not beyond a bound. -/
def upTo (x : Rat) (b : Option Rat) : Bool :=
  match b with
  | some y => decide (x ≤ y)
  | none => true

/-- The ray of eight words, if it is valid (R266). -/
def Ray.ofWords (w : List Word) : Option Ray :=
  let g (i : Nat) : Word := w[i]?.getD 0
  match vec3? (g 0) (g 1) (g 2), vec3? (g 3) (g 4) (g 5), finite? (g 6) with
  | some o, some d, some t0 =>
    let t1 : Option (Option Rat) := match FFmt.fp32.read (g 7) with
      | .nan => none
      | .inf neg => if neg then none else some none
      | .zero _ => some (some 0)
      | .fin q => some (some q)
    match t1 with
    | some t1 => if d = ⟨0, 0, 0⟩ ∨ t0 < 0 ∨ !upTo t0 t1 then none else some ⟨o, d, t0, t1⟩
    | none => none
  | _, _, _ => none

/-! ## The scene (R262 to R264) -/

/-- A scene descriptor. -/
structure Scene where
  base : Nat
  cnt  : Nat
  miss : Nat
  cull : Bool
  deriving DecidableEq, Repr

/-- A descriptor from its 64 bytes; none when it breaks R262. -/
def Scene.ofBytes (b : List Byte) : Option Scene :=
  let f := fieldAt b
  if f 0 8 % 64 = 0 ∧ f 8 4 ≠ 0 ∧ f 16 4 / 2 = 0 ∧ f 20 44 = 0 then some ⟨f 0 8, f 8 4, f 12 4, f 16 4 == 1⟩ else none

/-- A box: its bounds on the three axes. -/
structure Box where
  lo : List Rat
  hi : List Rat
  deriving DecidableEq, Repr

/-- A child of an internal node that is not empty: its index, whether it is a leaf, its box. -/
structure Child where
  index : Nat
  leaf  : Bool
  box   : Box
  deriving DecidableEq, Repr

/-- The children of an internal node in order; none when it is malformed (R263). -/
def childrenOf (cnt : Nat) (b : List Byte) : Option (List Child) :=
  let f := fieldAt b
  let n := f 15 1
  let base := f 52 4
  match vec3? (wordAt b 0) (wordAt b 4) (wordAt b 8) with
  | none => none
  | some o =>
    if 7 ≤ n ∨ 64 ≤ f 56 1 ∨ f 57 7 ≠ 0 ∨ (0 < n ∧ cnt ≤ base + n - 1) then none
    else
      let e (a : Nat) : Rat := pow2 (BitVec.toInt (b[12 + a]?.getD 0))
      some ((List.range n).filterMap (fun c =>
        let lo (a : Nat) : Nat := f (16 + 6 * c + a) 1
        let hi (a : Nat) : Nat := f (16 + 6 * c + 3 + a) 1
        if (List.range 3).any (fun a => hi a < lo a) then none
        else some
          { index := base + c
            leaf := (f 56 1).testBit c
            box :=
              { lo := (List.range 3).map (fun a => o.axes[a]?.getD 0 + lo a * e a)
                hi := (List.range 3).map (fun a => o.axes[a]?.getD 0 + (hi a + 1 : Nat) * e a) } }))

/-- A leaf: its vertices, if they are all finite, and what a hit returns. -/
structure Leaf where
  tri  : Option (Vec3 × Vec3 × Vec3)
  prim : Nat
  inst : Nat
  node : Word
  deriving DecidableEq, Repr

/-- A leaf from its bytes; none when it is malformed (R264). -/
def Leaf.ofBytes (b : List Byte) : Option Leaf :=
  let v (i : Nat) : Option Vec3 := vec3? (wordAt b (12 * i)) (wordAt b (12 * i + 4)) (wordAt b (12 * i + 8))
  if fieldAt b 48 16 ≠ 0 then none
  else
    some
      { tri := match v 0, v 1, v 2 with
          | some x, some y, some z => some (x, y, z)
          | _, _, _ => none
        prim := fieldAt b 36 4, inst := fieldAt b 40 4, node := wordAt b 44 }

/-! ## Hits (R266, R267) -/

/-- boxhit over the three axes (R266): the entry parameter, or none. -/
def boxAxes : List (Rat × Rat × Rat × Rat) → Rat → Option Rat → Option Rat
  | [], tin, tout => if upTo tin tout then some tin else none
  | (o, d, lo, hi) :: rest, tin, tout =>
    if d = 0 then (if o < lo ∨ hi < o then none else boxAxes rest tin tout)
    else
      let t1 := (lo - o) / d
      let t2 := (hi - o) / d
      let far := max t1 t2
      boxAxes rest (max tin (min t1 t2)) (some (match tout with
        | some t => min t far
        | none => far))

/-- boxhit of R266. -/
def Ray.boxhit (r : Ray) (b : Box) : Option Rat :=
  boxAxes ((List.range 3).map (fun a =>
    (r.o.axes[a]?.getD 0, r.d.axes[a]?.getD 0, b.lo[a]?.getD 0, b.hi[a]?.getD 0))) r.tmin r.tmax

/-- The order of hits (R266). -/
def Hit.before (a b : Hit) : Bool :=
  if a.t ≠ b.t then a.t < b.t else if a.prim ≠ b.prim then decide (a.prim < b.prim) else decide (a.leaf < b.leaf)

/-- trihit: the exact solution of R267. -/
def Ray.trihit (r : Ray) (cull : Bool) (k : Nat) (l : Leaf) : Option Hit :=
  match l.tri with
  | none => none
  | some (v0, v1, v2) =>
    let e1 := v1.sub v0
    let e2 := v2.sub v0
    let side := r.d.dot (e1.cross e2)
    let p := r.d.cross e2
    let det := e1.dot p
    if det = 0 then none
    else
      let s := r.o.sub v0
      let q := s.cross e1
      let b1 := s.dot p / det
      let b2 := r.d.dot q / det
      let t := e2.dot q / det
      if 0 ≤ b1 ∧ 0 ≤ b2 ∧ b1 + b2 ≤ 1 ∧ r.tmin ≤ t ∧ upTo t r.tmax ∧ !(cull && decide (0 < side)) then
        some ⟨t, b1, b2, k, l.prim, l.inst, l.node, decide (0 < side)⟩
      else none

/-! ## The traversal (R265, R266, R271) -/

/-- How a lane's traversal ends: a status with its best hit and visits; or it meets a node that is unmapped, or of far
memory that does not answer, and stops there; or it meets poison. -/
inductive TraceEnd where
  | done (status : Nat) (best : Option Hit) (visits : Nat)
  | absent (va cause : Nat) (at_ : TraceStop)
  | far (va pa : Nat) (at_ : TraceStop)
  | poison (va visits : Nat)
  | paused (at_ : TraceStop)
  deriving DecidableEq, Repr

/-- What a node read gives. -/
inductive NodeRead where
  | bytes (bs : List Byte)
  | absent (cause : Nat)
  | far (pa : Nat)
  | poison
  deriving DecidableEq, Repr

/-- Read a node whole through the node cache of a G-die (R265); `n` is the number of visits before it. -/
def State.readNode (s : State) (e : Env) (die : Bool) (va n : Nat) : State × NodeRead :=
  match (if validVa va then s.walk e.ptroot va else .fault 0) with
  | .fault c => (s, .absent c)
  | .page p =>
    let line := p.pa / 64
    let hit := s.nodeCache.find? (fun (r, d, l) => r == e.rcb && d == die && l.line == line)
    match (if Config.nodeKept s.stamp n then hit else none) with
    | some (_, _, l) => (s, .bytes l.bytes)
    | none =>
      if !s.reaches p 64 true then (s, .far p.pa)
      else
        let s := s.touchL2 e p.pa 0 (p.type == .far)
        if s.poisoned p.pa 64 then (s, .poison)
        else
          let bs := s.homeRead p.pa 64
          ({ s with nodeCache := (e.rcb, die, ⟨line, bs⟩) ::
              s.nodeCache.filter (fun (r, d, l) => !(r == e.rcb && d == die && l.line == line)) }, .bytes bs)

/-- Insert an entry so that the least parameter comes first, behind its equals. -/
def pushChild (x : StackEntry) : List StackEntry → List StackEntry
  | [] => [x]
  | y :: ys => if x.tin < y.tin then x :: y :: ys else y :: pushChild x ys

/-- The loop of R266: `stack` latest first, `n` visits so far; `fuel` is one more than the visits left, `last` the number of
visits at which it pauses (R274). -/
def State.traceLoop (s : State) (e : Env) (die : Bool) (sc : Scene) (r : Ray) (anyHit : Bool) (last : Nat) :
    Nat → List StackEntry → Option Hit → Nat → State × TraceEnd
  | 0, _, best, n => (s, .done 2 best n)
  | fuel + 1, stack, best, n =>
    match stack.dropWhile (fun x => (best.map (fun h => decide (h.t < x.tin))).getD false) with
    | [] => (s, .done (if best.isSome then 1 else 0) best n)
    | x :: rest =>
      if fuel = 0 then (s, .done 2 best n)
      else if last ≤ n then (s, .paused ⟨x :: rest, best, n⟩)
      else
        let va := (sc.base + 64 * x.k) % 2 ^ 64
        match s.readNode e die va n with
        | (s, .absent c) => (s, .absent va c ⟨x :: rest, best, n⟩)
        | (s, .far pa) => (s, .far va pa ⟨x :: rest, best, n⟩)
        | (s, .poison) => (s, .poison va (n + 1))
        | (s, .bytes b) =>
          if x.leaf then
            match Leaf.ofBytes b with
            | none => (s, .done 7 none (n + 1))
            | some l =>
              let best := match r.trihit sc.cull x.k l, best with
                | some h, some o => if h.before o then some h else some o
                | some h, none => some h
                | none, o => o
              if anyHit && best.isSome then (s, .done 1 best (n + 1))
              else s.traceLoop e die sc r anyHit last fuel rest best (n + 1)
          else
            match childrenOf sc.cnt b with
            | none => (s, .done 7 none (n + 1))
            | some cs =>
              let new := cs.foldl (fun l c => match r.boxhit c.box with
                | some t => pushChild ⟨c.index, c.leaf, t⟩ l
                | none => l) []
              s.traceLoop e die sc r anyHit last fuel (new ++ rest) best (n + 1)

/-- One lane's traversal (R266) goes on for some visits: from the root, or from where it stopped (R271, R274). -/
def State.traverse (s : State) (e : Env) (die : Bool) (sc : Scene) (anyHit : Bool) (w : List Word) (stop : Option TraceStop)
    (visits : Nat) : State × TraceEnd :=
  match Ray.ofWords w with
  | none => (s, .done 4 none 0)
  | some r =>
    let b := stop.getD ⟨[⟨0, false, r.tmin⟩], none, 0⟩
    s.traceLoop e die sc r anyHit (b.visits + visits) (65537 - b.visits) b.stack b.best b.visits

/-! ## The RAY words (R268 to R270, R272, R273) -/

/-- The words of a lane that TCALL sends: ray, control, spill address, payload. -/
def State.callData (s : State) (a p l : Nat) : List Word := s.laneData a 11 l ++ s.laneData 0 p l

/-- The lanes that fail TCALL's checks, each with its cause (R269). -/
def State.callBad (s : State) (p a : Reg) : List (Nat × Nat × Nat) :=
  let k := s.thr.kern
  (lanesIn s.active).filterMap (fun l =>
    let size := (laneOf (s.rdVn (a.toNat + 8)) l).toNat / 2 ^ 16 % 2 ^ 11
    if k.payregs < p.toNat then some (l, 0, 1)
    else if k.spill < size then some (l, 0, 2)
    else if size % 16 ≠ 0 then some (l, 0, 3)
    else none)

/-- Every active lane ends with the results of a miss and status 8: its descriptor is poisoned (R269). -/
def rayPoison (fn : Nat) : List Word :=
  if fn = 2 then [8] else [0x7F800000, 0xFFFFFFFF, 0xFFFFFFFF, 0, 0, 8]

/-- TRACE, TRACEA and TCALL up to their parking (R269): the descriptor as SMP words check it, TCALL's own checks and wait. -/
def rayWord (fn : Nat) (p : Nat) (bad : List (Nat × Nat × Nat)) (d : Reg) (data : Nat → List Word) (sp : BitVec 5) (s : State) :
    State :=
  let va := (s.base sp).toNat
  if s.stage = 2 then s
  else if s.stage = 1 then s.parkAt { s.parkedHere with stage := 1 }
  else if va % 64 ≠ 0 then s.trapGroup clsALIGN 0 (s.base sp) s.active
  else if !validVa va then s.trapGroup clsPROT 1 (s.base sp) s.active
  else
    match s.waveWalk s.thr.env.ptroot va with
    | .fault c => s.smpPark none [] s.active [(onceLane, va, c)]
    | .page pg =>
      if pg.type ≠ .normal then s.trapGroup clsPROT 0 (s.base sp) s.active
      else
        match s.samplerRead pg.pa 64 0 with
        | (s, none) =>
          if s.thr.env.propagate then
            let vs := rayPoison fn
            let lanes := lanesIn s.active
            let t := { s.thr with ray := tableOf (fun l =>
              if lanes.contains l then ⟨0, 0xFFFFFFFF, false⟩ else s.thr.ray[l]?.getD ⟨0, 0xFFFFFFFF, false⟩) }
            ({ s with thr := t } : State).flyVectors 2 d vs.length
              (lanes.flatMap (fun l => ((List.range vs.length).zip vs).map (fun (i, x) => (l, i, x))))
          else s.flyRead 2 true d.toNat (if fn = 2 then 1 else 6) [] ((lanesIn s.active).map (fun l => (l, va)))
        | (s, some b) =>
          if (Scene.ofBytes b).isNone then s.trapWord clsSMPFLT 1
          else
            match bad with
            | (_, _, c0) :: rest =>
              s.trapGroup clsPAYLOAD (rest.foldl (fun c (_, _, x) => min c x) c0) 0 (s.failLanes bad)
            | [] =>
              if fn = 2 ∧ !s.released s.thr.key then s.parkRel
              else
                let todo := (lanesIn s.active).map (fun l =>
                  (⟨l, 0, 0, ⟨0, .normal, false, false, false, false, 0⟩, data l, none, none, 0⟩ : LaneAcc))
                if todo.isEmpty then s
                else
                  let f := s.newFlight (.ray fn p b) 2 false d.toNat (if fn = 2 then 1 else 6) 0 todo []
                  (s.fly f).parkAt { s.parkedHere with stage := 1, id := f.op }

/-- TRACE: the closest hit (R270). -/
def execTrace (d a : Reg) (p : BitVec 5) (s : State) : Out := .next (rayWord 0 0 [] d (s.laneData a.toNat 8) p s)

/-- TRACEA: any hit (R270). -/
def execTracea (d a : Reg) (p : BitVec 5) (s : State) : Out := .next (rayWord 1 0 [] d (s.laneData a.toNat 8) p s)

/-- TCALL: the closest hit, and a record for its node (R272). -/
def execTcall (p a : Reg) (sp : BitVec 5) (s : State) : Out :=
  .next (rayWord 2 p.toNat (s.callBad p a) (a + 8) (s.callData a.toNat p.toNat) sp s)

/-- TRRES: what the lanes keep of their latest RAY word (R273). -/
def execTrres (d : Reg) (s : State) : Out :=
  let r (l : Nat) : RayResult := s.src.ray[l]?.getD ⟨0, 0xFFFFFFFF, false⟩
  .next (((s.wrVn d.toNat (fun l => (r l).visits) .g).wrVn (d.toNat + 1) (fun l => (r l).leaf) .g).wrVn (d.toNat + 2)
    (fun l => if (r l).back then 1 else 0) .g)

/-! ## Events -/

/-- The values a lane keeps until its word completes: t, PRIM, INST, u, v, status, visits, leaf, back face, target node,
and whether a record goes there (R270, R272, R273). -/
def rayValues (sc : Scene) (status : Nat) (best : Option Hit) (visits : Nat) : List Word :=
  let n (x : Nat) : Word := BitVec.ofNat 32 x
  match best with
  | some h => [fp32Of h.t, n h.prim, n h.inst, fp32Of h.b1, fp32Of h.b2, n status, n visits, n h.leaf, if h.back then 1 else 0, h.node,
      if h.node = 0xFFFFFFFF then 0 else 1]
  | none => [0x7F800000, 0xFFFFFFFF, 0xFFFFFFFF, 0, 0, n status, n visits, 0xFFFFFFFF, 0, n sc.miss, if status = 0 ∨ status = 2 then 1 else 0]

/-- The depth that TCALL's control word names (R268). -/
def callDepth (data : List Word) : Nat := (data[8]?.getD 0).toNat % 64

/-- Where a lane's traversal stopped, if it did (R271). -/
def Flight.stop? (f : Flight) (lane : Nat) : Option TraceStop := (f.stops.find? (fun x => x.1 == lane)).map Prod.snd

/-- A lane's traversal is over: its values are kept, 11 of them, and behind them the words it sent. -/
def State.rayDone (s : State) (id : Nat) (a : LaneAcc) (vals : List Word) : State :=
  s.modFlight id (fun f => { f with
    todo := f.todo.filter (fun b => b.lane != a.lane)
    ready := f.ready ++ ((List.range (vals.length + a.data.length)).zip (vals ++ a.data)).map (fun (i, v) => (a.lane, i, v)) })

/-- TRACE_LANE_FINISH: one lane's traversal runs to its end, to a node that is not there, or for as many visits as the event
says, between which stores may land (R266, R269, R271, R274). -/
def execTraceLaneFinish (id : Nat) (lane : LaneVisits) (s : State) : Out :=
  match s.flight? id with
  | none => .next s
  | some f =>
    match f.work, f.todo.find? (fun a => a.lane == lane.lane), s.thread? f.key with
    | .ray fn _ desc, some a, some t =>
      match Scene.ofBytes desc with
      | none => .next s
      | some sc =>
        if a.wait.isSome then .next s
        else if fn = 2 ∧ t.kern.depth < callDepth a.data + 1 then .next (s.rayDone id a (rayValues sc 3 none 0))
        else
          let cl := portCluster (s.portOf f.key)
          let wait (s : State) (cls va pa cause : Nat) (stop : TraceStop) : State :=
            let (s, rec) := s.addFault cl t.env.rcb va 7 cls cause
            s.modFlight id (fun f => { f with
              stops := (lane.lane, stop) :: f.stops.filter (fun x => x.1 != lane.lane)
              todo := f.todo.map (fun b => if b.lane = lane.lane then { b with wait := some rec, va := va, pa := pa } else b) })
          match s.traverse t.env (cl % 2 == 1) sc (fn == 1) (a.data.take 8) (f.stop? lane.lane) lane.visits with
          | (s, .done st best n) => .next (s.rayDone id a (rayValues sc st best n))
          | (s, .paused stop) =>
            .next (s.modFlight id (fun f => { f with stops := (lane.lane, stop) :: f.stops.filter (fun x => x.1 != lane.lane) }))
          | (s, .absent va c stop) => .next (wait s 1 va 0 c stop)
          | (s, .far va pa stop) => .next (wait s 2 va pa 2 stop)
          | (s, .poison va n) =>
            if t.env.propagate then .next (s.rayDone id a (rayValues sc 8 none n))
            else .next (s.modFlight id (fun f => { f with
              todo := f.todo.filter (fun b => b.lane != lane.lane), bad := f.bad ++ [(lane.lane, va)] }))
    | _, _, _ => .next s

/-- The value of a finished lane. -/
def Flight.rayVal (f : Flight) (lane i : Nat) : Word :=
  ((f.ready.find? (fun (l, r, _) => l == lane && r == i)).map (fun (_, _, x) => x)).getD 0

/-- The words that a finished lane sent. -/
def Flight.rayData (f : Flight) (lane : Nat) : List Word :=
  (f.ready.filter (fun (l, r, _) => l == lane && decide (11 ≤ r))).map (fun (_, _, x) => x)

/-- The lanes of a flight that have finished, in ascending order. -/
def Flight.rayLanes (f : Flight) : List Nat := laneNums.filter (fun l => f.ready.any (fun (x, _, _) => x == l))

/-- The record that TCALL appends for a lane (R272): `data` are the lane's words, `g` its global identifier. -/
def callRecord (f : Flight) (lane p recBytes g : Nat) (data : List Word) : List Byte :=
  let w (i : Nat) : Word := data[i]?.getD 0
  let head := (List.range 6).map (f.rayVal lane) ++ (List.range 6).map w ++ [w 9, w 10]
  let bs := bytesOfWords head ++ bytesOfNat 2 ((w 8).toNat / 2 ^ 16 % 2 ^ 11) ++ bytesOfNat 1 (callDepth data + 1) ++ bytesOfNat 1 p ++
    bytesOfNat 4 g ++ bytesOfWords ((List.range p).map (fun i => w (11 + i)))
  bs ++ List.replicate (recBytes - bs.length) 0

/-- One lane's record is appended; the status the lane gets (R270, R272). -/
def State.callLane (s : State) (t : Thread) (f : Flight) (p lane : Nat) (data : List Word) : State × Word :=
  let status := f.rayVal lane 5
  if f.rayVal lane 10 = 0 then (s, status)
  else
    let n := s.imageNode t.kern (f.rayVal lane 9).toNat
    match s.node? t.env.rcb n with
    | none => (s, 6)
    | some q =>
      if q.recBytes < 64 + 4 * p then (s, 6)
      else
        match s.appendRecord t.env.rcb n (callRecord f lane p q.recBytes (t.lane lane) data) false with
        | some s => (s, status)
        | none => (s, 5)

/-- A split parked at the word with a number in program order, of a thread's current or base level, goes on to a stage
of its own. -/
def Thread.wordStage (t : Thread) (op stage : Nat) : Thread :=
  let f (p : ParkedWord) : ParkedWord := if p.id = op then { p with stage := stage, go := true } else p
  t.mapSplits (fun e => { e with parked := e.parked.map f, also := e.also.map f })

/-- TRACE_COMPLETE: every lane of the word has finished; its records are appended, its results written at once with tag
G, its split released (R269, R270, R272, R273). Lanes whose node was denied, or with none denied those that met poison,
are left to a precise trap (R271). -/
def execTraceComplete (id : Nat) (s : State) : Out :=
  match s.flight? id with
  | none => .next s
  | some f =>
    match f.work, s.thread? f.key with
    | .ray fn p _, some t =>
      if !f.todo.isEmpty then .next s
      else if f.denied.isEmpty ∧ !f.bad.isEmpty then
        .next (({ s with flights := s.flights.filter (fun x => x.id != id) } : State).poisonTrap { f with later := false })
      else
        let lanes := f.rayLanes
        let (s, sts) := if fn = 2 then
            lanes.foldl (fun (acc : State × List (Nat × Word)) l =>
              let (s, x) := acc.1.callLane t f p l (f.rayData l)
              (s, acc.2 ++ [(l, x)])) (s, [])
          else (s, [])
        let val (l r : Nat) : Word :=
          if fn = 2 then ((sts.find? (fun (x, _) => x == l)).map Prod.snd).getD 0 else f.rayVal l r
        let m := maskOf (fun l => lanes.contains l)
        let write (t : Thread) : Thread :=
          let t := (List.range f.count).foldl (fun t r => t.wrV s.stamp (f.dst + r) m (fun l => val l r) .g) t
          { t with ray := tableOf (fun l =>
            if lanes.contains l then ⟨f.rayVal l 6, f.rayVal l 7, f.rayVal l 8 == 1⟩ else t.ray[l]?.getD ⟨0, 0xFFFFFFFF, false⟩) }
        let s := if lanes.isEmpty then s else s.modThread f.key write
        let s : State := { s with flights := s.flights.filter (fun x => x.id != id) }
        match f.denied with
        | [] => .next (s.modThread f.key (fun t => t.wordStage f.op 2))
        | (l0, va0, c0) :: rest =>
          let (va, c) := rest.foldl (fun (b : Nat × Nat) (_, va, c) => if va < b.1 then (va, c) else b) (va0, c0)
          let out := maskOf (fun l => l == l0 || rest.any (fun (x, _, _) => x == l) || f.bad.any (fun (x, _) => x == l))
          match s.focus f.key with
          | none => .next s
          | some s =>
            .next (s.trapAsync f.sp f.inBase
              { cls := clsPAGE, cause := c, pc := f.at_.pc, slot := f.at_.slot, oslot := f.at_.slot, replay := true
                addr := BitVec.ofNat 64 va, lanes := out })
    | _, _ => .next s

end Sys2Proof.Machine
end

