-- ==== Sys2Proof/Machine/Hamper.lean ====
section
/-! DEFINITION. Hamper: tensor descriptors, copy commands, the HAMP words, and the events of the copy engine; the release
of range locks (R186, R304 to R321). -/

namespace Sys2Proof.Machine

/-! ## Descriptors and commands (R304, R305) -/

/-- A signed field of `n` bytes. -/
def intAt (b : List Byte) (i n : Nat) : Int := sext (fieldAt b i n) (8 * n)

/-- What a descriptor and a command say of a copy. -/
structure Copy where
  base   : Int
  six    : Bool
  size   : Nat
  efmt   : Nat
  step   : List Int
  lo     : List Int
  hi     : List Int
  origin : List Int
  count  : List Nat
  fill   : Nat
  span   : Nat
  turn   : Nat
  perm   : List Nat
  bar    : Option Nat
  red    : Nat
  off    : Nat
  fillC  : Nat
  rfmt   : Nat
  recv   : List Nat
  deriving DecidableEq, Repr

/-- Entry i of a list of integers. -/
def iget (l : List Int) (i : Nat) : Int := l[i]?.getD 0
/-- Entry i of a list of numbers. -/
def nget (l : List Nat) (i : Nat) : Nat := l[i]?.getD 0

/-- Elements of the image's dimension 0. -/
def Copy.row (c : Copy) : Nat := nget c.count (nget c.perm 0)

/-- Elements of the box. -/
def Copy.total (c : Copy) : Nat := c.count.foldl (· * ·) 1

/-- Bytes of some elements of the image. -/
def Copy.bytes (c : Copy) (n : Nat) : Nat := if c.six then n * 6 / 8 else n * c.size

/-- The bytes of the image. -/
def Copy.imageBytes (c : Copy) : Nat := c.bytes c.total

/-- The copy that a descriptor and a command name, whatever their limits; `fn` is the word's FN: 0 HLOAD, 1 HSTORE,
2 HMCAST, 3 HPREF. -/
def Copy.read (d m : List Byte) : Copy :=
  let f := fieldAt m
  let order := f 32 2
  { base := fieldAt d 0 8, six := fieldAt d 8 1 == 5, size := if fieldAt d 8 1 = 5 then 1 else 2 ^ fieldAt d 8 1
    efmt := fieldAt d 9 1
    step := (List.range 5).map (fun i => intAt d (16 + 8 * i) 8)
    lo := (List.range 5).map (fun i => intAt d (56 + 4 * i) 4)
    hi := (List.range 5).map (fun i => intAt d (76 + 4 * i) 4)
    origin := (List.range 5).map (fun i => intAt m (4 * i) 4)
    count := (List.range 5).map (fun i => f (20 + 2 * i) 2)
    fill := f 30 1 % 4
    span := if f 31 1 % 4 = 0 then 0 else 32 * 2 ^ (f 31 1 % 4)
    turn := f 31 1 / 4 % 8 + 1
    perm := if order = 0 then List.range 5 else (List.range 5).map (fun i => order / 8 ^ i % 8)
    bar := if f 34 1 / 16 % 2 = 1 then some (f 34 1 % 16) else none
    red := f 35 1, off := f 36 4, fillC := f 40 16, rfmt := f 56 1
    recv := (List.range (f 57 1)).map (fun i => (f 60 4 + i * f 58 2) % 2 ^ 32) }

/-- The descriptor's fields lie inside R304. -/
def descOk (d : List Byte) : Bool :=
  let f := fieldAt d
  let c := Copy.read d []
  decide (f 8 1 ≤ 5) && decide (f 9 1 < 15) && f 10 6 == 0 && f 96 32 == 0 && f 0 8 % c.size == 0 &&
    (List.range 5).all (fun i => iget c.step i % c.size == 0 && decide (iget c.lo i ≤ iget c.hi i)) &&
    (!c.six || (iget c.step 0 == 0 && decide (0 ≤ iget c.lo 0)))

/-- Width in bits of a reduction's format. -/
def redWidth (r : Nat) : Nat := if r = 0 ∨ r = 8 then 32 else 16

/-- The command's fields lie inside R305. -/
def commandOk (fn : Nat) (m : List Byte) : Bool :=
  let f := fieldAt m
  let reads := fn == 0 || fn == 2
  let span := if f 31 1 % 4 = 0 then 16 else 32 * 2 ^ (f 31 1 % 4)
  (List.range 5).all (fun i => decide (1 ≤ f (20 + 2 * i) 2 ∧ f (20 + 2 * i) 2 ≤ 1024)) &&
    (!reads || decide (f 30 1 < 4)) && decide (f 31 1 < 32) && (f 31 1 % 4 != 0 || f 31 1 == 0) && decide (f 32 2 < 2 ^ 15) &&
    decide (f 34 1 < 32) && (if fn = 1 then decide (f 35 1 ≤ 3) else f 35 1 == 0) && f 36 4 % span == 0 &&
    (if f 35 1 = 0 then f 56 1 == 0 else decide (f 56 1 ≤ 2) || f 56 1 == 8) &&
    (if fn = 2 then decide (1 ≤ f 57 1 ∧ f 57 1 ≤ 16 ∧ f 58 2 ≠ 0) else f 57 1 == 0 && f 58 2 == 0 && f 60 4 == 0)

/-- The command is consistent with its descriptor (R305). -/
def Copy.consistent (c : Copy) (fn : Nat) : Bool :=
  let reads := fn == 0 || fn == 2
  let nan := reads && c.fill == 1
  (!nan || (decide (c.efmt ≤ 4) && !c.six && codeWidth c.efmt == 8 * c.size)) &&
    (!c.six || (nget c.perm 0 == 0 && iget c.origin 0 % 4 == 0 && nget c.count 0 % 4 == 0 && c.red == 0)) &&
    (List.range 5).all (fun i => c.perm.contains i) && (c.red == 0 || redWidth c.rfmt == 8 * c.size) &&
    (c.bar.isNone || reads) && (c.span == 0 || c.bytes c.row % c.span == 0)

/-! ## Elements and the image (R306, R307) -/

/-- The box coordinates of image element j. -/
def Copy.coords (c : Copy) (j : Nat) : List Nat :=
  let es := (c.perm.foldl (fun (acc : List (Nat × Nat) × Nat) p =>
    (acc.1 ++ [(p, acc.2 % nget c.count p)], acc.2 / nget c.count p)) ([], j)).1
  (List.range 5).map (fun i => ((es.find? (fun x => x.1 == i)).map Prod.snd).getD 0)

/-- The tensor coordinates of image element j. -/
def Copy.place (c : Copy) (j : Nat) : List Int :=
  let es := c.coords j
  (List.range 5).map (fun i => iget c.origin i + nget es i)

/-- The coordinates lie in bounds. -/
def Copy.inBounds (c : Copy) (x : List Int) : Bool :=
  (List.range 5).all (fun i => decide (iget c.lo i ≤ iget x i ∧ iget x i ≤ iget c.hi i))

/-- The coordinates brought into bounds. -/
def Copy.clamp (c : Copy) (x : List Int) : List Int := (List.range 5).map (fun i => clampInt (iget x i) (iget c.lo i) (iget c.hi i))

/-- Where an element lies in memory: its first byte, its bytes, and the bit at which a packed element starts. -/
structure ElemAt where
  addr : Int
  n    : Nat
  bit  : Nat
  deriving DecidableEq, Repr

/-- The place of the element at tensor coordinates. -/
def Copy.elemAt (c : Copy) (x : List Int) : ElemAt :=
  let row := c.base + (List.range 4).foldl (fun t i => t + iget x (i + 1) * iget c.step (i + 1)) (0 : Int)
  if c.six then
    let b := (6 * iget x 0).toNat
    ⟨row + (b / 8 : Nat), if 2 < b % 8 then 2 else 1, b % 8⟩
  else ⟨row + iget x 0 * iget c.step 0, c.size, 0⟩

/-- The element of memory that image element j stands for, if it stands for one: in bounds, or repeated at the edge. -/
def Copy.source (c : Copy) (j : Nat) : Option ElemAt :=
  let x := c.place j
  if c.inBounds x then some (c.elemAt x) else if c.fill = 3 then some (c.elemAt (c.clamp x)) else none

/-- The element of memory that image element j is stored to, if it lies in bounds. -/
def Copy.target (c : Copy) (j : Nat) : Option ElemAt :=
  let x := c.place j
  if c.inBounds x then some (c.elemAt x) else none

/-- What fills an element (R306); zero where the value at the edge cannot be read (R317). -/
def Copy.fillValue (c : Copy) : Nat :=
  match c.fill with
  | 1 => (FFmt.ofCode c.efmt).canon.toNat
  | 2 => c.fillC % (if c.six then 64 else 2 ^ (8 * c.size))
  | _ => 0

/-- The image's bytes from its elements' values (R307). -/
def Copy.pack (c : Copy) (vals : List Nat) : List Byte :=
  if c.six then bytesOfNat c.imageBytes (vals.reverse.foldl (fun t v => t * 64 + v % 64) 0)
  else vals.flatMap (bytesOfNat c.size)

/-- Where the byte at an offset of the image lies once rotated (R307). -/
def Copy.rotate (c : Copy) (o : Nat) : Nat :=
  if c.span = 0 then o
  else
    let r := o / c.bytes c.row
    o - o % c.span + (o % c.span + 16 * (r * c.turn % (c.span / 16))) % c.span

/-- The byte of the image that lies at an offset once rotated. -/
def Copy.unrotate (c : Copy) (o : Nat) : Nat :=
  if c.span = 0 then o
  else
    let r := o / c.bytes c.row
    o - o % c.span + (o % c.span + c.span - 16 * (r * c.turn % (c.span / 16))) % c.span

/-- The image as it lies in the CLM. -/
def Copy.rotated (c : Copy) (image : List Byte) : List Byte := (List.range image.length).map (fun o => image[c.unrotate o]?.getD 0)

/-- The offsets of the image's bytes that element j fills, and the bit at which it starts. -/
def Copy.imageAt (c : Copy) (j : Nat) : Nat × Nat × Nat :=
  if c.six then (6 * j / 8, if 2 < 6 * j % 8 then 2 else 1, 6 * j % 8) else (c.size * j, c.size, 0)

/-! ## Ranges (R318) -/

/-- The lowest and highest byte of some elements that have a valid address. -/
def elemRange (es : List ElemAt) : Option (Nat × Nat) :=
  es.foldl (fun b e =>
    if decide ((0 : Int) ≤ e.addr) && decide (e.addr + (e.n : Int) ≤ (2 ^ 57 : Int)) then
      let lo := e.addr.toNat
      let hi := lo + e.n - 1
      match b with
      | some (l, h) => some (min l lo, max h hi)
      | none => some (lo, hi)
    else b) none

/-- The range of memory that a copy reads or writes. -/
def Copy.memRange (c : Copy) (fn : Nat) : Option (Nat × Nat) :=
  elemRange ((List.range c.total).filterMap (if fn = 1 then c.target else c.source))

/-- The copy of an operation. -/
def HamperOp.copy (o : HamperOp) : Copy := Copy.read o.desc o.command

/-- The lock on memory of an operation. -/
def HamperOp.memLock (o : HamperOp) : List Lock :=
  match o.copy.memRange o.fn with
  | some (lo, hi) => [⟨false, lo, hi, o.fn == 1, o.id⟩]
  | none => []

/-- The lock on an image in a window. -/
def HamperOp.imageLock (o : HamperOp) (win : Nat) : Lock := Lock.clmRange o.id win o.copy.off o.copy.imageBytes (o.fn != 1)

/-- The locks that an operation registers, each with its cluster: memory in the issuing cluster, the image there or in
every receiving cluster. -/
def State.hamperLocks (s : State) (cl : Nat) (o : HamperOp) : List (Nat × Lock) :=
  o.memLock.map (fun l => (cl, l)) ++
    (if o.fn = 1 then [(cl, o.imageLock o.win)]
     else (o.shares.filterMap s.group?).filterMap (fun g => g.window.map (fun w => (clusterOf g.core, o.imageLock w))))

/-- An entry of a cluster is that of the image of one of some shares. -/
def State.shareLock (s : State) (o : HamperOp) (shares : List Nat) (cl : Nat) (l : Lock) : Bool :=
  (shares.filterMap s.group?).any (fun g => g.window.any (fun w => clusterOf g.core == cl && l == o.imageLock w))

/-- An HMCAST, its box read and a share landed, keeps the entries of the shares still to come and no other (R186, R318). -/
def State.shareDone (s : State) (o : HamperOp) (left : List Nat) : State :=
  { s with clusters := s.clusters.map (fun c => { c with
      locks := c.locks.filter (fun (_, l) => l.op != o.id || s.shareLock o left c.id l) }) }

/-! ## The words (R309) -/

/-- Receivers of an HMCAST, if each stands as R312 asks. -/
def State.receivers (s : State) (c : Copy) : Option (List Nat) :=
  c.recv.mapM (fun ix =>
    (s.groups.find? (fun g => g.disp == s.thr.disp && g.index.toNat == ix)).bind (fun g =>
      match g.status with
      | .saved _ => some g.id
      | .resident | .frozen | .shadow | .saving _ => if g.core / 160 = s.thr.core / 160 then some g.id else none))

/-- HLOAD, HSTORE, HMCAST and HPREF (R309): steps 1 to 5; steps 6 and 7 of the first three are HAMPER_OP_START's. -/
def hamperWord (fn : Nat) (d a : Reg) (p : BitVec 5) (h : BitVec 2) (s : State) : State :=
  if s.stage = 2 then s
  else if s.stage = 1 then s.parkAt { s.parkedHere with stage := 1 }
  else
    match s.readClm (s.rdS a).toNat 64 64 with
    | .stop s => s
    | .bytes s _ m =>
      match s.readBlock (s.base p).toNat 128 128 recordNormal with
      | .stop s => s
      | .bytes s _ desc =>
        let c := Copy.read desc m
        if !(descOk desc && commandOk fn m && c.consistent fn) then s.flyScalars 3 d [0x80000002]
        else if s.thr.kern.clmBytes < c.off + c.imageBytes then s.trapClm clsPROT 2 c.off
        else if fn = 3 then
          let es := (List.range c.total).filterMap c.target
          let s := es.foldl (fun s e =>
            (sectorRuns e.addr.toNat e.n).foldl (fun s (o, _) =>
              if 0 ≤ e.addr then
                match s.pageAt s.thr.env.ptroot (e.addr.toNat + o) with
                | some pg =>
                  if (pg.type = .normal ∨ pg.type = .far) ∧ s.linked pg then s.touchL2 s.thr.env pg.pa h (pg.type == .far) else s
                | none => s
              else s) s) s
          s.flyScalars 3 d [0]
        else
          match (if fn = 2 then s.receivers c else some [s.thr.key.wg]) with
          | none => s.flyScalars 3 d [0x80000007]
          | some rs =>
            let o : HamperOp :=
              { id := s.nextId, key := s.thr.key, sp := s.ctx.sp, word := s.opId, fn := fn, command := m, desc := desc, hint := h
                dst := d.toNat, root := s.thr.env.ptroot, rcb := s.thr.env.rcb, win := s.window s.thr.key.wg, locked := false
                started := false, image := none, shares := if fn = 1 then [] else rs, landed := false, waits := [], denied := []
                lines := [] }
            let s := s.modCluster s.myCluster (fun k => { k with hamper := k.hamper ++ [o] })
            ({ s with nextId := s.nextId + 1 } : State).parkAt { s.parkedHere with stage := 1, id := o.word }

/-- HLOAD: a box into the CLM (R310). -/
def execHload (d a : Reg) (p : BitVec 5) (h : BitVec 2) (s : State) : Out := .next (hamperWord 0 d a p h s)
/-- HSTORE: an image into memory, plainly or by reduction (R311). -/
def execHstore (d a : Reg) (p : BitVec 5) (h : BitVec 2) (s : State) : Out := .next (hamperWord 1 d a p h s)
/-- HMCAST: a box into the windows of several workgroups (R312). -/
def execHmcast (d a : Reg) (p : BitVec 5) (h : BitVec 2) (s : State) : Out := .next (hamperWord 2 d a p h s)
/-- HPREF: a box's lines into their home slices (R313). -/
def execHpref (d a : Reg) (p : BitVec 5) (h : BitVec 2) (s : State) : Out := .next (hamperWord 3 d a p h s)

/-- HBATCH: close a batch (R314). -/
def execHbatch (d : Reg) (s : State) : Out :=
  let t := s.thr
  let n := t.ctl.hbatch + 1
  let t := { t with
    ctl := { t.ctl with hbatch := n }
    batches := if t.openOps.isEmpty then t.batches else t.batches ++ [⟨n, t.openOps⟩]
    openOps := [] }
  .next (({ s with thr := t } : State).wrS d n)

/-- m is not after n, modulo 2^32 (R314). -/
def notAfter (m n : Word) : Bool := decide ((n - m).toNat < 2 ^ 31)

/-- WAITB: wait for every batch up to one (R314). -/
def execWaitb (n : Reg) (s : State) : Out :=
  let x := s.rdS n
  let last := s.thr.ctl.hbatch
  let x := if notAfter x last then x else last
  .next (if s.thr.batches.any (fun b => notAfter b.num x) then s.parkRel else s)

/-- HQRY: what the range-lock table says of a byte (R315). -/
def execHqry (d a : Reg) (p : BitVec 5) (h : BitVec 2) (s : State) : Out :=
  let c := s.cluster s.myCluster
  let clm := h == 1
  let x := if clm then s.window s.thr.key.wg + (s.rdSn (2 * p.toNat) + s.rdS a).toNat else (s.eaS p a).toNat
  let hit (dest : Bool) : Bool := c.locks.any (fun (_, l) => l.clm == clm && l.dest == dest && decide (l.lo ≤ x ∧ x ≤ l.hi))
  let v := (if hit false then 1 else 0) + (if hit true then 2 else 0) + 2 ^ 16 * (64 - c.locks.length)
  .next (s.flyScalars 3 d [BitVec.ofNat 32 v])

/-! ## Elements in memory (R310, R311, R317) -/

/-- Where an element's bytes are: its runs (physical address, page, length), why it fails (the cause of R317), or what
holds the operation. -/
inductive ElemPages where
  | runs (rs : List (Nat × Page × Nat))
  | fail (cause : Nat)
  | hold (va pa cls cause : Nat)
  deriving DecidableEq, Repr

/-- The pages of an element's bytes. -/
def State.elemRuns (s : State) (o : HamperOp) (va : Nat) : List (Nat × Nat) → List (Nat × Page × Nat) → ElemPages
  | [], acc => .runs acc
  | (k, n) :: rest, acc =>
    let store := o.fn == 1
    if o.denied.contains (blockOf (va + k)) then .fail 1
    else
      match s.walk o.root (va + k) with
      | .fault c => .hold (va + k) 0 1 c
      | .page p =>
        if !(p.type == .normal || p.type == .far) || (store && (p.ro || p.ds || p.rec_)) then .fail 2
        else if s.poisoned p.pa n ∧ (!store ∨ o.copy.red ≠ 0) then .fail 3
        else if !s.reaches p n (!store) then .hold (va + k) p.pa 2 2
        else s.elemRuns o va rest (acc ++ [(p.pa, p, n)])

/-- The pages of an element. -/
def State.elemPages (s : State) (o : HamperOp) (e : ElemAt) : ElemPages :=
  if decide (e.addr < 0) || decide ((2 ^ 57 : Int) < e.addr + (e.n : Int)) then .fail 2
  else s.elemRuns o e.addr.toNat (sectorRuns e.addr.toNat e.n) []

/-- What stands in the way of an operation's elements, if anything does. -/
def State.hamperHeld (s : State) (o : HamperOp) : Option (Nat × Nat × Nat × Nat) :=
  let c := o.copy
  ((List.range c.total).filterMap (if o.fn = 1 then c.target else c.source)).findSome? (fun e =>
    match s.elemPages o e with
    | .hold va pa cls cause => some (va, pa, cls, cause)
    | .runs _ | .fail _ => none)

/-- Change an operation of a cluster. -/
def State.modHamper (s : State) (cl id : Nat) (f : HamperOp → HamperOp) : State :=
  s.modCluster cl (fun c => { c with hamper := c.hamper.map (fun o => if o.id = id then f o else o) })

/-- The operation waits for a page (R317). -/
def State.hamperWait (s : State) (cl : Nat) (o : HamperOp) (va pa cls cause : Nat) : State :=
  let (s, rec) := s.addFault cl o.rcb va 7 cls cause
  s.modHamper cl o.id (fun o => { o with waits := [(rec, pa, 16)] })

/-- An operation of a thread met an error: the first since ERR was clear is recorded (R317). -/
def State.hamperError (s : State) (o : HamperOp) (cause : Nat) : State :=
  s.modThread o.key (fun t =>
    if t.ctl.herr then t
    else
      let n := ((t.batches.find? (fun b => b.ops.contains o.id)).map Batch.num).getD (t.ctl.hbatch + 1)
      { t with ctl := { t.ctl with herr := true, hcause := BitVec.ofNat 3 cause, hbad := n.setWidth 28 } })

/-- The bits of an element read from its runs. -/
def State.elemValue (s : State) (c : Copy) (e : ElemAt) (rs : List (Nat × Page × Nat)) : Nat :=
  let x := natOfBytes (rs.flatMap (fun (pa, _, n) => s.homeRead pa n))
  if c.six then x / 2 ^ e.bit % 64 else x

/-- The box is read into the operation's image, unless a page holds it (R310). -/
def State.readBox (s : State) (cl : Nat) (o : HamperOp) : State :=
  if o.image.isSome then s
  else
    match s.hamperHeld o with
    | some (va, pa, cls, cause) => s.hamperWait cl o va pa cls cause
    | none =>
      let c := o.copy
      let (s, vals) := (List.range c.total).foldl (fun (acc : State × List Nat) j =>
        let (s, vs) := acc
        match c.source j with
        | none => (s, vs ++ [c.fillValue])
        | some e =>
          match s.elemPages o e with
          | .runs rs =>
            let s := rs.foldl (fun s (pa, p, _) => s.touchL2 (s.envOf o.key) pa o.hint (p.type == .far)) s
            (s, vs ++ [s.elemValue c e rs])
          | .fail k => (s.hamperError o k, vs ++ [if c.fill = 3 then 0 else c.fillValue])
          | .hold .. => (s, vs ++ [0])) (s, [])
      s.modHamper cl o.id (fun o => { o with image := some (c.pack vals) })

/-- The image is written for one receiver: into its window, or into its saved CLM image (R312, R320). -/
def State.landShare (s : State) (c : Copy) (image : List Byte) (wg : Nat) : State :=
  match s.group? wg with
  | none => s
  | some g =>
    let bytes := c.rotated image
    match g.status, g.window with
    | .saved area, _ => s.engineWrite (area + fieldAt (s.homeRead area 64) 32 8 + c.off) bytes
    | .resident, some w | .frozen, some w | .shadow, some w | .saving _, some w =>
      s.modCluster (clusterOf g.core) (fun k => k.clmWrite [(w + c.off, bytes)])
    | .resident, none | .frozen, none | .shadow, none | .saving _, none => s

/-- A delivery is counted down at a barrier of a receiver, in its context area too if it is saved (R316, R320). -/
def State.deliverShare (s : State) (wg b : Nat) : State :=
  let s := s.deliver wg b
  match s.group? wg with
  | some g => (match g.status with
    | .saved area =>
      let x := (g.bars[b]?.map Barrier.counter).getD 0
      s.engineWrite (area + 256 + 16 * b + 8) (bytesOfNat 4 x.toNat)
    | .resident | .frozen | .shadow | .saving _ => s)
  | none => s

/-! ## Stores and reductions (R311) -/

/-- BF16 minimum and maximum (R311). -/
def minmaxBf (hi : Bool) (x y : Word) : Word :=
  let a := key32 (x <<< 16)
  let b := key32 (y <<< 16)
  if isNan32 (x <<< 16) || isNan32 (y <<< 16) then FFmt.bf16.canon
  else if hi then (if a.toNat < b.toNat then y else x) else (if b.toNat < a.toNat then y else x)

/-- A reduction of a memory element and a stored one (R311). -/
def reduceElem (red rfmt : Nat) (m x : Word) : Word :=
  match red, rfmt with
  | 1, 0 => add32 m x
  | 1, 1 => (fadd .fp16 .rne 0 m x).v
  | 1, 2 => (fadd .bf16 .rne 0 m x).v
  | 1, _ => m + x
  | 2, 0 => minmax32 false m x
  | 2, 1 => minmax16 false m x
  | 2, 2 => minmaxBf false m x
  | 2, _ => sminW m x
  | _, 0 => minmax32 true m x
  | _, 1 => minmax16 true m x
  | _, 2 => minmaxBf true m x
  | _, _ => smaxW m x

/-- Bytes written at an element's home. -/
def State.hamperPut (s : State) (env : Env) (hint : BitVec 2) (rs : List (Nat × Page × Nat)) (bytes : List Byte) : State :=
  (rs.foldl (fun (acc : State × Nat) (pa, p, n) =>
    ((acc.1.engineWrite pa ((bytes.drop acc.2).take n)).l2Write env pa n hint (p.type == .far), acc.2 + n)) (s, 0)).1

/-- Where the byte at an offset of an operation's image lies in the cluster. -/
def HamperOp.clmAt (o : HamperOp) (c : Copy) (i : Nat) : Nat := o.win + c.off + c.rotate i

/-- Some byte of image element j is poisoned in the CLM (R317). -/
def HamperOp.imageBad (o : HamperOp) (c : Copy) (k : Cluster) (j : Nat) : Bool :=
  let (off, n, _) := c.imageAt j
  (List.range n).any (fun i => k.clmPoisoned (o.clmAt c (off + i)) 1)

/-- Image element j of a store reaches memory. R90 names a store that quantises among the users of its scales; R304 to R322
define none, and there is none here (log entry 124). -/
def State.storeElem (s : State) (o : HamperOp) (c : Copy) (k : Cluster) (j : Nat) : State :=
  match c.target j with
  | none => s
  | some e =>
    match s.elemPages o e with
    | .hold .. => s
    | .fail cause => s.hamperError o cause
    | .runs rs =>
      let (off, n, bit) := c.imageAt j
      let env := s.envOf o.key
      if o.imageBad c k j then
        (rs.foldl (fun s (pa, _, _) => s.poisonSector (sectorOf pa)) s).hamperError o 3
      else
        let x := natOfBytes ((List.range n).map (fun i => cellRead k.clm (o.clmAt c (off + i))))
        let old := natOfBytes (rs.flatMap (fun (pa, _, n) => s.homeRead pa n))
        if c.six then
          let v := x / 2 ^ bit % 64
          let new := old - (old / 2 ^ e.bit % 64) * 2 ^ e.bit + v * 2 ^ e.bit
          s.hamperPut env o.hint rs (bytesOfNat e.n new)
        else if c.red = 0 then s.hamperPut env o.hint rs (bytesOfNat c.size x)
        else s.hamperPut env o.hint rs (bytesOfNat c.size (reduceElem c.red c.rfmt (BitVec.ofNat 32 old) (BitVec.ofNat 32 x)).toNat)

/-- The sectors that image element j is stored to, by its runs of bytes in memory. -/
def State.storeRuns (s : State) (o : HamperOp) (c : Copy) (j : Nat) : List (Nat × Nat) :=
  match (c.target j).map (s.elemPages o) with
  | some (.runs rs) => rs.map (fun (pa, _, n) => (pa, n))
  | some (.fail _) => []
  | some (.hold ..) => []
  | none => []

/-- A plain store is done: its elements together write sectors whole, and each of these that it wrote none but good bytes to is
poisoned no more (R166, R311). A packed element and a reduction read the sector that they write. -/
def State.storeClean (s : State) (o : HamperOp) (c : Copy) (k : Cluster) : State :=
  if c.six || c.red ≠ 0 then s
  else
    { s with poison := s.poison.filter (fun x =>
        let js := (List.range c.total).filter (fun j => (s.storeRuns o c j).any (fun (pa, _) => sectorOf pa == x))
        js.any (o.imageBad c k) || !(List.range 32).all (fun i =>
          js.any (fun j => (s.storeRuns o c j).any (fun (pa, n) => decide (pa ≤ 32 * x + i ∧ 32 * x + i < pa + n))))) }

/-- The operation's data moves, as far as its pages allow: an HSTORE into memory, an HLOAD into its window. -/
def State.landHamper (s : State) (cl : Nat) (o : HamperOp) : State :=
  if o.landed then s
  else if o.fn = 1 then
    match s.hamperHeld o with
    | some (va, pa, cls, cause) => s.hamperWait cl o va pa cls cause
    | none =>
      let c := o.copy
      let k := s.cluster cl
      let lines := (((List.range c.total).flatMap (s.storeRuns o c)).map (fun (pa, _) => pa / 64)).dedup
      (((List.range c.total).foldl (fun s j => s.storeElem o c k j) s).storeClean o c k).modHamper cl o.id (fun o =>
        { o with landed := true, lines := lines })
  else
    let s := s.readBox cl o
    match (s.cluster cl).hamper.find? (fun x => x.id == o.id) with
    | some x =>
      (match x.image with
        | some image =>
          if x.fn = 0 then (s.landShare x.copy image o.key.wg).modHamper cl o.id (fun o => { o with shares := [], landed := true })
          else s
        | none => s)
    | none => s

/-! ## Events -/

/-- The cluster that issued an operation, and the operation. -/
def State.hamperOp? (s : State) (id : Nat) : Option (Nat × HamperOp) :=
  s.clusters.findSome? (fun c => (c.hamper.find? (fun o => o.id == id)).map (fun o => (c.id, o)))

/-- HAMPER_OP_START: a waiting word registers its ranges, and starts once a slot is free and its thread's own earlier
writes of its source are complete (R309 steps 6 and 7). -/
def execHamperOpStart (t : TKey) (sp : BitVec 2) (s : State) : Out :=
  match s.clusters.findSome? (fun c => (c.hamper.find? (fun o => o.key == t && o.sp == sp && !o.started)).map (fun o => (c.id, o))) with
  | none => .next s
  | some (cl, o) =>
    let ls := s.hamperLocks cl o
    let mine (k : Nat) : List Lock := (ls.filter (fun (n, _) => n == k)).map Prod.snd
    let clusters := (ls.map Prod.fst).dedup
    if !o.locked ∧ !clusters.all (fun k => (s.cluster k).lockRoom (mine k)) then .next s
    else
      let s := if o.locked then s
        else (clusters.foldl (fun s k => s.modCluster k (fun c => c.addLocks (mine k))) s).modHamper cl o.id (fun o =>
          { o with locked := true })
      let ahead := o.fn != 1 && (match o.copy.memRange o.fn with
        | some (lo, hi) => s.ownAhead t o.word lo hi
        | none => false)
      if 32 ≤ (s.cluster cl).hamper.countP HamperOp.started ∨ ahead then .next s
      else
        let s := s.modHamper cl o.id (fun o => { o with started := true })
        let inBase := ((s.thread? t).map (fun u => (u.base.map (fun (b, _) =>
          b.splits.toList.any (fun e => (e.map (fun (e : Split) => e.words.any (fun p => p.id == o.word))).getD false))).getD false)).getD false
        let s := s.modThread t (fun u => ({ u with openOps := u.openOps ++ [o.id] } : Thread).wordStage o.word 2)
        .next (s.fly
          { id := 0, op := o.word, key := t, sp := sp, splits := (1 : BitVec 4) <<< sp.toNat, pends := 0, inBase := inBase, cls := 3
            work := .result, scalar := true, dst := o.dst, count := 1, at_ := ⟨0, 0⟩, hint := 0, todo := [], ready := [(0, 0, 0)]
            later := false, bad := [], denied := [], ds := false })

/-- An operation's destination lines leave the L1 of the issuing cluster, and the scalar cache of the core of a wave that
issued it (R191). -/
def State.dropDest (s : State) (cl : Nat) (o : HamperOp) : State :=
  let s := s.modCluster cl (fun c => { c with l1 := c.l1.filter (fun l => !o.lines.contains l.line) })
  match s.group? o.key.wg with
  | some g =>
    if o.key.ix = 16 then s
    else s.modCore g.core (fun c => { c with scalar := c.scalar.filter (fun l => !o.lines.contains l.line) })
  | none => s

/-- An operation has completed: its destination lines are invalidated, its locks released, its thread's batches hold it no more
(R191, R314). -/
def State.endHamper (s : State) (cl id : Nat) : State :=
  let s := match (s.cluster cl).hamper.find? (fun o => o.id == id) with
    | some o => s.dropDest cl o
    | none => s
  let gone (t : Thread) : Thread :=
    { t with
      openOps := t.openOps.filter (· != id)
      batches := (t.batches.map (fun b => { b with ops := b.ops.filter (· != id) })).filter (fun b => !b.ops.isEmpty) }
  let s : State := { s with thr := gone s.thr, threads := s.threads.map gone }
  (s.modCluster cl (fun c => { c with hamper := c.hamper.filter (fun o => o.id != id) })).dropLocks id

/-- HAMPER_OP_COMPLETE: an operation's last element has been written (R310, R311, R314, R316). -/
def execHamperOpComplete (cluster id : Nat) (s : State) : Out :=
  match (s.cluster cluster).hamper.find? (fun o => o.id == id) with
  | none => .next s
  | some o =>
    if !o.started ∨ !o.waits.isEmpty then .next s
    else if o.fn = 2 then .next (if o.shares.isEmpty then s.endHamper cluster id else s)
    else
      let s := s.landHamper cluster o
      match (s.cluster cluster).hamper.find? (fun o => o.id == id) with
      | none => .next s
      | some x =>
        if !x.landed then .next s
        else
          let s := s.endHamper cluster id
          .next (match o.copy.bar with
            | some b => s.deliver o.key.wg b
            | none => s)

/-- HMCAST_SHARE_LAND: a receiver's share is complete (R186, R312, R316, R320). -/
def execHmcastShareLand (cluster id recv : Nat) (s : State) : Out :=
  match (s.cluster cluster).hamper.find? (fun o => o.id == id) with
  | none => .next s
  | some o =>
    if o.fn ≠ 2 ∨ !o.started ∨ !o.waits.isEmpty ∨ !o.shares.contains recv then .next s
    else
      let s := s.readBox cluster o
      match (s.cluster cluster).hamper.find? (fun o => o.id == id) with
      | none => .next s
      | some x =>
        match x.image with
        | none => .next s
        | some image =>
          let c := x.copy
          let s := ((s.landShare c image recv).modHamper cluster id (fun o => { o with shares := o.shares.erase recv })).shareDone x
            (x.shares.erase recv)
          .next (match c.bar with
            | some b => s.deliverShare recv b
            | none => s)

/-- An entry of a cluster's lock table is free again. -/
def Cluster.freeLock (c : Cluster) (n : Nat) : Cluster := { c with locks := c.locks.filter (fun (m, _) => m != n) }

/-- RANGE_LOCK_RELEASE: an operation's last access to a range has completed (R186). -/
def execRangeLockRelease (cluster entry : Nat) (s : State) : Out :=
  match (s.cluster cluster).locks.find? (fun (n, _) => n == entry) with
  | none => .next s
  | some (_, l) =>
    let free (s : State) : State := s.modCluster cluster (fun c => c.freeLock entry)
    match (s.cluster cluster).resv.find? (fun r => r.id == l.op), (s.cluster cluster).mvnb.find? (fun m => m.id == l.op),
        s.hamperOp? l.op with
    | some r, _, _ => if r.granted then .next (free (s.landResv cluster r)) else .next s
    | none, some m, _ => .next (free (s.landMvnb cluster m))
    | none, none, some (cl, o) =>
      if !o.started ∨ !o.waits.isEmpty then .next s
      else
        let s := if o.fn = 2 then s.readBox cl o else s.landHamper cl o
        (match s.hamperOp? l.op with
          | some (_, x) =>
            let gone := if x.fn = 2 then (if l.clm then !s.shareLock x x.shares cluster l else x.image.isSome) else x.landed
            .next (if gone then free s else s)
          | none => .next s)
    | none, none, none => .next s

end Sys2Proof.Machine
end

