-- ==== Sys2Proof/Machine/Launch.lean ====
section
/-! DEFINITION. WORK: LAUNCH, WGENQ, WGFIN (R327 to R333), and accepting a launch block. -/

namespace Sys2Proof.Machine

/-! ## Launch blocks (R328, R329) -/

/-- The kernel whose descriptor the loader mapped at a virtual address, with its image; a loading image's are unknown
(R51). The address is read under the page tables of the region the image was loaded for. -/
def State.findKern (s : State) (root kdesc : Nat) : Option (Image × Kern) :=
  s.images.findSome? (fun i =>
    if i.loading || !(((s.resolveEnv i.rcb).map (fun e => e.ptroot == root)).getD false) then none
    else (i.kerns.find? (fun k => k.kdesc == kdesc)).map (fun k => (i, k)))

/-- The dispatches of a region that have not retired; a node's stream is none. -/
def State.openDispatches (s : State) (rcb : Nat) : Nat := s.dispatches.countP (fun d => d.env.rcb == rcb && d.node.isNone)

/-- DONE is none, or names a 4-byte word on a normal page (R328). -/
def State.doneOk (s : State) (root done : Nat) : Bool :=
  done == 0 || (done % 4 == 0 && ((s.pageAt root done).map (fun p => p.type == .normal)).getD false)

/-- A dispatch is accepted: it takes its region's next sequence number (R329). -/
def State.accept (s : State) (env : Env) (k : Kern) (args : BitVec 64) (count : Nat) (done : BitVec 64) : State × Word :=
  let s := s.openRegion env
  let seq := ((s.region? env.rcb).map Region.nextSeq).getD 0
  let d : Dispatch :=
    { id := s.nextId, env := env, kern := k, seq := BitVec.ofNat 32 seq, node := none, args := args, count := count, next := 0
      done := done, retired := [], chans := Vector.replicate 16 ⟨0, [], []⟩, groups := [] }
  let s := s.modRegion env.rcb (fun r => { r with nextSeq := (seq + 1) % 2 ^ 31 })
  ({ s with nextId := s.nextId + 1, dispatches := s.dispatches ++ [d] }, BitVec.ofNat 32 seq)

/-- The copy of the region template that a launch block's kernel names has been made for the launching region: without it the
block waits, as no LAUNCH of the kernel is accepted before (R46). -/
def State.templateMade (s : State) (rcb root : Nat) (b : List Byte) : Bool :=
  match s.findKern root (fieldAt b 0 8) with
  | some (i, k) => (k.template.map (fun t => (i.copyFor t rcb).isSome)).getD true
  | none => true

/-- A launch block given by region `rcb`, whose page tables stand at `root`: the sequence number, or why it is refused
(R329). -/
def State.launch (s : State) (rcb root : Nat) (b : List Byte) : State × Word :=
  let count := fieldAt b 16 4
  let done := fieldAt b 24 8
  let found := s.findKern root (fieldAt b 0 8)
  let region := (found.bind (fun (i, k) => k.template.bind (fun t => i.copyFor t rcb))).getD rcb
  if 256 ≤ s.openDispatches region then (s, 0x80000001)
  else
    match s.resolveEnv region, found with
    | none, _ => (s, 0x80000002)
    | some env, found =>
      if count = 0 ∨ fieldAt b 20 4 ≠ 0 ∨ !s.doneOk env.ptroot done then (s, 0x80000002)
      else
        match found with
        | none => (s, 0x80000003)
        | some (_, k) =>
          if k.input.isSome then (s, 0x80000003)
          else s.accept env k (BitVec.ofNat 64 (fieldAt b 8 8)) count (BitVec.ofNat 64 done)

/-- LAUNCH: wait as REL does, read the launch block, start the dispatch or refuse it (R328, R329). -/
def execLaunch (d : Reg) (p : BitVec 5) (s : State) : Out :=
  if !s.released s.thr.key then .next s.parkRel
  else
    match s.readBlock (s.base p).toNat 32 32 noExtra with
    | .stop s => .next s
    | .bytes s _ b =>
      if !s.templateMade s.thr.env.rcb s.thr.env.ptroot b then .next s.parkRel
      else
        let (s, x) := s.launch s.thr.env.rcb s.thr.env.ptroot b
        .next (s.flyScalars 0 d [x])

/-! ## Records of a program's own (R332, R333) -/

/-- One lane of WGENQ: the state, and what vD receives (R332). -/
def State.enqueueLane (s : State) (n : Nat) (a : Reg) (l : Nat) : State × Word :=
  let rcb := s.thr.env.rcb
  match s.node? rcb n with
  | none => (s, 2)
  | some q =>
    let k := q.recBytes / 4
    if 63 < a.toNat + k - 1 ∨ s.thr.kern.vregs ≤ a.toNat + k - 1 then (s, 3)
    else
      match s.appendRecord rcb n (bytesOfWords (s.laneData a.toNat k l)) false with
      | none => (s, 1)
      | some s => (s, 0)

/-- WGENQ: append each active lane's record to a node, in ascending lane order (R332); in a deterministic region under the
Ladle (R341). -/
def execWgenq (d n a : Reg) (s : State) : Out :=
  if !s.released s.thr.key then .next s.parkRel
  else if s.active = 0 then .next s
  else
    match s.dsEnter true with
    | none => .next (s.parkLadle 0)
    | some s =>
      let node := (s.rdS n).toNat
      let (s, vals) := (lanesIn s.active).foldl (fun (acc : State × List (Nat × Nat × Word)) l =>
        let (s, x) := acc.1.enqueueLane node a l
        (s, acc.2 ++ [(l, 0, x)])) (s, [])
      .next (s.flyVectors 0 d 1 vals)

/-- The records of the thread once some lanes have issued WGFIN. -/
def Thread.finish (t : Thread) (lanes : Mask) : Vector (Option RecordHeld) 96 :=
  ⟨⟨(List.range 96).map (fun l => (t.recs[l]?.join).map (fun x => { x with released := x.released || lanes.getLsbD l }))⟩, by simp⟩

/-- WGFIN: release the records of the active lanes; a record held by several lanes is released with the last (R331, R333). -/
def execWgfin (s : State) : Out :=
  let after := s.thr.finish s.active
  let held := after.toList.filterMap id
  let mine := (lanesIn s.active).filterMap (fun l => s.thr.recs[l]?.join)
  let free := mine.filter (fun x => !x.released && !held.any (fun y => y.rcb == x.rcb && y.node == x.node && y.slot == x.slot && !y.released))
  let s := s.releaseRecords free
  .next { s with thr := { s.thr with recs := after } }

end Sys2Proof.Machine
end

