-- ==== Sys2Proof/Machine/Place.lean ====
section
/-! DEFINITION. The launcher: finding a core (R11, R148, R149, R326, R335, R337), starting a workgroup (R330), restoring a
saved one (R370), shadow swaps (R368), retirement (R149, R185, R329, R340, R347), the end of a run (R337). -/

namespace Sys2Proof.Machine

/-! ## Room on a core (R11, R148, R149, R326) -/

/-- Bytes of registers of a wave of a kernel (R11). -/
def Kern.waveBytes (k : Kern) : Nat := 384 * k.vregs

/-- The threads whose registers lie in a partition's register file. -/
def State.inPart (s : State) (core p : Nat) : List Thread :=
  s.allThreads.filter (fun t => !t.mcc && t.core == core && t.part.toNat == p && !t.ctl.shadow)

/-- Free register bytes and wave slots of the partitions of a core (R11). -/
def State.partRoom (s : State) (core : Nat) : List (Nat × Nat) :=
  (List.range 4).map (fun p =>
    let ts := s.inPart core p
    (262144 - ts.foldl (fun n t => n + t.kern.waveBytes) 0, 16 - ts.length))

/-- Place waves of some bytes each, in order: each on the partition with the most free bytes among those where it fits, the
lowest of equals (R11). The partitions chosen, if all fit. -/
def fitWaves (bytes : Nat) : Nat → List (Nat × Nat) → Option (List Nat)
  | 0, _ => some []
  | n + 1, ps =>
    let best := ((List.range 4).zip ps).foldl (fun (b : Option (Nat × Nat × Nat)) (i, free, slots) =>
      if slots = 0 ∨ free < bytes then b
      else match b with
        | some (j, f, m) => if f < free then some (i, free, slots) else some (j, f, m)
        | none => some (i, free, slots)) none
    match best with
    | none => none
    | some (i, free, slots) => (fitWaves bytes n (ps.set i (free - bytes, slots - 1))).map (fun r => i :: r)

/-- The CLM windows of a cluster: start and length. -/
def State.windows (s : State) (cl : Nat) : List (Nat × Nat) :=
  s.groups.filterMap (fun g => if clusterOf g.core = cl ∧ 0 < g.kern.clmBytes then g.window.map (fun w => (w, g.kern.clmBytes)) else none)

/-- The banks of a run. -/
def banksOf (lo n : Nat) : List Nat := (List.range ((lo + n - 1) / 65536 + 1 - lo / 65536)).map (fun i => lo / 65536 + i)

/-- The lowest run of bytes from a 256-byte boundary that overlaps no window and lies on banks that may hold it. Such a run
starts at 0, at a bank's start or at a window's end. -/
def lowestRun (wins : List (Nat × Nat)) (ok : Nat → Bool) (n : Nat) : Option Nat :=
  let starts := (List.range 32).map (fun b => 65536 * b) ++ wins.map (fun (w, m) => w + m)
  (starts.filter (fun a => decide (a + n ≤ 2 ^ 21) && (banksOf a n).all ok &&
    wins.all (fun (w, m) => decide (a + n ≤ w ∨ w + m ≤ a)))).foldl (fun b a => match b with
      | some x => some (min x a)
      | none => some a) none

/-- Where a window of some bytes goes in a cluster: in banks in scratch mode (R148), else in banks that the launcher may
switch (R149). -/
def State.windowFor (s : State) (cl n : Nat) : Option Nat :=
  let c := s.cluster cl
  let mode (b : Nat) : Nat := (c.banks[b]?.map (fun k => k.mode.toNat)).getD 0
  let wins := s.windows cl
  match lowestRun wins (fun b => mode b == 1) n with
  | some a => some a
  | none => lowestRun wins (fun b => mode b == 1 || (mode b == 0 && !s.bankBusy cl b)) n

/-- The banks of a window are in scratch mode; those switched are the launcher's (R149). -/
def State.takeBanks (s : State) (cl lo n : Nat) : State :=
  (banksOf lo n).foldl (fun s b => s.modCluster cl (fun c =>
    match c.banks[b]? with
    | some k =>
      if k.mode = 0 then
        let c := c.switchBank s.stamp b 1
        { c with banks := c.banks.setIfInBounds b { k with mode := 1, launched := true } }
      else c
    | none => c)) s

/-- The banks that the launcher switched and that hold no window return to cache mode (R149). -/
def State.returnBanks (s : State) (cl : Nat) : State :=
  (List.range 32).foldl (fun s b =>
    if (((s.cluster cl).banks[b]?.map Bank.launched).getD false) && !s.bankBusy cl b then
      s.modCluster cl (fun c =>
        let c := c.switchBank s.stamp b 0
        match c.banks[b]? with
        | some k => { c with banks := c.banks.setIfInBounds b { k with launched := false } }
        | none => c)
    else s) s

/-- A free MCC thread of a cluster (R281). -/
def State.mccFree (s : State) (cl : Nat) : Bool := decide (s.allThreads.countP (fun t => t.mcc && clusterOf t.core == cl) < 4)

/-- The workgroup holds a core. -/
def Workgroup.placed (g : Workgroup) : Bool :=
  match g.status with
  | .saved _ => false
  | .resident | .frozen | .shadow | .saving _ => true

/-- The budgets of a chain of regions allow one more workgroup of a kernel on a core (R326). -/
def State.budgetOk (s : State) (env : Env) (k : Kern) (core : Nat) : Bool :=
  env.chain.all (fun b =>
    let gs := s.groups.filter (fun g => g.placed && g.env.chain.any (fun x => x.rcb == b.rcb))
    let cores := (core :: gs.map Workgroup.core).dedup
    decide (cores.length ≤ b.cores) &&
      (match b.clm with
        | some m => decide (gs.foldl (fun n g => n + g.kern.clmBytes) k.clmBytes ≤ m)
        | none => true) &&
      (match b.regs with
        | some m => decide (gs.foldl (fun n g => n + g.kern.waves * g.kern.waveBytes) (k.waves * k.waveBytes) ≤ m)
        | none => true))

/-- Where a workgroup goes: its core, the partition of each wave, its window. -/
structure Spot where
  core   : Nat
  parts  : List Nat
  window : Option Nat
  deriving DecidableEq, Repr

/-- The workgroup of a kernel fits on a core; `waves` of its waves are to be placed. -/
def State.spotOn (s : State) (env : Env) (k : Kern) (waves core : Nat) : Option Spot :=
  let cl := clusterOf core
  match fitWaves k.waveBytes waves (s.partRoom core) with
  | none => none
  | some parts =>
    if (k.hasMcc && !s.mccFree cl) || !s.budgetOk env k core then none
    else if k.clmBytes = 0 then some ⟨core, parts, none⟩
    else (s.windowFor cl k.clmBytes).map (fun w => ⟨core, parts, some w⟩)

/-- The core for a workgroup: the lowest-numbered among those with the most free register bytes of those where it fits
(R335); `only` names the core that a trace asks for (R337), `ok` is what else it needs there. -/
def State.spotFor (s : State) (env : Env) (k : Kern) (waves : Nat) (only : Option Nat) (ok : Spot → Bool) : Option Spot :=
  match only with
  | some c => (s.spotOn env k waves c).filter ok
  | none =>
    ((List.range 640).foldl (fun (b : Option (Nat × Spot)) c =>
      let free := (s.partRoom c).foldl (fun n x => n + x.1) 0
      if (b.map (fun x => decide (free ≤ x.1))).getD false then b
      else match (s.spotOn env k waves c).filter ok with
        | some p => some (free, p)
        | none => b) none).map Prod.snd

/-- The reservation entries of a saved workgroup find room in a cluster. -/
def State.entsFit (s : State) (g : Workgroup) (p : Spot) : Bool :=
  let c := s.cluster (clusterOf p.core)
  let ents := g.ents.map (fun r => { r with win := p.window.getD 0 })
  decide (c.resv.length + ents.length ≤ 16) && c.lockRoom (ents.flatMap Resv.locks)

/-! ## What waits for a core (R335, R337) -/

/-- The dispatch has a workgroup to start. -/
def Dispatch.ready (d : Dispatch) : Bool := if d.node.isSome then !d.groups.isEmpty else decide (d.next < d.count)

/-- The sequence number of a dispatch as the trace shows it (R337). -/
def Dispatch.seq16 (d : Dispatch) : Nat := if d.node.isSome then 65535 else d.seq.toNat % 65536

/-- The slots of the next workgroup of a stream. -/
def Dispatch.slots (d : Dispatch) : List Nat := (d.groups.headD []).flatten

/-- What the trace of a replayed region says to a start (R337). -/
inductive StartRule where
  | free
  | only (core : Nat)
  | hold
  | diverge
  deriving DecidableEq, Repr

/-- No start can ever match an entry: its core does not exist, or its workgroup's turn cannot come (R337). -/
def State.entryDead (s : State) (r : Region) (e : TraceEntry) : Bool :=
  decide (640 ≤ e.cnt) ||
    (e.dseq != 65535 &&
      (match s.dispatches.find? (fun d => d.env.rcb == r.rcb && d.node.isNone && d.seq16 == e.dseq) with
        | some d => decide (d.count ≤ e.wg ∨ e.wg < d.next)
        | none => decide (32768 ≤ (e.dseq + 65536 - r.nextSeq % 65536) % 65536)))

/-- The rule for the next start of a dispatch. -/
def State.startRule (s : State) (d : Dispatch) : StartRule :=
  match s.region? d.env.rcb with
  | none => .free
  | some r =>
    if !r.replays then .free
    else
      match s.traceNext r 1 r.wgCursor with
      | .over => .diverge
      | .unreadable => .diverge
      | .entry _ e =>
        if s.entryDead r e then .diverge
        else if e.dseq = d.seq16 ∧ e.wg = d.next ∧
            (d.node.isNone ∨ (e.nrec = d.slots.length ∧ e.slot = d.slots.headD 0 % 2 ^ 32)) then .only e.cnt
        else .hold

/-- The launcher's trace fails: DIVERGE cause 1, and R335 from here on (R337). -/
def State.launchDiverge (s : State) (d : Dispatch) : State :=
  (s.diverge d.env.rcb 1 d.seq (BitVec.ofNat 32 d.next)).modRegion d.env.rcb (fun r => { r with wgFallback := true })

/-- The next workgroup start of a replayed region is a node's: how many records the trace gives its group (R337). -/
def State.tracedGroup (s : State) (rcb : Nat) (q : NodeQueue) : Option Nat :=
  match s.region? (s.streamRegion rcb q) with
  | none => none
  | some r =>
    if !r.replays then none
    else
      match s.traceNext r 1 r.wgCursor with
      | .over => none
      | .unreadable => none
      | .entry _ e =>
        let index := ((q.stream.bind s.dispatch?).map Dispatch.count).getD 0
        if e.dseq = 65535 ∧ e.wg = index % 2 ^ 32 ∧ 0 < e.nrec ∧ e.slot = q.taken % 2 ^ 32 ∧ e.nrec ≤ q.appended - q.taken ∧
            (packWaves q.kern.waves (fun k => q.solo.contains k) [] [] (q.free.take e.nrec)).2.isEmpty then
          some e.nrec
        else none

/-- A group of a node fires only on Trestle's answer, for which it asks once (R388). -/
def State.askGroup (s : State) (rcb n : Nat) : State :=
  if s.plat.dutyReqs.any (fun r => r.fn == 4 && r.a == rcb && r.b == n) then s else s.ask 4 rcb n []

/-- The records that a trace names fire as a group, or ask Trestle first (R337, R388). -/
def State.fireTraced (s : State) (rcb n : Nat) (q : NodeQueue) : State :=
  match s.tracedGroup rcb q with
  | some k => if s.assisted 4 then s.askGroup rcb n else s.fireSome rcb n k
  | none => s

/-- Trestle answers for a group: it fires, in a replayed region with the records that the trace names (R337, R388). -/
def State.answerGroup (s : State) (rcb n : Nat) : State :=
  match s.node? rcb n with
  | none => s
  | some q =>
    if s.streamReplays rcb q then
      (match s.tracedGroup rcb q with
        | some k => s.fireSome rcb n k
        | none => s)
    else s.fireGroup rcb n

/-- The launcher looks at its traces before it places: groups that the traces name fire, starts that cannot match diverge. -/
def State.readTraces (s : State) : State :=
  let s := s.regions.foldl (fun s r => ((List.range r.nodes.length).zip r.nodes).foldl (fun s (n, q) => s.fireTraced r.rcb n q) s) s
  s.dispatches.foldl (fun s d => if d.ready && s.startRule d == .diverge then s.launchDiverge d else s) s

/-- A workgroup that waits for a core: the next of a dispatch, or a saved one. -/
inductive Waiting where
  | fresh (d : Dispatch)
  | saved (g : Workgroup)
  deriving DecidableEq, Repr

/-- The key of R335's order: priority, age of the dispatch, index. -/
def Waiting.rank : Waiting → Nat × Nat × Nat
  | .fresh d => (d.env.prio, d.id, d.next)
  | .saved g => (g.env.prio, g.disp, g.index.toNat)

/-- R335's order. -/
def Waiting.before (a b : Waiting) : Bool :=
  let (p, d, i) := a.rank
  let (q, e, j) := b.rank
  if p ≠ q then decide (q < p) else if d ≠ e then decide (d < e) else decide (i < j)

/-- Insert in R335's order, behind equals. -/
def insertWaiting (x : Waiting) : List Waiting → List Waiting
  | [] => [x]
  | y :: ys => if x.before y then x :: y :: ys else y :: insertWaiting x ys

/-- Everything that waits for a core, in R335's order. In an excursion nothing new starts (R381). -/
def State.waiting (s : State) : List Waiting :=
  let fresh := if s.plat.flask == .excursion then [] else (s.dispatches.filter Dispatch.ready).map Waiting.fresh
  let saved := (s.groups.filter (fun g => !g.placed)).map Waiting.saved
  (fresh ++ saved).foldl (fun l x => insertWaiting x l) []

/-- Where one that waits may go now. -/
def State.spotOf (s : State) : Waiting → Option Spot
  | .fresh d =>
    match s.startRule d with
    | .free => s.spotFor d.env d.kern d.kern.waves none (fun _ => true)
    | .only c => s.spotFor d.env d.kern d.kern.waves (some c) (fun _ => true)
    | .hold => none
    | .diverge => none
  | .saved g => s.spotFor g.env g.kern (g.saved.countP (fun t => !t.mcc)) none (s.entsFit g)

/-- The first that can be placed, and where (R335); nothing while compute is held (R380). -/
def State.nextPlacement (s : State) : Option (Waiting × Spot) :=
  if s.plat.computes then s.waiting.findSome? (fun w => (s.spotOf w).map (fun p => (w, p))) else none

/-! ## Starting a workgroup (R180, R330) -/

/-- A wave's registers at its start (R330): `recs` are the slots its lanes hold, by lane. -/
def startThread (g : Workgroup) (d : Dispatch) (ix part : Nat) (recs : List (Option Nat)) (q : Option (Nat × Nat × NodeQueue))
    (clock : Nat) (stamp : Nat) : Thread :=
  let mcc := ix == 16
  let held : Nat → Option Nat := fun l => (recs[l]?).join
  let count := (recs.filterMap id).dedup.length
  let lanes : Mask := if mcc then 1 else if d.node.isSome then maskOf (fun l => (held l).isSome) else allLanes
  let s4 : Word := if d.node.isSome then BitVec.ofNat 32 count else d.seq
  let off (l : Nat) : Word := match held l, q with
    | some k, some (_, _, q) => BitVec.ofNat 32 (q.recBytes * (k % q.cap))
    | _, _ => 0
  { Thread.start with
    key := ⟨g.id, ix⟩, mcc := mcc, disp := d.id, index := g.index, core := g.core, part := BitVec.ofNat 2 part, kern := g.kern, env := g.env
    s := ((((Thread.start.s.setIfInBounds 0 (d.args.extractLsb' 0 32)).setIfInBounds 1 (d.args.extractLsb' 32 32)).setIfInBounds 2
      g.index).setIfInBounds 3 (BitVec.ofNat 32 (if mcc then 0 else ix))).setIfInBounds 4 s4
    v := if d.node.isSome && !mcc then Thread.start.v.setIfInBounds 0 (lanesOf off) else Thread.start.v
    vtag := if d.node.isSome && !mcc then Thread.start.vtag.setIfInBounds 0 .g else Thread.start.vtag
    recs := match q with
      | some (rcb, n, _) => ⟨⟨(List.range 96).map (fun l => (held l).map (fun k => ⟨rcb, n, k, false⟩))⟩, by simp⟩
      | none => Vector.replicate 96 none
    ctl := { Ctl.start with shadow := g.bank && !mcc }
    level := Level.start { Split.start (if mcc then g.kern.mccEntry else g.kern.entry) lanes with since := clock }
    birth := stamp }

/-- The slots of a wave's lanes: a record of the raster pipeline lies in every lane (R278, R334). -/
def waveSlots (solo : Bool) (ks : List Nat) : List (Option Nat) :=
  if solo then List.replicate 96 ks.head? else ks.map some

/-- Start the next workgroup of a dispatch at a spot (R330); `bank` says that it goes into the shadow bank (R368). -/
def State.start (s : State) (d : Dispatch) (p : Spot) (bank : Bool) : State :=
  let q := d.node.bind (fun (rcb, n) => (s.node? rcb n).map (fun q => (rcb, n, q)))
  let waves := d.groups.headD []
  let frozen := !bank && s.groups.any (fun g => g.bank && g.placed && g.core == p.core)
  let g : Workgroup :=
    { id := s.nextId, disp := d.id, index := BitVec.ofNat 32 d.next, core := p.core, window := p.window, kern := d.kern, env := d.env
      status := if bank then .shadow else if frozen then .frozen else .resident, frozenAt := s.clock
      bars := Vector.replicate 16 ⟨0, d.kern.waves + (if d.kern.hasMcc then 1 else 0), 0, 0⟩, left := 0, hash := [], bank := bank
      saved := [], ents := [], queue := [], far := [] }
  let one (ix : Nat) : Thread :=
    let ks := waves[ix]?.getD []
    startThread g d ix (p.parts[ix]?.getD 0)
      (waveSlots (d.node.isSome && (match q with | some (_, _, q) => ks.any (fun k => q.solo.contains k) | none => false)) ks) q
      s.clock s.stamp
  let ts := (List.range d.kern.waves).map one ++ (if d.kern.hasMcc then [one 16] else [])
  let cl := clusterOf p.core
  let s := match p.window with
    | some w => s.takeBanks cl w d.kern.clmBytes
    | none => s
  let s : State := { s with nextId := s.nextId + 1, groups := s.groups ++ [g], threads := s.threads ++ ts }
  let s := s.modDispatch d.id (fun d => { d with next := d.next + 1, groups := d.groups.tail })
  let s := (s.acquireAt cl).modCore p.core (fun c => { c with scalar := [] })
  let slots := d.slots
  let entry : TraceEntry :=
    ⟨1, 0, d.seq16, d.next % 2 ^ 32, p.core, slots.length % 65536, slots.headD 0 % 2 ^ 32⟩
  match s.region? d.env.rcb with
  | none => s
  | some r =>
    if r.env.dmode = 2 then s.traceWrite r.rcb entry
    else if r.replays then
      match s.traceNext r 1 r.wgCursor with
      | .entry i _ => (s.traceTake r.rcb).modRegion r.rcb (fun r => { r with wgCursor := i + 1 })
      | .over => s
      | .unreadable => s
    else s

/-! ## Restoring a saved workgroup (R370) -/

/-- The saved image of tile number i of an MCC record: the tiles set in ctl.mtouch follow the entries (R376). -/
def State.savedTiles (s : State) (area ents : Nat) (touch : Word) : List (Nat × List Word) :=
  let base := area + fieldAt (s.homeRead area 64) 40 8 + 352 + 64 * ents
  let ts := (List.range 32).filter (fun i => touch.getLsbD i)
  ((List.range ts.length).zip ts).map (fun (j, t) =>
    (t, let bs := s.homeRead (base + 16384 * j) 16384
        (List.range 4096).map (fun i => wordAt bs (4 * i))))

/-- A CLM image is copied from its context area, poisoned sectors too (R166, R370). -/
def State.loadClm (s : State) (cl from_ to_ n : Nat) : State :=
  let bad := (List.range ((n + 31) / 32)).filter (fun i => s.poison.contains (from_ / 32 + i))
  let bs := s.homeRead from_ n
  s.modCluster cl (fun c =>
    let c := c.clmWrite [(to_, bs)]
    { c with poison := c.poison ++ (bad.map (fun i => to_ / 32 + i)).filter (fun x => !c.poison.contains x) })

/-- A saved workgroup is placed and its context, as its area has it, written back (R370). Its replay-queue entries join those of
the new core even past 32, where R163 does not say what happens (log entry 120). -/
def State.restore (s : State) (g : Workgroup) (area : Nat) (p : Spot) : State :=
  let g := s.loadArea g area
  let cl := clusterOf p.core
  let frozen := s.groups.any (fun x => x.bank && x.placed && x.core == p.core)
  let waves := g.saved.filter (fun t => !t.mcc)
  let placed (t : Thread) : Thread :=
    let i := waves.findIdx (fun x => x.key == t.key)
    { t with core := p.core, part := BitVec.ofNat 2 (if t.mcc then 0 else p.parts[i]?.getD 0), ctl := { t.ctl with shadow := false } }
  let s := match p.window with
    | some w => (s.takeBanks cl w g.kern.clmBytes).loadClm cl (area + fieldAt (s.homeRead area 64) 32 8) w g.kern.clmBytes
    | none => s
  let touch := ((g.saved.find? (fun t => t.mcc)).map (fun t => t.ctl.mtouch)).getD 0
  let tiles := s.savedTiles area g.ents.length touch
  let ents := g.ents.map (fun r => { r with win := p.window.getD 0 })
  let s := s.modCluster cl (fun c => (ents.foldl (fun c r => c.addLocks r.locks) { c with resv := c.resv ++ ents }))
  let s := s.modCluster cl (fun c => tiles.foldl (fun c (t, ws) => c.setTile t ws) c)
  let port (c : Nat) : Nat := if c < 640 then p.core else 640 + cl
  let queue := g.queue.map (fun e => { e with core := port e.core })
  let far := g.far.map (fun f => { f with todo := f.todo.map (fun a => { a with wait := none, gated := none }) })
  let s : State := { s with threads := s.threads ++ g.saved.map placed, rq := s.rq ++ queue, flights := s.flights ++ far }
  let bars := g.bars
  let s := s.modGroup g.id (fun g =>
    { g with
      bars := bars, core := p.core, window := p.window, status := if frozen then .frozen else .resident, frozenAt := s.clock, bank := false
      saved := [], ents := [], queue := [], far := [] })
  let s := (s.acquireAt cl).modCore p.core (fun c => { c with scalar := [] })
  (queue.filter (fun e => !s.faults.any (fun f => f.id == e.waits))).foldl State.drainEntry s

/-- What waits first is placed where it fits, if something can be. -/
def State.placeNext (s : State) : Option State :=
  let s := s.readTraces
  match s.nextPlacement with
  | none => none
  | some (.fresh d, p) => some (s.start d p false)
  | some (.saved g, p) =>
    match g.status with
    | .saved area => some (s.restore g area p)
    | .resident | .frozen | .shadow | .saving _ => none

/-- Place what can be placed. -/
def State.placeAll : Nat → State → State
  | 0, s => s
  | n + 1, s =>
    match s.placeNext with
    | some s => State.placeAll n s
    | none => s

/-- WORKGROUP_PLACE: the launcher places the workgroup that is first in its order among those that fit, when that is a new
one (R335). -/
def execWorkgroupPlace (s : State) : Out :=
  let s := s.readTraces
  match s.nextPlacement with
  | some (.fresh d, p) => .next (s.start d p false)
  | some (.saved _, _) => .next s
  | none => .next s

/-- RESTORE: a saved workgroup is placed, when it is first in the launcher's order among those that fit, and its context is
written back (R370). -/
def execRestore (wg : Nat) (s : State) : Out :=
  match s.nextPlacement with
  | some (.saved g, p) =>
    (match g.status with
      | .saved area => if g.id = wg then .next (s.restore g area p) else .next s
      | .resident | .frozen | .shadow | .saving _ => .next s)
  | some (.fresh _, _) => .next s
  | none => .next s

/-! ## Shadow swaps (R368) -/

/-- The spot of a workgroup in a core's shadow bank: wave w on partition w. -/
def State.shadowSpot (s : State) (d : Dispatch) (core : Nat) : Option Spot :=
  let k := d.kern
  let here := s.groups.filter (fun g => g.core == core && g.placed)
  if k.waves > 4 ∨ k.hasMcc ∨ here.any Workgroup.bank ∨ !s.allThreads.all (fun t => t.mcc || t.core != core || decide (t.env.prio < d.env.prio)) ∨
      !s.budgetOk d.env k core then none
  else if k.clmBytes = 0 then some ⟨core, List.range 4, none⟩
  else (s.windowFor (clusterOf core) k.clmBytes).map (fun w => ⟨core, List.range 4, some w⟩)

/-- SHADOW_SWAP: the next workgroup of a dispatch goes into a core's shadow bank; the core's resident waves are frozen
(R368). -/
def execShadowSwap (core rcb seq : Nat) (s : State) : Out :=
  match s.dispatches.find? (fun d => d.env.rcb == rcb && d.seq.toNat == seq && d.ready) with
  | none => .next s
  | some d =>
    let free := match s.startRule d with
      | .free => true
      | .only c => c == core
      | .hold => false
      | .diverge => false
    if !s.plat.computes ∨ 640 ≤ core ∨ !free then .next s
    else
      match s.shadowSpot d core with
      | none => .next s
      | some p =>
        let freeze (g : Workgroup) : Workgroup :=
          if g.core = core ∧ g.status = .resident then { g with status := .frozen, frozenAt := s.clock } else g
        .next (({ s with groups := s.groups.map freeze } : State).start d p true)

/-- The shadow bank of a core is free: its frozen workgroups issue again (R368). -/
def State.thaw (s : State) (core : Nat) : State :=
  { s with groups := s.groups.map (fun g => if g.core = core ∧ g.status = .frozen then { g with status := .resident } else g) }

/-! ## Retirement (R149, R163, R185, R329, R340, R347) -/

/-- Every participant of the workgroup has retired. -/
def Workgroup.allLeft (g : Workgroup) : Bool :=
  (List.range g.kern.waves).all (fun i => g.left.getLsbD i) && (!g.kern.hasMcc || g.left.getLsbD 16)

/-- Work of the workgroup's threads is still on its way: replay-queue entries (R163), engine operations (R185), accesses,
the end of a Ladle visit (R342). -/
def State.groupBusy (s : State) (g : Workgroup) : Bool :=
  s.regions.any (fun r => (r.ladle.holder.map (fun k => k.wg == g.id)).getD false) ||
  s.rq.any (fun e => e.key.wg == g.id) || s.wq.any (fun e => e.key.wg == g.id) || s.hold.any (fun e => e.key.wg == g.id) ||
    s.flights.any (fun f => f.key.wg == g.id) ||
    s.clusters.any (fun c => c.resv.any (fun r => r.key.wg == g.id) || c.mvnb.any (fun m => m.key.wg == g.id) ||
      c.hamper.any (fun o => o.key.wg == g.id || o.shares.contains g.id))

/-- H: the hashes of the workgroup's waves folded in ascending wave order (R347). -/
def Workgroup.foldHash (g : Workgroup) : BitVec 64 :=
  (List.range 16).foldl (fun h i => match g.hash.find? (fun x => x.1 == i) with
    | some (_, x) => hashStep h x
    | none => h) 0

/-- The store hash of a retiring workgroup is written, or compared (R347, R395). -/
def State.settleHash (s : State) (g : Workgroup) (seq : Word) : State :=
  if !g.env.deterministic then s
  else
    let h := g.foldHash
    match s.recordPage g.env (g.env.hashbase + 8 * g.index.toNat) 8 with
    | none => s.diverge g.env.rcb 4 seq g.index
    | some pa =>
      if g.env.dmode = 2 then s.engineWrite pa (bytesOfNat 8 h.toNat)
      else if natOfBytes (s.homeRead pa 8) = h.toNat then s
      else s.diverge g.env.rcb 4 seq g.index

/-- A retiring workgroup declines on the channels where it has neither claimed nor declined (R340). -/
def Dispatch.retire (d : Dispatch) (ix : Nat) : Dispatch :=
  { d with
    retired := d.retired ++ [ix]
    chans := d.chans.map (fun c => if c.claimed.contains ix || c.declined.contains ix then c else { c with declined := ix :: c.declined }) }

/-- The window of a workgroup is gone: if the launcher switched a bank that it leaves empty, waiting workgroups are placed,
and what is then empty returns to cache mode (R149). -/
def State.windowGone (s : State) (cl : Nat) : State :=
  if (List.range 32).any (fun b => (((s.cluster cl).banks[b]?.map Bank.launched).getD false) && !s.bankBusy cl b) then
    (State.placeAll 65536 s).returnBanks cl
  else s

/-- The last workgroup of a dispatch has retired: 1 is written into DONE, and the dispatch is over (R329). -/
def State.endDispatch (s : State) (id : Nat) : State :=
  match s.dispatch? id with
  | none => s
  | some d =>
    if d.node.isNone ∧ d.retired.length = d.count then
      let s := if d.done = 0 then s else s.writeVirt d.env.ptroot d.done.toNat (bytesOfNat 4 1)
      { s with dispatches := s.dispatches.filter (fun x => x.id != id) }
    else s

/-- WORKGROUP_RETIRE: all threads of a workgroup have retired and its work is done (R163, R185, R329, R340, R347). -/
def execWorkgroupRetire (wg : Nat) (s : State) : Out :=
  match s.group? wg with
  | none => .next s
  | some g =>
    if !g.allLeft ∨ !g.placed ∨ s.groupBusy g then .next s
    else
      let s := s.settleHash g (((s.dispatch? g.disp).map (fun d => if d.node.isSome then (0xFFFFFFFF : Word) else d.seq)).getD 0xFFFFFFFF)
      let s := s.modDispatch g.disp (fun d => d.retire g.index.toNat)
      let s : State := { s with groups := s.groups.filter (fun x => x.id != wg) }
      let s := if g.bank then s.thaw g.core else s
      let s := s.endDispatch g.disp
      .next (if g.window.isSome then s.windowGone (clusterOf g.core) else s)

/-! ## The end of a run (R337) -/

/-- An entry of a kind is left before TRREC from a cursor. -/
def State.traceLeft (s : State) (r : Region) (kind cursor : Nat) : Bool :=
  match s.traceNext r kind cursor with
  | .entry .. => true
  | .over => false
  | .unreadable => false

/-- RUN_END: Trestle ends a run; in replay mode entries left unconsumed diverge first (R337). -/
def execRunEnd (rcb : Nat) (s : State) : Out :=
  match s.region? rcb with
  | none => .next s
  | some r =>
    if !r.env.deterministic then .next s
    else
      let s := if r.env.dmode = 3 ∧ s.traceLeft r 1 r.wgCursor then s.diverge rcb 1 0 0 else s
      let s := if r.env.dmode = 3 ∧ s.traceLeft r 2 r.visitCursor then s.diverge rcb 2 0 0 else s
      let s := ((s.setRcbWord rcb 76 0).setRcbWord rcb 92 0).setRcbWord rcb 108 0
      .next (s.modRegion rcb (fun r =>
        { r with
          traceStop := false, wgCursor := 0, visitCursor := 0, wgFallback := false, logStop := false, gates := [], runFrom := r.nextSeq
          ladle := { r.ladle with fallback := false } }))

end Sys2Proof.Machine
end

