-- ==== Sys2Proof/Machine/Raster.lean ====
section
/-! DEFINITION. Raster: RDRAW and RWAIT, and the events of the raster pipeline (R275 to R279). -/

namespace Sys2Proof.Machine

/-! ## Draw descriptors (R276) -/

/-- A field of a draw's descriptor. -/
def Draw.f (d : Draw) (i n : Nat) : Nat := fieldAt d.desc i n

def Draw.ntri (d : Draw) : Nat := d.f 16 4
def Draw.width (d : Draw) : Nat := d.f 20 2
def Draw.height (d : Draw) : Nat := d.f 22 2

/-- The buffer's bytes. -/
def Draw.visBytes (d : Draw) : Nat := 16 * d.width * d.height

/-- The fields of a descriptor lie inside R276. -/
def State.drawOk (s : State) (b : List Byte) : Bool :=
  let f := fieldAt b
  let t := s.thr
  f 0 8 % 16 == 0 && f 8 8 % 4 == 0 && decide (1 ≤ f 16 4 ∧ f 16 4 ≤ 2 ^ 28) &&
    decide (1 ≤ f 20 2 ∧ f 20 2 ≤ 16384 ∧ 1 ≤ f 22 2 ∧ f 22 2 ≤ 16384) && f 24 8 % 16 == 0 && decide (f 36 4 < 3) &&
    decide (1 ≤ f 40 4 ∧ f 40 4 ≤ 2 ^ 28) && f 44 20 == 0 &&
    ((s.node? t.env.rcb (s.imageNode t.kern (f 32 4))).map (fun q => q.recBytes == 16)).getD false &&
    s.allNormal t.env.ptroot (f 24 8) (16 * f 20 2 * f 22 2)

/-! ## The words (R275) -/

/-- RDRAW: start a draw (R275). -/
def execRdraw (d : Reg) (p : BitVec 5) (s : State) : Out :=
  if !s.released s.thr.key then .next s.parkRel
  else
    match s.readBlock (s.base p).toNat 64 64 recordNormal with
    | .stop s => .next s
    | .bytes s _ b =>
      let e := s.thr.env
      if 16 ≤ s.draws.countP (fun x => x.env.rcb == e.rcb && !x.ended) then .next (s.flyScalars 2 d [0x80000001])
      else if !s.drawOk b then .next (s.flyScalars 2 d [0x80000002])
      else
        let ticket := ((s.region? e.rcb).map Region.ticket).getD 0
        let x : Draw :=
          { id := s.nextId, env := e, ticket := ticket, desc := b, node := s.imageNode s.thr.kern (fieldAt b 32 4), next := 0
            counts := [], tiles := [], full := false, bad := false, denied := false, ended := false, cluster := s.myCluster, waits := [] }
        let s := ({ s with nextId := s.nextId + 1, draws := s.draws ++ [x] } : State).modRegion e.rcb (fun r =>
          { r with ticket := (r.ticket + 1) &&& 0x7FFFFFFF })
        .next (s.flyScalars 2 d [ticket])

/-- What RWAIT writes for an ended draw. -/
def Draw.result (d : Draw) : Word := if d.denied then 0x80000004 else if d.bad then 1 else 0

/-- RWAIT: wait for a draw to end (R275). -/
def execRwait (d : Reg) (s : State) : Out :=
  let x := s.rdS d
  match s.draws.reverse.find? (fun y => y.env.rcb == s.thr.env.rcb && y.ticket == x) with
  | none => .next (s.flyScalars 2 d [0xFFFFFFFF])
  | some y => if y.ended then .next (s.flyScalars 2 d [y.result]) else .next (s.parkAt { s.parkedHere with stage := s.stage })

/-! ## One triangle (R277) -/

/-- A vertex in window space, with 1 / w. -/
structure WinVertex where
  x : Rat
  y : Rat
  z : Rat
  r : Rat
  deriving DecidableEq, Repr

/-- A vertex's window coordinates; none when it is not finite or its w is not above zero (R277). -/
def winVertex (w h : Nat) (b : List Byte) : Option WinVertex :=
  match vec3? (wordAt b 0) (wordAt b 4) (wordAt b 8), finite? (wordAt b 12) with
  | some p, some q =>
    if 0 < q then some ⟨(p.x / q + 1) / 2 * w, (1 - p.y / q) / 2 * h, p.z / q, 1 / q⟩ else none
  | _, _ => none

/-- Twice the signed area of a triangle of window points. -/
def area2 (ax ay bx by' cx cy : Rat) : Rat := (bx - ax) * (cy - ay) - (by' - ay) * (cx - ax)

/-- A point on the inner side of the edge from a to b of a triangle wound so that its area is positive: on the edge it
counts when the interior lies below a horizontal edge, or to the right of any other (R277). Y grows downwards. -/
def insideEdge (a b : WinVertex) (px py : Rat) : Bool :=
  let e := area2 a.x a.y b.x b.y px py
  decide (0 < e) || (e == 0 && (if a.y = b.y then decide (a.x < b.x) else decide (b.y < a.y)))

/-- What a covered pixel takes: DEPTH, B1, B2 (R277). -/
structure Frag where
  depth : Rat
  b1    : Word
  b2    : Word
  deriving DecidableEq, Repr

/-- The fragment of a triangle at a pixel, if it covers it with a depth in 0 to 1 (R277). -/
def fragAt (v0 v1 v2 : WinVertex) (x y : Nat) : Option (Word × Word × Word) :=
  let px : Rat := x + 1 / 2
  let py : Rat := y + 1 / 2
  let total := area2 v0.x v0.y v1.x v1.y v2.x v2.y
  if total = 0 then none
  else
    let (p0, p1, p2) := if 0 < total then (v0, v1, v2) else (v0, v2, v1)
    if insideEdge p0 p1 px py && insideEdge p1 p2 px py && insideEdge p2 p0 px py then
      let l1 := area2 v0.x v0.y px py v2.x v2.y / total
      let l2 := area2 v0.x v0.y v1.x v1.y px py / total
      let l0 := 1 - l1 - l2
      let z := fp32Of (l0 * v0.z + l1 * v1.z + l2 * v2.z)
      let r := l0 * v0.r + l1 * v1.r + l2 * v2.r
      match finite? z with
      | some q => if 0 ≤ q ∧ q ≤ 1 then some (z, fp32Of (l1 * v1.r / r), fp32Of (l2 * v2.r / r)) else none
      | none => none
    else none

/-- One pixel takes a fragment of triangle `i`, if it is nearer, or as near with a lower index (R277). -/
def State.putPixel (s : State) (d : Draw) (i x y : Nat) (f : Word × Word × Word) : State :=
  let va := d.f 24 8 + 16 * (y * d.width + x)
  match s.pageAt d.env.ptroot va with
  | none => s
  | some p =>
    let old := s.homeRead p.pa 16
    let tri := fieldAt old 0 4
    let (z, b1, b2) := f
    let nearer := match FFmt.fp32.read (wordAt old 12) with
      | .inf neg => !neg
      | .nan => false
      | .zero _ => z.toNat % 2 ^ 31 == 0 && decide (i < tri)
      | .fin q => decide (rat32 z < q ∨ (rat32 z = q ∧ i < tri))
    if nearer then s.writeVirt d.env.ptroot va (bytesOfWords [BitVec.ofNat 32 i, b1, b2, z]) else s

/-- The pixels of a span that a triangle's bounds may cover. -/
def spanOf (a b c : Rat) (n : Nat) : List Nat :=
  let lo := (min a (min b c)).floor.toNat
  let hi := min n ((max a (max b c)).floor + 1).toNat
  (List.range (hi - lo)).map (fun i => lo + i)

/-- Triangle `i` is drawn. -/
def State.drawTriangle (s : State) (d : Draw) (i : Nat) (v0 v1 v2 : WinVertex) : State :=
  (spanOf v0.y v1.y v2.y d.height).foldl (fun s y =>
    (spanOf v0.x v1.x v2.x d.width).foldl (fun s x =>
      match fragAt v0 v1 v2 x y with
      | some f => s.putPixel d i x y f
      | none => s) s) s

/-! ## The pipeline -/

/-- Replace a draw. -/
def State.setDraw (s : State) (d : Draw) : State := { s with draws := s.draws.map (fun x => if x.id = d.id then d else x) }

/-- What fetching for a triangle gives. -/
inductive Fetched where
  | vertices (v0 v1 v2 : WinVertex)
  | discard
  | poison
  | wait (va pa cls cause : Nat)
  deriving DecidableEq, Repr

/-- Fetch a triangle's indices and vertices (R277). -/
def State.fetchTriangle (s : State) (d : Draw) (i : Nat) : Fetched :=
  let root := d.env.ptroot
  match s.readVirt root (d.f 8 8 + 12 * i) 12 with
  | .absent va c => .wait va 0 1 c
  | .far va pa => .wait va pa 2 2
  | .poison _ => .poison
  | .bytes ix =>
    if (List.range 3).any (fun j => d.f 40 4 ≤ fieldAt ix (4 * j) 4) then .discard
    else
      let vert (j : Nat) : VRead := s.readVirt root (d.f 0 8 + 16 * fieldAt ix (4 * j) 4) 16
      match vert 0, vert 1, vert 2 with
      | .bytes a, .bytes b, .bytes c =>
        let w := winVertex d.width d.height
        (match w a, w b, w c with
          | some a, some b, some c => .vertices a b c
          | _, _, _ => .discard)
      | .absent va c, _, _ => .wait va 0 1 c
      | _, .absent va c, _ => .wait va 0 1 c
      | _, _, .absent va c => .wait va 0 1 c
      | .far va pa, _, _ => .wait va pa 2 2
      | _, .far va pa, _ => .wait va pa 2 2
      | _, _, .far va pa => .wait va pa 2 2
      | _, _, _ => .poison

/-- The pipeline waits for a page (R271, R277). -/
def State.drawWait (s : State) (d : Draw) (va pa cls cause : Nat) : State :=
  let (s, rec) := s.addFault d.cluster d.env.rcb va 7 cls cause
  s.setDraw { d with waits := [(rec, pa, 32)] }

/-- A cleared pixel (R277). -/
def clearPixel : List Byte := bytesOfWords [0xFFFFFFFF, 0, 0, 0x7F800000]

/-- Columns of tiles. -/
def Draw.cols (d : Draw) : Nat := (d.width + 11) / 12

/-- Tiles of a draw. -/
def Draw.tileCount (d : Draw) : Nat := d.cols * ((d.height + 7) / 8)

/-- The G-die that draws a tile (R276). -/
def Draw.die (d : Draw) (tile : Nat) : Nat :=
  match d.f 36 4 with
  | 0 => (tile % d.cols + tile / d.cols) % 2
  | 1 => 0
  | _ => 1

/-- The pixels of a tile that hold a triangle (R278). -/
def State.tilePixels (s : State) (d : Draw) (tile : Nat) : Nat :=
  let tx := tile % d.cols
  let ty := tile / d.cols
  ((List.range 96).filter (fun l =>
    let x := 12 * tx + l % 12
    let y := 8 * ty + l / 12
    decide (x < d.width ∧ y < d.height) &&
      (match s.pageAt d.env.ptroot (d.f 24 8 + 16 * (y * d.width + x)) with
        | some p => decide (fieldAt (s.homeRead p.pa 4) 0 4 ≠ 0xFFFFFFFF)
        | none => false))).length

/-- The tiles that hold a triangle, with the count of their pixels that do. -/
def State.tileCounts (s : State) (d : Draw) : List (Nat × Nat) :=
  ((List.range d.tileCount).map (fun t => (t, s.tilePixels d t))).filter (fun x => x.2 != 0)

/-- The pipeline has passed a triangle of a draw; after the last one it knows the pixels of each tile (R278). -/
def State.passTriangle (s : State) (d : Draw) : State :=
  let d := { d with next := d.next + 1 }
  s.setDraw (if d.ntri < d.next then { d with counts := s.tileCounts d } else d)

/-- RASTER_TRIANGLE: the pipeline's next step of a draw: the buffer is cleared, then the triangles are drawn in order
(R277). Draws are worked on in the order of their RDRAWs (R279), and none while a full queue holds the pipeline (R278). -/
def execRasterTriangle (draw : Nat) (s : State) : Out :=
  match s.draws.find? (fun d => d.id == draw) with
  | none => .next s
  | some d =>
    if d.ended then .next s
    else if d.denied then .next (s.setDraw { d with ended := true, waits := [] })
    else if !d.waits.isEmpty ∨ s.draws.any Draw.full ∨ s.draws.any (fun x => decide (x.id < d.id) && !x.ended && decide (x.next ≤ x.ntri)) then .next s
    else if d.next = 0 then
      match (blocksOf (d.f 24 8) d.visBytes).filterMap (fun va =>
          match (if validVa va then s.walk d.env.ptroot va else .fault 0) with
          | .fault c => some (va, c)
          | .page _ => none) with
      | (va, c) :: _ => .next (s.drawWait d va 0 1 c)
      | [] =>
        let s := (List.range (d.width * d.height)).foldl (fun s i =>
          s.writeVirt d.env.ptroot (d.f 24 8 + 16 * i) clearPixel) s
        .next (s.setDraw { d with next := 1 })
    else if d.next ≤ d.ntri then
      match s.fetchTriangle d (d.next - 1) with
      | .wait va pa cls cause => .next (s.drawWait d va pa cls cause)
      | .discard => .next (s.passTriangle d)
      | .poison => .next (s.passTriangle { d with bad := true })
      | .vertices a b c => .next ((s.drawTriangle d (d.next - 1) a b c).passTriangle d)
    else .next s

/-! ## Tile records (R278) -/

/-- Some tile of a draw on a G-die has still to be passed. -/
def Draw.tilesLeft (d : Draw) (die : Nat) : Bool :=
  !d.ended && (List.range d.tileCount).any (fun t => d.die t == die && !d.tiles.contains t)

/-- RASTER_TILE_RECORD: a tile of a draw whose last triangle has been drawn sends its record, if it holds a pixel; a full
queue holds it, and the pipeline with it, until space frees. After the last tile the draw ends (R278). Records of one draw on a G-die precede those of the next
(R279). -/
def execRasterTileRecord (draw tile : Nat) (s : State) : Out :=
  match s.draws.find? (fun d => d.id == draw) with
  | none => .next s
  | some d =>
    if d.ended ∨ d.denied ∨ d.next ≤ d.ntri ∨ d.tileCount ≤ tile ∨ d.tiles.contains tile ∨
        s.draws.any (fun x => decide (x.id < d.id) && x.tilesLeft (d.die tile)) then .next s
    else
      let tiles := tile :: d.tiles
      let d1 := { d with tiles := tiles, full := false, ended := tiles.length == d.tileCount }
      let n := ((d.counts.find? (fun x => x.1 == tile)).map Prod.snd).getD 0
      if n = 0 then .next (s.setDraw d1)
      else
        let bytes := bytesOfNat 2 (tile % d.cols) ++ bytesOfNat 2 (tile / d.cols) ++ bytesOfNat 4 d.ticket.toNat ++
          bytesOfNat 4 n ++ bytesOfNat 4 0
        match s.appendRecord d.env.rcb d.node bytes true with
        | some s => .next (s.setDraw d1)
        | none => .next (s.setDraw { d with full := true })

end Sys2Proof.Machine
end

