-- ==== Sys2Proof/Machine/Auto.lean ====
section
/-! DEFINITION. What moves next (R83, R282, R336; log entry 1): the order in which an issuer tries its splits,
and the events that the part's own state calls for; the passing of time; placing a word to be fetched. -/

namespace Sys2Proof.Machine

/-- The place of a split in the order in which its partition tries its splits: one that has waited 4,096 clocks first (R336),
then by R83: priority (higher earlier), progress, birth, wave number, last issue. -/
structure Rank where
  promoted : Bool
  prio     : Nat
  progress : Nat
  birth    : Nat
  wave     : Nat
  last     : Nat
  deriving DecidableEq, Repr

/-- Lexical order of ranks. -/
def Rank.before (a b : Rank) : Bool :=
  if a.promoted ≠ b.promoted then a.promoted
  else if a.prio ≠ b.prio then b.prio < a.prio
  else if a.progress ≠ b.progress then a.progress < b.progress
  else if a.birth ≠ b.birth then a.birth < b.birth
  else if a.wave ≠ b.wave then a.wave < b.wave
  else a.last < b.last

/-- Insert by rank, behind its equals. -/
def insertRank (x : Rank × TKey × BitVec 2) :
    List (Rank × TKey × BitVec 2) → List (Rank × TKey × BitVec 2)
  | [] => [x]
  | y :: ys => if x.1.before y.1 then x :: y :: ys else y :: insertRank x ys

/-- The Ladle's holder issues with the priority of the highest-priority wave parked for it (R343); the priority of a
thread otherwise is its region's (R326). -/
def State.issuePrio (s : State) (t : Thread) : Nat :=
  if (s.region? t.env.rcb).any (fun r => r.ladle.holder == some t.key) then
    (s.ladleWaiters t.env.rcb).foldl (fun p u => max p u.env.prio) t.env.prio
  else t.env.prio

/-- The rank of a split of a thread; an MCC ranks its threads by priority, then by last issue (R282). -/
def State.rankOf (s : State) (t : Thread) (e : Split) : Rank :=
  if t.mcc then ⟨false, s.issuePrio t, 0, 0, 0, e.last⟩
  else ⟨e.promoted, s.issuePrio t, t.progress, t.birth, t.key.ix, e.last⟩

/-- What issues a thread's groups: a partition of a core (R9), or the MCC of a cluster (R282). -/
def Thread.issuer (t : Thread) : Nat := if t.mcc then 2560 + clusterOf t.core else 4 * t.core + t.part.toNat

/-- The splits of one issuer in the order in which it tries them. -/
def issueOrder (s : State) (p : Nat) : List (TKey × BitVec 2) :=
  let all := (s.allThreads.filter (fun t => t.issuer == p)).flatMap (fun t => (List.range 4).filterMap (fun i =>
    (t.level.split? (BitVec.ofNat 2 i)).map (fun e => (s.rankOf t e, t.key, BitVec.ofNat 2 i))))
  (all.foldl (fun l x => insertRank x l) []).map Prod.snd

/-! ## Events that the state calls for -/

/-- The lanes that a flight has still to perform, which wait for nothing of their own. -/
def Flight.readyLanes (f : Flight) : List Nat := (f.todo.filter (fun a => a.wait.isNone && a.gated.isNone)).map LaneAcc.lane

/-- The events of a flight. -/
noncomputable def flightEvents (f : Flight) : List Instr :=
  let back : List Instr := if f.todo.isEmpty || !f.ready.isEmpty then [.longLatencyReturn f.id allLanes (-1)] else []
  let each (e : Nat → Nat → Instr) : List Instr := f.readyLanes.map (e f.id)
  match f.work with
  | .load .. | .estLoad _ | .cmpLoad => [.loadReturn f.id allLanes (-1) false]
  | .atomic _ =>
    back ++ each .atomicApply ++ (f.todo.filter (fun a => a.gated == some false)).map (fun a => .orderGateAdmit f.id a.lane)
  | .crep => back ++ each .atomicApply
  | .estAdd _ => back ++ each .estContributeApply
  | .estMerge => back ++ each .estMergeApply
  | .estGen => back ++ each .estGenApply
  | .cmpTerm | .cmpFlush | .cmpClear _ => back ++ each .cmpTermArrive
  | .ray .. => if f.todo.isEmpty then [.traceComplete f.id] else each (fun i l => .traceLaneFinish i ⟨l, 65536⟩)
  | .format | .result => back

/-- The events of a store in a write queue. -/
noncomputable def storeEvents (e : WqEntry) : List Instr :=
  match e.stage with
  | .queued => [.storeReachHome e.core e.id]
  | .home [] => if e.type = .far then [.farStoreAck e.core e.id] else [.storeAck e.core e.id]
  | .home rs => rs.map (.revoke e.core e.id)

/-- The events of a thread: what its splits wait for. -/
noncomputable def threadEvents (t : Thread) : List Instr :=
  (if t.drops = 0 then [] else [.estdropAck t.key]) ++ splitSlots.flatMap (fun sp =>
    match t.level.split? sp with
    | none => []
    | some e =>
      (match e.wait with
        | .join => [.joinArrive t.key sp]
        | .exit => [.splitLeave t.key sp]
        | .yield _ | .yieldSet _ _ => [.yieldExpiry t.key sp]
        | .none | .results _ | .rte | .scallRel .. | .scall | .fetch _ => []) ++
      (if e.due.any (fun x => x.cls == clsPOISON) then [.poisonTrapDeferred t.key sp] else []) ++
      (if e.words.any (fun p => p.stage == oappStage) then [.oappGrant t.key sp] else []) ++ [.progressPromote t.key sp])

/-- The events of a cluster's engines. -/
noncomputable def clusterEvents (c : Cluster) : List Instr :=
  (if c.resv.any (fun r => !r.granted) then [.matGrant c.id false, .matGrant c.id true] else []) ++
    c.resv.flatMap (fun r => if r.granted then [.matEntryComplete c.id r.id] else []) ++
    c.mvnb.map (fun m => .mvnbComplete c.id m.id) ++
    c.hamper.flatMap (fun o =>
      if o.started then (if o.fn = 2 then o.shares.map (.hmcastShareLand c.id o.id) else []) ++ [.hamperOpComplete c.id o.id]
      else [.hamperOpStart o.key o.sp])

/-- The events of a region: its nodes, its Ladle, its gates. -/
noncomputable def regionEvents (r : Region) : List Instr :=
  ((List.range r.nodes.length).zip r.nodes).flatMap (fun (i, q) =>
      if q.taken < q.appended then [.nodeGroupTimer r.rcb i] else []) ++
    (if r.env.deterministic then [.ladleHandon r.rcb, .ladleVisitTimeout r.rcb] else []) ++
    r.gates.map (fun g => .orderGateTimeout r.rcb g.addr)

/-- The events of a draw. -/
noncomputable def drawEvents (d : Draw) : List Instr :=
  if d.ended then []
  else if d.next ≤ d.ntri then [.rasterTriangle d.id]
  else ((List.range d.tileCount).filter (fun t => !d.tiles.contains t)).map (.rasterTileRecord d.id)

/-- The events of workgroups and dispatches. -/
noncomputable def groupEvents (s : State) : List Instr :=
  (if s.dispatches.any Dispatch.ready then [.workgroupPlace] else []) ++ s.groups.flatMap (fun g =>
    match g.status with
    | .saved _ => [.restore g.id]
    | .saving area => .fullSave g.id area :: (if g.allLeft then [.workgroupRetire g.id] else [])
    | .resident | .frozen | .shadow => if g.allLeft then [.workgroupRetire g.id] else [])

/-- The events that the state calls for, each with no choice of an outside agent in it. -/
noncomputable def ownEvents (s : State) : List Instr :=
  s.flights.flatMap flightEvents ++ ((s.hold.map WqEntry.core).dedup.map .writeQueueEnter) ++ s.wq.flatMap storeEvents ++
    s.allThreads.flatMap threadEvents ++ s.clusters.flatMap clusterEvents ++ s.regions.flatMap regionEvents ++
    s.draws.flatMap drawEvents ++ groupEvents s ++ s.watches.map (fun w => .watchSweep w.handle) ++
    s.crucible.map (fun x => .crucibleHoldExpire x.1) ++
    (s.images.filter Image.loading).map (fun i => .loadComplete i.handle)

/-- One of them, each in its turn. -/
noncomputable def autoEvent (s : State) : Option Instr :=
  let es := ownEvents s
  es[s.stamp / 2 % es.length]?

/-- A choice names an event that comes about by itself, not a word nor what a word does as it runs: those come about as
groups issue. -/
def Instr.comes (i : Instr) : Bool :=
  !i.isWord && (match i with
    | .nonInstruction _ | .loopCounterWrite _ _ | .hstatClear _ | .sstatClear _ _ | .mstatClear _ | .trapStateWrite _ _
    | .clmBankModeWrite _ _ | .clmBankRefusedClear _ _ => false
    | _ => true)

/-! ## Time -/

/-- The clock from which each split of a thread has been eligible (R336): this one, for a split that is not. -/
def State.waitingSince (s : State) (t : Thread) : Thread :=
  { t with level := splitSlots.foldl (fun l i =>
      if s.eligible t i then l else l.mapSplit i (fun e => { e with since := s.clock })) t.level }

/-- Time passes in every step (log entry 2). -/
def State.tick (s : State) : State :=
  { s with
    thr := s.waitingSince s.thr
    threads := s.threads.map s.waitingSince
    stamp := s.stamp + 1
    clock := s.clock + Config.clockTick s.stamp
    time := s.time + Config.timeTick s.stamp }

/-! ## A word placed to be fetched (log entry 15) -/

/-- A page-table entry at an address. -/
def putEntry (m : List Host.Cell) (a v : Nat) : List Host.Cell := cellsWrite m a (bytesOfNat 8 v)

/-- Memory with a page table at 0x200000 that maps the page at virtual 0x10000 to physical 0x100000, and a packet there
whose word 0 is the word given, the others zero. -/
def placeCode (m : List Host.Cell) (w : Nat) : List Host.Cell :=
  let m := putEntry m 0x200000 0x201001
  let m := putEntry m 0x201000 0x202001
  let m := putEntry m 0x202000 0x203001
  let m := putEntry m 0x203000 0x204001
  let m := putEntry m 0x204008 0x100003
  cellsWrite m 0x100000 (bytesOfNat 12 w)

/-- A thread of a kernel at the placed code; an MCC thread for a MAT word, which waves do not run (R28). -/
def placedThread (w : Nat) : Thread :=
  let mcc := w / 2 ^ 24 % 64 == 0x28
  { Thread.start with
    key := ⟨0, if mcc then 16 else 0⟩
    mcc := mcc
    kern := { Kern.none with codeBase := 0x10000 }
    env := { Env.none with ptroot := 0x200000, rcb := 0x300000 }
    level := Level.start (Split.start 0 (if mcc then 1 else allLanes)) }

end Sys2Proof.Machine
end

