-- ==== Sys2Proof/Machine/Control.lean ====
section
/-! DEFINITION. Control flow: FLOW, BR, CALL, BRU, BRS (R60 to R76), and the events of splits and waits. -/

namespace Sys2Proof.Machine

/-- NOP: nothing (R76). -/
def execNop (s : State) : Out := .next s

/-- MJOIN: push a join entry and make it the split's frame (R67). -/
def execMjoin (o : BitVec 19) (s : State) : Out :=
  match s.thr.level.pushSlot with
  | none => .next (s.trapWord clsREJOIN 1)
  | some j =>
    let parent := (s.split.bind Split.frame)
    let l := s.thr.level.setEntry j (some (.join (s.target (s.offset o)) parent 0 0))
    .next ((s.setLevel l).setSplit (fun e => { e with frame := some j }))

/-- JOIN: wait for the split's results, then arrive at its frame (R68). -/
def execJoin (s : State) : Out :=
  match s.split with
  | none => .next s
  | some e =>
    if e.frame.isNone then .next (s.trapWord clsREJOIN 2)
    else if s.pendingResults s.ctx.sp then .next (s.waitFor .join)
    else
      let s := s.arrive s.ctx.sp e.cur e.owned
      .next { s with ctx := { s.ctx with out := .left } }

/-- RET: go to word 0 of packet s59 (R62). -/
def execRet (s : State) : Out := .next (s.transfer (s.rdSn 59))

/-- JMPR: go to word 0 of packet sN (R62). -/
def execJmpr (n : Reg) (s : State) : Out := .next (s.transfer (s.rdS n))

/-- LOOP and LOOPI (R72). -/
def startLoop (s : State) (count : Word) (n : BitVec 7) : State :=
  let l := s.thr.level
  if l.loopBlocked then s.trapWord clsREJOIN 3
  else if l.loops.depth = 3 then s.trapWord clsREJOIN 4
  else if count = 0 then s.transfer (s.ctx.pc + n.zeroExtend 32 + 1)
  else
    let k := l.loops.depth.toNat
    let lp : Loops :=
      { depth := l.loops.depth + 1
        len := l.loops.len.setIfInBounds k n
        lc := l.loops.lc.setIfInBounds k count
        start := l.loops.start.setIfInBounds k (s.ctx.pc + 1) }
    s.setLevel { l with loops := lp }

/-- LOOP: the count is sS (R72). -/
def execLoop (c : Reg) (n : BitVec 7) (s : State) : Out := .next (startLoop s (s.rdS c) n)

/-- LOOPI: the count is an immediate (R72). -/
def execLoopi (t : BitVec 12) (n : BitVec 7) (s : State) : Out := .next (startLoop s (s.immU t) n)

/-- LBRK: leave the innermost loop (R74). -/
def execLbrk (s : State) : Out :=
  let l := s.thr.level
  if l.loops.depth = 0 then .next (s.trapWord clsREJOIN 5)
  else if l.loopBlocked then .next (s.trapWord clsREJOIN 3)
  else
    let i := l.loops.depth.toNat - 1
    let s1 := s.setLevel { l with loops := { l.loops with depth := l.loops.depth - 1 } }
    .next (s1.transfer ((l.loops.start[i]?.getD 0) + (l.loops.len[i]?.getD 0).zeroExtend 32))

/-- YIELD: not eligible for n clocks, or until the partition's other eligible splits have moved on (R76). -/
def execYield (y : BitVec 19) (s : State) : Out :=
  let n := s.imm19 y
  if n = 0 then .next (s.waitFor (.yieldSet s.eligibleOthers (s.clock + 64)))
  else .next (s.waitFor (.yield (s.clock + n)))

/-- The result classes of a WAITX mask: 0 selects all four (R76). -/
def waitClasses (w : BitVec 4) : BitVec 4 := if w = 0 then 15 else w

/-- WAITX: park until the results of the classes have returned, those of a parked word of its own group among them (R76,
R77). -/
def execWaitx (w : BitVec 4) (s : State) : Out :=
  if s.waitsResults s.thr.key s.ctx.sp false (waitClasses w) ∨ (s.split.bind Split.parked).isSome then .next (s.waitFor (.results (waitClasses w)))
  else .next s

/-- BR: go to packet P + offset (R60). -/
def execBr (o : BitVec 23) (s : State) : Out := .next (s.transfer (s.target (s.offset o)))

/-- CALL: s59 := P + 1, then go to packet P + offset (R60). -/
def execCall (o : BitVec 23) (s : State) : Out :=
  .next ((s.wrSn 59 (s.ctx.pc + 1)).transfer (s.target (s.offset o)))

/-- The condition of BRU (R32, R61). -/
def bruTaken (q : BitVec 2) (x : Word) : Bool :=
  match q.toNat with
  | 0 => x == 0
  | 1 => x != 0
  | 2 => x.msb
  | _ => !x.msb

/-- BRU: the whole split branches on a scalar (R61). -/
def execBru (c : Reg) (q : BitVec 2) (o : BitVec 16) (s : State) : Out :=
  if bruTaken q (s.rdS c) then .next (s.transfer (s.target (s.offset o))) else .next s

/-- The outstanding results of the issuing split become outstanding for entry `i` too, those of words that are parked among
them (R65, R77). -/
def State.shareFlights (s : State) (i : BitVec 2) : State :=
  let share (x : BitVec 4) : BitVec 4 := if x.getLsbD s.ctx.sp.toNat then x ||| ((1 : BitVec 4) <<< i.toNat) else x
  (s.setLevel (s.thr.level.mapWords (fun p => { p with splits := share p.splits }))).mapFlights s.thr.key (fun x =>
    { x with splits := share x.splits })

/-- The outstanding results of the issuing split become outstanding for pending entry `j` too (R65, R66). -/
def State.sharePending (s : State) (j : BitVec 4) : State :=
  let share (x : BitVec 4) (y : BitVec 16) : BitVec 16 := if x.getLsbD s.ctx.sp.toNat then y ||| ((1 : BitVec 16) <<< j.toNat) else y
  (s.setLevel (s.thr.level.mapWords (fun p => { p with pends := share p.splits p.pends }))).mapFlights s.thr.key (fun x =>
    { x with pends := share x.splits x.pends })

/-- BRS: branch, or split the lanes (R65, R66). -/
def execBrs (m : Reg) (e : BitVec 2) (o : BitVec 16) (s : State) : Out :=
  let cur := s.cur
  let t := s.rdMask m &&& cur
  let dest := s.target (s.offset o)
  match e.toNat with
  | 1 => if t = cur then .next (s.transfer dest) else .next s
  | 2 => if t ≠ 0 then .next (s.transfer dest) else .next s
  | 3 => if t = 0 then .next (s.transfer dest) else .next s
  | _ =>
    if t = 0 then .next s
    else if t = cur then .next (s.transfer dest)
    else
      let frame := s.split.bind Split.frame
      match s.thr.level.freeEntry with
      | some i =>
        let side := { Split.opened s ⟨dest, 0⟩ t t frame with xfer := some ⟨s.ctx.pc, s.ctx.gslot⟩ }
        let s1 := s.setSplit (fun e => { e with cur := e.cur &&& ~~~t, owned := e.owned &&& ~~~t })
        .next ((s1.setLevel (s1.thr.level.setSplit i (some side))).shareFlights i)
      | none =>
        match s.thr.level.pushSlot with
        | none => .next (s.trapWord clsREJOIN 1)
        | some j =>
          let owned := ((s.split.map Split.owned).getD 0) &&& ~~~t
          let l := s.thr.level.setEntry j (some (.pending s.ctx.next (cur &&& ~~~t) owned frame))
          let s1 := ((s.setLevel l).sharePending j).setSplit (fun e =>
            { e with cur := e.cur &&& t, owned := e.owned &&& t })
          .next (s1.transfer dest)

/-! ## Events -/

/-- NON_INSTRUCTION: a group that holds a non-instruction or is an illegal chain reaches issue (R29). -/
def execNonInstruction (slot : BitVec 2) (s : State) : Out :=
  .next (({ s with ctx := { s.ctx with slot := slot } } : State).trapGroup clsILL 0 0 s.active)

/-- JOIN_ARRIVE: a split parked at JOIN arrives once its results have returned (R68). -/
def execJoinArrive (t : TKey) (sp : BitVec 2) (s : State) : Out :=
  .next (s.forSplit t sp (fun u e =>
    if e.wait = .join ∧ !u.pendingResults sp then u.arrive sp e.cur e.owned else s))

/-- SPLIT_LEAVE: a split that issued EXIT leaves once its results have returned (R69, R281, R357). -/
def execSplitLeave (t : TKey) (sp : BitVec 2) (s : State) : Out :=
  .next (s.forSplit t sp (fun u e =>
    if e.wait = .exit ∧ !u.pendingResults sp ∧ !u.mccBusy then u.leave sp else s))

/-- YIELD_EXPIRY: a yielding split becomes eligible (R76). -/
def execYieldExpiry (t : TKey) (sp : BitVec 2) (s : State) : Out :=
  .next (s.forSplit t sp (fun u e =>
    let free (u : State) : State :=
      { u with thr := { u.thr with level := u.thr.level.setSplit sp (some { e with wait := .none }) } }
    match e.wait with
    | .yield c => if c ≤ u.clock then free u else s
    | .yieldSet set c => if c ≤ u.clock ∨ !set.any (u.yieldHeld u.thr) then free u else s
    | .none | .join | .exit | .results _ | .rte | .scallRel .. | .scall | .fetch _ => s))

/-- The workgroup of a thread is the lowest unfinished one of its dispatch (R336). -/
def State.lowestUnfinished (s : State) (t : Thread) : Bool :=
  match s.dispatch? t.disp with
  | some d => t.index.toNat == ((List.range (d.retired.length + 1)).find? (fun i => !d.retired.contains i)).getD 0
  | none => false

/-- The wave has waited 4,096 clocks for an issue slot: it has an eligible split, and none of them became eligible since
(R336). -/
def State.waited (s : State) (t : Thread) : Bool :=
  splitSlots.any (s.eligible t) && splitSlots.all (fun i => !s.eligible t i ||
    ((t.level.split? i).map (fun e => decide (e.since + 4096 ≤ s.clock))).getD true)

/-- PROGRESS_PROMOTE: an eligible split of a wave of the lowest unfinished workgroup that has waited 4,096 clocks issues
ahead of R83 (R336). -/
def execProgressPromote (t : TKey) (sp : BitVec 2) (s : State) : Out :=
  match s.thread? t with
  | some th =>
    if s.eligible th sp ∧ s.lowestUnfinished th ∧ s.waited th then
      .next (s.modThread t (fun th => { th with level := th.level.mapSplit sp (fun e => { e with promoted := true }) }))
    else .next s
  | none => .next s

/-- A write of an active loop counter (R71, R73). -/
def State.setCounter (s : State) (k : Nat) (x : Word) : State :=
  let l := s.thr.level
  s.setLevel { l with loops := { l.loops with lc := l.loops.lc.setIfInBounds k x } }

/-- LOOP_COUNTER_WRITE: a CTLW to a loop counter (R73). -/
def execLoopCounterWrite (level : BitVec 2) (x : Word) (s : State) : Out := .next (s.setCounter level.toNat x)

end Sys2Proof.Machine
end

