-- ==== Sys2Proof/Machine/Convert.lean ====
section
/-! DEFINITION. The words of the X pipe: XCVT, XSF, XPACK, XQNT, XRNG (R107 to R118). -/

namespace Sys2Proof.Machine

/-- XCVT: convert an element of vA from format SF to format DF, by RND or ctl.round (R109). -/
def execXcvt (d a : Reg) (sf df : BitVec 4) (r : BitVec 3) (sat : Bool) (s : State) : Out :=
  let mode := if r = 6 then s.mode else RMode.ofCode r.toNat
  .next (fop1 (fun r16 x => convert sf.toNat df.toNat mode sat r16 x) d a false s)

/-- XRCP: 1 / vA, correctly rounded RN-even (R115). -/
def execXrcp (d a : Reg) (l : Bool) (s : State) : Out := .next (fop1 (fun _ x => frcp32 x) d a l s)

/-- XRSQ: 1 / √vA, correctly rounded RN-even (R115). -/
def execXrsq (d a : Reg) (l : Bool) (s : State) : Out := .next (fop1 (fun _ x => frsqrt32 x) d a l s)

/-- XSQRT: √vA, correctly rounded RN-even (R115). -/
def execXsqrt (d a : Reg) (l : Bool) (s : State) : Out := .next (fop1 (fun _ x => fsqrt32 x) d a l s)

/-- XEXP2 by the steps of R116. -/
def execXexp2 (d a : Reg) (l : Bool) (s : State) : Out := .next (fop1 (fun _ x => xexp2Lane x) d a l s)

/-- XLOG2 by the steps of R116. -/
def execXlog2 (d a : Reg) (l : Bool) (s : State) : Out := .next (fop1 (fun _ x => xlog2Lane x) d a l s)

/-- XSIN by the steps of R116. -/
def execXsin (d a : Reg) (l : Bool) (s : State) : Out := .next (fop1 (fun _ x => xsinLane x) d a l s)

/-- XCOS by the steps of R116. -/
def execXcos (d a : Reg) (l : Bool) (s : State) : Out := .next (fop1 (fun _ x => xcosLane x) d a l s)

/-- XTANH by the steps of R116. -/
def execXtanh (d a : Reg) (l : Bool) (s : State) : Out := .next (fop1 (fun _ x => xtanhLane x) d a l s)

/-- XDIV: vA / vB, correctly rounded RN-even (R115). -/
def execXdiv (d a b : Reg) (l : Bool) (s : State) : Out := .next (fop2 (fun _ x y => fdiv32 x y) d a b l s)

/-- XPACK6: four 6-bit elements into 24 bits (R110). -/
def execXpack6 (d a : Reg) (l : Bool) (s : State) : Out := .next (vint1 pack6 d a l s)

/-- XUNPK6: 24 bits into four 6-bit elements (R110). -/
def execXunpk6 (d a : Reg) (l : Bool) (s : State) : Out := .next (vint1 unpack6 d a l s)

/-- XUNPK4: eight nibbles into the pair vD:vD+1 (R110). -/
def execXunpk4 (d a : Reg) (l : Bool) (s : State) : Out :=
  let x := s.rdV a
  let tag := s.tagU [a]
  let t := s.wrVn d.toNat (fun i => unpack4 (laneOf x i) 0) tag
  let t := t.wrVn (d.toNat + 1) (fun i => unpack4 (laneOf x i) 16) tag
  .next (if a.toNat = d.toNat + 1 then t else t.releaseV l a d)

/-- XPACK4: eight nibbles of vA and vB (R110). -/
def execXpack4 (d a b : Reg) (l : Bool) (s : State) : Out := .next (vint2 pack4 d a b l s)

/-- XPACKH: vB[15:0] × 2^16 + vA[15:0] (R110). -/
def execXpackh (d a b : Reg) (l : Bool) (s : State) : Out := .next (vint2 (fun x y => (y <<< 16) ||| (x &&& 0xFFFF)) d a b l s)

/-- XPACKB: old vD[15:0] × 2^16 + vB[7:0] × 2^8 + vA[7:0] (R110). -/
def execXpackb (d a b : Reg) (l : Bool) (s : State) : Out :=
  .next (vint3 (fun x y z => (z <<< 16) ||| ((y &&& 0xFF) <<< 8) ||| (x &&& 0xFF)) d a b l s)

/-- XQNT4: FP32 to UINT4 by group scale and zero point (R112). -/
def execXqnt4 (d a b : Reg) (l : Bool) (s : State) : Out := .next (fop2 (quantGroup 15 s.mode) d a b l s)

/-- XQNT8: FP32 to UINT8 by group scale and zero point (R112). -/
def execXqnt8 (d a b : Reg) (l : Bool) (s : State) : Out := .next (fop2 (quantGroup 255 s.mode) d a b l s)

/-- XDQNT4: the FP32 value of a group element (R89, R112). -/
def execXdqnt4 (d a b : Reg) (l : Bool) (s : State) : Out := .next (vint2 (dequantGroup 4) d a b l s)

/-- XDQNT8: the FP32 value of a group element (R89, R112). -/
def execXdqnt8 (d a b : Reg) (l : Bool) (s : State) : Out := .next (vint2 (dequantGroup 8) d a b l s)

/-- XQMX: FP32 to an element under a block scale (R114). -/
def execXqmx (d a b : Reg) (l : Bool) (s : State) : Out := .next (fop2 (quantBlock s.mode) d a b l s)

/-- XDQMX: an element under a block scale to FP32 (R114). -/
def execXdqmx (d a b : Reg) (l : Bool) (s : State) : Out := .next (fop2 (dequantBlock s.mode) d a b l s)

/-- XAMAX: the scale for a largest magnitude (R113). -/
def execXamax (d a b : Reg) (l : Bool) (s : State) : Out := .next (fop2 (fun _ x y => amaxScale x y) d a b l s)

/-- The next draw of a lane (R117). -/
def State.draw (s : State) (l : Nat) : Word :=
  streamDraw (s.thr.lane l) (Quad.ofNat s.thr.keyNat) (s.thr.draw[l]?.getD 0)

/-- XRNGB: vD := the next draw (R118). -/
def execXrngb (d : Reg) (s : State) : Out := .next (fword (fun l => ⟨s.draw l, flNone, 1⟩) .g d s)

/-- XRNGU: the next draw as a number from 0 to 1 − 2^−24 (R118). -/
def execXrngu (d : Reg) (s : State) : Out := .next (fword (fun l => ⟨unitDraw (s.draw l), flNone, 1⟩) .g d s)

/-- XRNGK: a keyed hash of vA and vB; no draw (R118). -/
def execXrngk (d a b : Reg) (l : Bool) (s : State) : Out :=
  .next (vint2 (hashDraw (Quad.ofNat s.thr.keyNat)) d a b l s)

/-- XRNGJ: j := (j + vA + vB × 2^32) mod 2^64 (R118). -/
def execXrngj (a b : Reg) (l : Bool) (s : State) : Out :=
  let x := s.rdV a
  let y := s.rdV b
  .next ((s.advance (fun i => (laneOf x i).toNat + (laneOf y i).toNat * 2 ^ 32)).releaseV0 l a)

end Sys2Proof.Machine
end

