-- ==== Sys2Proof/Machine/Loader.lean ====
section
/-! DEFINITION. The host's requests and the loader: client rings (R389, R390), the checks of a BOF image (R38 to R50), and
loading (R51, R396): HOST_LOAD, LOAD_COMPLETE. -/

namespace Sys2Proof.Machine

/-! ## Requests and responses (R389, R390) -/

/-- A client ring on which nothing has happened. -/
def Client.fresh (id : Nat) : Client := ⟨id, [], 0, 0, 0, [], [], [], 0⟩

/-- The ring of a client. -/
def State.client (s : State) (id : Nat) : Client := (s.plat.clients.find? (fun c => c.id == id)).getD (Client.fresh id)

/-- Change the ring of a client. -/
def State.modClient (s : State) (id : Nat) (f : Client → Client) : State :=
  let c := f (s.client id)
  { s with plat := { s.plat with clients := { c with id := id } :: s.plat.clients.filter (fun x => x.id != id) } }

/-- Write a response into the client's next slot. -/
def State.answer (s : State) (client : Nat) (r : Response) : State :=
  s.modClient client (fun c => { c with written := c.written + 1, answers := c.answers ++ [r] })

/-- A response of a status and a value. -/
def Response.plain (tag status : Word) (value : BitVec 64) : Response := ⟨tag, status, value, 0, [], []⟩

/-- A response with a status alone, or with a value. -/
def State.respond (s : State) (rq : HostReq) (status : Word) (value : BitVec 64) : State :=
  s.answer rq.client.toNat (Response.plain rq.tag status value)

/-- The entry in a request slot; one that nothing was written into is zero. -/
def Client.slot (c : Client) (k : Nat) : List Byte :=
  ((c.slots.find? (fun x => x.1 == k % 64)).map Prod.snd).getD (List.replicate 64 0)

/-- The 64 bytes of a response (R390). -/
def Response.entry (r : Response) : List Byte :=
  bytesOfNat 4 r.status.toNat ++ bytesOfNat 4 r.tag.toNat ++ bytesOfNat 8 r.value.toNat ++ bytesOfNat 4 r.index.toNat ++
    List.replicate 44 0

/-- The entry in a response slot (R390). -/
def Client.responseSlot (c : Client) (i : Nat) : List Byte :=
  (((c.answers.drop (c.answers.length - 64)).zip ((List.range 64).map (fun k => c.written - min 64 c.answers.length + k))).find?
    (fun (_, k) => k % 64 == i)).map (fun (r, _) => r.entry) |>.getD (List.replicate 64 0)

/-- What a request entry of a code says (R390): the bytes of ARGS that the code names, as offset and size, and whether they hold
some arguments. -/
structure Ask where
  code  : Nat
  named : List (Nat × Nat)
  ok    : List Byte → Bool

/-- LOAD of an image. -/
def Ask.load (image : List Byte) (sig : Bool) : Ask :=
  ⟨1, [(8, 8), (16, 8), (24, 4)], fun b => fieldAt b 16 8 == image.length && (fieldAt b 24 4 % 2 == 1) == sig⟩
/-- UNLOAD of a handle. -/
def Ask.unload (handle : Nat) : Ask := ⟨2, [(8, 8)], fun b => fieldAt b 8 8 == handle⟩
/-- LAUNCH of a block. -/
def Ask.launch (block : List Byte) : Ask := ⟨3, [(8, 32)], fun b => (b.drop 8).take 32 == block⟩
/-- ALLOC with its arguments. -/
def Ask.alloc (a : AllocArgs) : Ask :=
  ⟨4, [(8, 8), (16, 3)], fun b => fieldAt b 8 8 == a.bytes && (b.drop 16).take 3 == [a.psize, a.type, a.attrs]⟩
/-- COPY with its arguments. -/
def Ask.copy (a : CopyArgs) : Ask :=
  ⟨5, [(8, 8), (16, 8), (24, 8), (32, 4)], fun b => fieldAt b 16 8 == a.dva && fieldAt b 24 8 == a.bytes && wordAt b 32 == a.dir⟩
/-- ATTEST with a nonce. -/
def Ask.attest (nonce : List Byte) : Ask := ⟨6, [(8, 8), (16, 32)], fun b => (b.drop 16).take 32 == nonce⟩
/-- EVENTS with the capacity of the buffer. -/
def Ask.events (capacity : Nat) : Ask := ⟨7, [(8, 8), (16, 4)], fun b => fieldAt b 16 4 == capacity⟩
/-- FREE of a range. -/
def Ask.free (va n : Nat) : Ask := ⟨8, [(8, 8), (16, 8)], fun b => fieldAt b 8 8 == va && fieldAt b 16 8 == n⟩
/-- A code with no arguments of its own. -/
def Ask.other (code : Nat) : Ask := ⟨code, [(8, 56)], fun _ => true⟩

/-- The bytes of ARGS that a code does not name are zero (R390). -/
def Ask.clean (a : Ask) (b : List Byte) : Bool :=
  (List.range 64).all (fun i => decide (i < 8) || a.named.any (fun (o, n) => decide (o ≤ i ∧ i < o + n)) || b[i]?.getD 0 == 0)

/-- The entry that Trestle reads next of a client. -/
def State.nextEntry (s : State) (rq : HostReq) : List Byte :=
  let c := s.client rq.client.toNat
  c.slot c.read

/-- The next request of a client, which its doorbell has announced, is this one (R390). -/
def State.asks (s : State) (rq : HostReq) (a : Ask) : Bool :=
  let c := s.client rq.client.toNat
  let b := s.nextEntry rq
  decide (c.read < c.bell) && fieldAt b 0 4 == a.code && fieldAt b 4 4 == rq.tag.toNat && a.ok b

/-- The client's next request is this one and has its effect: Trestle runs, and no unnamed argument is set (R390, R393). -/
def State.serves (s : State) (rq : HostReq) (a : Ask) : Bool :=
  s.asks rq a && s.plat.firmware.isSome && a.clean (s.nextEntry rq)

/-- Trestle reads a request: without firmware, or with an unnamed argument set, it is answered without effect (R390, R393). -/
def State.request (s : State) (rq : HostReq) (a : Ask) (f : State → State) : State :=
  if !s.asks rq a then s
  else
    let clean := a.clean (s.nextEntry rq)
    let s := s.modClient rq.client.toNat (fun c => { c with read := c.read + 1 })
    if s.plat.firmware.isNone then s.respond rq 0xFFFFFFFE 0
    else if !clean then s.respond rq 0xFFFFFFFD 0
    else f s

/-- A client writes a request slot (R390). -/
def State.writeSlot (s : State) (client i : Nat) (entry : List Byte) : State :=
  if entry.length ≠ 64 then s
  else s.modClient client (fun c => { c with slots := (i % 64, entry) :: c.slots.filter (fun x => x.1 != i % 64) })

/-- A client writes its doorbell word: a count more than 64 above the response count is ignored (R390). -/
def State.ringBell (s : State) (client : Nat) (count : Word) : State :=
  s.modClient client (fun c =>
    let n := c.bell + (count - BitVec.ofNat 32 c.bell).toNat
    if n ≤ c.written + 64 then { c with bell := n } else c)

/-- The client makes requests about a region, whose events it may then read (R390). -/
def State.noteRegion (s : State) (client rcb : Nat) : State :=
  s.modClient client (fun c => { c with regions := if c.regions.contains rcb then c.regions else c.regions ++ [rcb] })

/-! ## Sections (R38, R39) -/

/-- An entry of the section table. -/
structure Sect where
  kind  : Nat
  flags : Nat
  align : Nat
  foff  : Nat
  size  : Nat
  voff  : Nat
  deriving DecidableEq, Repr

/-- The sections of an image. -/
def sectionsOf (b : List Byte) : List Sect :=
  (List.range (fieldAt b 12 4)).map (fun i =>
    let e := (b.drop (fieldAt b 16 8 + 40 * i)).take 40
    ⟨fieldAt e 4 4, fieldAt e 8 4, fieldAt e 12 4, fieldAt e 16 8, fieldAt e 24 8, fieldAt e 32 8⟩)

/-- The section is allocated at load. -/
def Sect.alloc (x : Sect) : Bool := x.flags / 4 % 2 == 1

/-- The bytes of a section in the file; BSS has none. -/
def Sect.bytes (x : Sect) (b : List Byte) : List Byte := if x.kind = 4 then [] else (b.drop x.foff).take x.size

/-- The page type of a section's kind (R396). -/
def Sect.ptype (x : Sect) : PType :=
  match x.kind with
  | 10 => .est
  | 11 => .cmp
  | _ => .normal

/-- A kind breaks R39, or an allocated section does not start on a page (R396). That SFLAGS [31:3] are set, that ALIGN is above
30, or that the contents pass the end of the file, R49 does not list: the model counts each as code 4 (log entry 103). -/
def Sect.broken (x : Sect) (fileSize : Nat) : Bool :=
  let kindBad := match x.kind with
    | 1 => x.size % 12 != 0 || decide (x.align < 16)
    | 10 => decide (x.align < 16) || x.size % 16 != 0
    | 11 => decide (x.align < 16) || x.size % 32 != 0
    | 12 => decide (x.align < 11) || x.size % 2048 != 0
    | 13 => x.size % 256 != 0
    | _ => x.kind == 0 || x.kind == 7 || decide (14 < x.kind)
  kindBad || x.flags / 8 != 0 || decide (30 < x.align) || (x.kind != 4 && decide (fileSize < x.foff + x.size)) ||
    (x.alloc && x.voff % 65536 != 0)

/-- Two sections share bytes of the file or of virtual space. -/
def Sect.meets (x y : Sect) : Bool :=
  (x.kind != 4 && y.kind != 4 && x.size != 0 && y.size != 0 && decide (x.foff < y.foff + y.size ∧ y.foff < x.foff + x.size)) ||
    (x.alloc && y.alloc && x.size != 0 && y.size != 0 && decide (x.voff < y.voff + y.size ∧ y.voff < x.voff + x.size))

/-- The first element, in order, that a test finds, with its index. -/
def firstIdx {α : Type} (p : Nat → α → Bool) : Nat → List α → Option Nat
  | _, [] => none
  | i, x :: xs => if p i x then some i else firstIdx p (i + 1) xs

/-- The descriptors of `n` bytes in the sections of a kind, each with its offset from the image base if its section is
mapped, in the order of the section table. -/
def descsOf (b : List Byte) (kind n : Nat) : List (List Byte × Option Nat) :=
  (sectionsOf b).flatMap (fun x =>
    if x.kind = kind then
      (List.range (x.size / n)).map (fun i =>
        (((b.drop (x.foff + n * i)).take n), if x.alloc then some (x.voff + n * i) else none))
    else [])

/-- The TEXT section. -/
def textOf (b : List Byte) : Option Sect := (sectionsOf b).find? (fun x => x.kind == 1)

/-- The packets of the TEXT section. -/
def packetsOf (b : List Byte) : Nat := ((textOf b).map (fun x => x.size / 12)).getD 0

/-- Word `j` of the TEXT section. -/
def textWord (b : List Byte) (j : Nat) : Word := wordAt b (((textOf b).map Sect.foff).getD 0 + 4 * j)

/-! ## The checks (R49) -/

/-- 1 BADMAGIC. -/
def badMagic (b : List Byte) : Bool :=
  decide (b.length < 64) || b.take 4 != [0x42, 0x4F, 0x46, 0x1A] || fieldAt b 8 4 != 64 || fieldAt b 32 8 != b.length

/-- 2 BADVERSION. -/
def badVersion (b : List Byte) : Bool := fieldAt b 4 2 != 1 || fieldAt b 6 2 / 4 != 0 || fieldAt b 28 4 != 0

/-- The signature block breaks R48, or its digest or signature is wrong. -/
def sigBroken (b : List Byte) : Bool :=
  let o := fieldAt b 40 8
  let x := b.drop o
  o + 1408 != b.length || x.take 4 != [0x53, 0x49, 0x47, 0x00] || fieldAt x 4 2 != 1 || fieldAt x 6 2 != 0 ||
    fieldAt x 8 8 != o || decide (1280 < fieldAt x 96 2) || fieldAt x 98 30 != 0 ||
    ((x.drop (128 + fieldAt x 96 2)).take (1280 - fieldAt x 96 2)).any (fun y => y != 0) ||
    (x.drop 32).take 64 != Config.shake256 (b.take o) 64 ||
    !Config.signatureOk ((x.drop 16).take 16) ((x.drop 32).take 64) ((x.drop 128).take (fieldAt x 96 2))

/-- 3 BADSIG. -/
def badSig (b : List Byte) (required : Bool) : Bool :=
  let present := fieldAt b 6 2 / 2 % 2 == 1
  (required && !present) || (present && sigBroken b)

/-- 4 BADSECTION, with the section. A section table that cannot be read counts as its first section. -/
def badSection (b : List Byte) : Option Nat :=
  if fieldAt b 6 2 % 2 = 0 ∨ fieldAt b 12 4 = 0 ∨ 65535 < fieldAt b 12 4 ∨ fieldAt b 16 8 % 8 ≠ 0 ∨
      b.length < fieldAt b 16 8 + 40 * fieldAt b 12 4 then some 0
  else
    let ss := sectionsOf b
    firstIdx (fun i x => x.broken b.length || (ss.take i).any (fun y => x.meets y || (x.kind == 1 && y.kind == 1))) 0 ss

/-- A kernel descriptor breaks R44, or names packets outside TEXT, a node or a template that is not there. -/
def kernBroken (b : List Byte) (d : List Byte) : Bool :=
  let f := fieldAt d
  let n := packetsOf b
  let flags := f 4 4
  let none32 := 0xFFFFFFFF
  decide (2 ≤ flags / 2) || f 12 4 == 0 || decide (n < f 8 4 + f 12 4) ||
    (if flags / 2 % 2 = 1 then decide (n ≤ f 16 4) else f 16 4 != none32) ||
    (if flags % 2 = 1 then decide (n ≤ f 20 4) else f 20 4 != none32) ||
    f 24 2 == 0 || decide (64 < f 24 2) || f 26 2 == 0 || decide (16 < f 26 2) ||
    f 28 4 % 256 != 0 || decide (2097152 < f 28 4) || decide (31 < f 32 1) || decide (32 < f 33 1) ||
    f 34 2 % 16 != 0 || decide (1024 < f 34 2) ||
    (f 36 4 != none32 && decide ((descsOf b 9 64).length ≤ f 36 4)) ||
    (f 40 4 != none32 && decide ((descsOf b 13 256).length ≤ f 40 4)) ||
    f 44 4 != 0 || f 48 8 != 0 || f 56 72 != 0

/-- A word of an opcode above 0x20 names a vector register at or above VREGS (R50). A form whose fields break their limits
is a non-instruction and skipped. -/
def highOver (vregs : Nat) (w : Word) : Bool :=
  let op := (w.extractLsb' 24 6).toNat
  let d := (w.extractLsb' 18 6).toNat
  let a := (w.extractLsb' 12 6).toNat
  if op = 0x22 then
    let fn := (w.extractLsb' 0 5).toNat
    let low := (w.extractLsb' 5 2).toNat
    if fn < 2 then decide (low = 0 ∧ a ≤ 56 ∧ d ≤ 58 ∧ (vregs < a + 8 ∨ vregs < d + 6))
    else if fn = 2 then decide (low = 0 ∧ a ≤ 53 ∧ d ≤ 32 ∧ (vregs < a + 11 ∨ vregs < d))
    else decide (fn = 3 ∧ (w.extractLsb' 5 13).toNat = 0 ∧ d ≤ 61 ∧ vregs < d + 3)
  else if op = 0x24 then
    decide ((w.extractLsb' 18 6).toNat = 0 ∧ (vregs ≤ (w.extractLsb' 0 6).toNat ∨ vregs ≤ (w.extractLsb' 12 6).toNat))
  else if op = 0x3E then
    let fn := (w.extractLsb' 19 5).toNat
    let r := (w.extractLsb' 6 12).toNat
    decide ((fn = 3 ∨ fn = 4) ∧ (w.extractLsb' 18 1).toNat = 0 ∧ 0x40 ≤ r ∧ r < 0x80 ∧ vregs ≤ r - 0x40)
  else false

/-- A word names a vector register at or above VREGS (R50). -/
def wordOver (vregs : Nat) (w : Word) : Bool :=
  match decodeLow w with
  | .ok i => i.wellFormed && !vregsOk vregs i
  | .error _ => highOver vregs w

/-- The word is a TCALL whose payload exceeds PAYREGS. What it spills is known only where it runs (R269). -/
def payloadOver (payregs : Nat) (w : Word) : Bool :=
  decide ((w.extractLsb' 24 6).toNat = 0x22 ∧ (w.extractLsb' 0 5).toNat = 2 ∧ (w.extractLsb' 5 2).toNat = 0 ∧
    (w.extractLsb' 12 6).toNat ≤ 53 ∧ (w.extractLsb' 18 6).toNat ≤ 32 ∧ payregs < (w.extractLsb' 18 6).toNat)

/-- The first word of a kernel's range that a test finds, numbered from the start of TEXT. -/
def wordIn (b d : List Byte) (p : Word → Bool) : Option Nat :=
  ((List.range (3 * fieldAt d 12 4)).map (fun i => 3 * fieldAt d 8 4 + i)).find? (fun j => p (textWord b j))

/-- A workgroup does not fit an empty core (R49). -/
def fitBroken (d : List Byte) : Bool := decide (262144 < (fieldAt d 26 2 + 3) / 4 * fieldAt d 24 2 * 384)

/-- A number is a power of two from 2^6 to 2^24. -/
def capOk (n : Nat) : Bool := (List.range 19).any (fun i => n == 2 ^ (i + 6))

/-- A node descriptor breaks R45, or names no kernel. -/
def nodeBroken (b d : List Byte) : Bool :=
  let f := fieldAt d
  decide ((descsOf b 8 128).length ≤ f 4 4) || f 8 4 % 4 != 0 || f 8 4 == 0 || decide (512 < f 8 4) || !capOk (f 12 4) ||
    (f 16 4 != 0 && decide (f 16 4 < 100 ∨ 1000000 < f 16 4)) || decide (2 ≤ f 20 4) || f 24 8 != 0 || f 32 32 != 0

/-- The loader's checks in their order: the code and the index of the first that fails (R49). -/
def loadCheck (b : List Byte) (required : Bool) : Option (Nat × Nat) :=
  let kerns := (descsOf b 8 128).map Prod.fst
  if badMagic b then some (1, 0)
  else if badVersion b then some (2, 0)
  else if badSig b required then some (3, 0)
  else
    match badSection b with
    | some i => some (4, i)
    | none =>
      ((firstIdx (fun _ d => kernBroken b d) 0 kerns).map (fun i => (5, i))).or <|
      ((kerns.findSome? (fun d => wordIn b d (wordOver (fieldAt d 24 2)))).map (fun i => (6, i))).or <|
      ((firstIdx (fun _ d => fitBroken d) 0 kerns).map (fun i => (7, i))).or <|
      ((kerns.findSome? (fun d => wordIn b d (payloadOver (fieldAt d 33 1)))).map (fun i => (8, i))).or <|
      ((firstIdx (fun _ d => nodeBroken b d) 0 ((descsOf b 9 64).map Prod.fst)).map (fun i => (9, i))).or <|
      ((firstIdx (fun _ d => !rcbOk d) 0 ((descsOf b 13 256).map Prod.fst)).map (fun i => (10, i)))

/-! ## Loading (R51, R396) -/

/-- The 64 KiB pages of a range, by their addresses. -/
def pagesOf (va n : Nat) : List Nat := (List.range ((n + 65535) / 65536)).map (fun i => va + 65536 * i)

/-- Every 64 KiB page of a range answers as a test asks. -/
def State.pagesAre (s : State) (root va n : Nat) (p : Page → Bool) : Bool :=
  (pagesOf va n).all (fun va => ((s.pageAt root va).map p).getD false)

/-- A section is mapped as R396 gives. -/
def State.sectMapped (s : State) (root base : Nat) (x : Sect) : Bool :=
  !x.alloc || ((base + x.voff) % 2 ^ x.align == 0 && s.pagesAre root (base + x.voff) x.size (fun p =>
    p.size == 65536 && p.type == x.ptype && p.ro == (x.flags % 2 == 0) && p.nx == (x.flags / 2 % 2 == 0) && !p.ds && !p.rec_))

/-- Write a range at its homes, whatever its pages let programs do. -/
def State.placeVirt (s : State) (root va : Nat) (bytes : List Byte) : State :=
  (sectorRuns va bytes.length).foldl (fun s (o, n) =>
    match s.pageAt root (va + o) with
    | some p => s.engineWrite p.pa ((bytes.drop o).take n)
    | none => s) s

/-- A section's contents, or zeros, are in place. -/
def State.placeSect (s : State) (root base : Nat) (b : List Byte) (x : Sect) : State :=
  if !x.alloc then s
  else s.placeVirt root (base + x.voff) (if x.kind = 4 then List.replicate x.size 0 else x.bytes b)

/-- A field of a kernel descriptor that 0xFFFF_FFFF leaves out. -/
def optField (d : List Byte) (o : Nat) : Option Nat := if fieldAt d o 4 = 0xFFFFFFFF then none else some (fieldAt d o 4)

/-- The facts of a kernel descriptor (R44); one that is not mapped has no address. -/
def kernOf (handle : Nat) (code : BitVec 64) (base : Nat) (d : List Byte × Option Nat) : Kern :=
  let f := fieldAt d.1
  { kdesc := (d.2.map (base + ·)).getD (2 ^ 64), image := handle, hasMcc := f 4 4 % 2 == 1
    handler := if f 4 4 / 2 % 2 = 1 then some (BitVec.ofNat 32 (f 16 4)) else none
    entry := BitVec.ofNat 32 (f 8 4), mccEntry := BitVec.ofNat 32 (f 20 4), vregs := f 24 2, waves := f 26 2
    clmBytes := f 28 4, depth := f 32 1, payregs := f 33 1, spill := f 34 2, input := optField d.1 36
    template := optField d.1 40, codeBase := code }

/-- The queue of a node descriptor whose ring stands at an address (R45). -/
def nodeOf (handle : Nat) (kerns : List Kern) (ring : Nat) (d : List Byte) : NodeQueue :=
  let f := fieldAt d
  { image := handle, kern := kerns[f 4 4]?.getD Kern.none, recBytes := f 8 4, cap := f 12 4
    timer := if f 16 4 = 0 then 2000 else f 16 4, headCache := f 20 4 % 2 == 1, ring := BitVec.ofNat 64 ring
    appended := 0, freed := 0, released := [], taken := 0, ages := [], solo := [], stream := none }

/-- The bytes of a node's ring (R45). -/
def ringBytes (d : List Byte) : Nat := fieldAt d 8 4 * fieldAt d 12 4

/-- The pages that a plan gives an image: those of its allocated sections and of its nodes' rings. -/
def planPages (plan : LoadPlan) (b : List Byte) : List Nat :=
  (sectionsOf b).flatMap (fun x => if x.alloc then pagesOf (plan.base + x.voff) x.size else []) ++
    (plan.rings.zip (descsOf b 9 64)).flatMap (fun (r, d) => pagesOf r (ringBytes d.1))

/-- Trestle's choices fit the image: its base is a page's, there is a ring for each node and an RCB for each template, and every
page of the image is mapped as R396 gives. -/
def State.planFits (s : State) (root : Nat) (b : List Byte) (plan : LoadPlan) : Bool :=
  let nodes := descsOf b 9 64
  decide (plan.base % 65536 = 0 ∧ plan.rings.length = nodes.length ∧ plan.rcbs.length = (descsOf b 13 256).length) &&
    (sectionsOf b).all (fun x => s.sectMapped root plan.base x) &&
    (plan.rings.zip nodes).all (fun (r, d) => r % 65536 == 0 &&
      s.pagesAre root r (ringBytes d.1) (fun p => p.type == .normal && !p.ro)) &&
    plan.rcbs.all (fun a => a % 256 == 0 && inHbm s.plat.win.toNat (a + 255))

/-- What the plan takes is free before Trestle writes its entries, and taken once: no page of the image was mapped, and none of
its pages and RCBs shares memory with another or with what is in use (R45, R46, R396). `t` is the state with the entries. -/
def State.planFresh (s t : State) (env : Env) (b : List Byte) (plan : LoadPlan) : Bool :=
  let s := s.openRegion env
  let vas := planPages plan b
  let pas := vas.filterMap (fun va => (t.pageAt env.ptroot va).map Page.pa)
  decide vas.Nodup && vas.all (fun va => (s.pageAt env.ptroot va).isNone) && decide pas.Nodup && pas.all (fun pa => s.isFree pa 65536) &&
    decide plan.rcbs.Nodup && plan.rcbs.all (fun a => s.isFree a 256 && !pas.any (fun pa => pa / 65536 == a / 65536))

/-- The RCB image that a region template gives a child of a region (R46). -/
def childRcb (parent : Nat) (template : List Byte) : List Byte := bytesOfNat 8 parent ++ template.drop 8

/-- Trestle copies a region template into a fresh RCB for a launching region that has none of it (R46). -/
def State.makeRegion (s : State) (image template parent addr : Nat) : State :=
  match s.images.find? (fun i => i.handle == image) with
  | none => s
  | some i =>
    match i.templates[template]? with
    | none => s
    | some b =>
      if (i.copyFor template parent).isSome || addr % 256 ≠ 0 || !inHbm s.plat.win.toNat (addr + 255) || !s.isFree addr 256 then s
      else
        { s.engineWrite addr (childRcb parent b) with
          images := s.images.map (fun i => if i.handle = image then { i with made := i.made ++ [(template, parent, addr)] } else i) }

/-- The image is mapped, its bytes are in place, and the part knows its kernels, nodes and templates; it is loading until
LOAD_COMPLETE (R51). -/
def State.place (s : State) (rq : HostReq) (env : Env) (b : List Byte) (plan : LoadPlan) : State :=
  let root := env.ptroot
  let handle := s.nextId
  let code := BitVec.ofNat 64 (plan.base + ((textOf b).map Sect.voff).getD 0)
  let kds := descsOf b 8 128
  let nds := descsOf b 9 64
  let templates := (descsOf b 13 256).map Prod.fst
  let kerns := kds.map (kernOf handle code plan.base)
  let queues := (plan.rings.zip nds).map (fun (r, d) => nodeOf handle kerns r d.1)
  let s := s.openRegion env
  let first := ((s.region? env.rcb).map (fun r => r.nodes.length)).getD 0
  let s := (sectionsOf b).foldl (fun s x => s.placeSect root plan.base b x) s
  let s := kds.foldl (fun s d => match d.2 with
    | some o => s.placeVirt root (plan.base + o + 48) (bytesOfNat 8 code.toNat)
    | none => s) s
  let s := (plan.rings.zip nds).foldl (fun s (r, d) => match d.2 with
    | some o => s.placeVirt root (plan.base + o + 24) (bytesOfNat 8 r)
    | none => s) s
  let s := (plan.rcbs.zip templates).foldl (fun s (a, t) => s.engineWrite a (childRcb env.rcb t)) s
  let s := s.modRegion env.rcb (fun r => { r with nodes := r.nodes ++ queues })
  { s with
    nextId := s.nextId + 1
    images := s.images ++ [{
      handle := handle, client := rq.client.toNat, tag := rq.tag, rcb := env.rcb, base := plan.base, bytes := b.length
      loading := true, kerns := kerns, nodes := (List.range queues.length).map (first + ·), templates := templates
      made := ((List.range templates.length).zip plan.rcbs).map (fun (t, a) => (t, env.rcb, a)) }] }

/-- A load on the client's region: refused with a code and an index, or begun (R49, R51). -/
def State.load (s : State) (rq : HostReq) (env : Env) (b : List Byte) (required : Bool) (plan : LoadPlan) : State :=
  match loadCheck b required with
  | some (code, i) => s.answer rq.client.toNat ⟨rq.tag, BitVec.ofNat 32 code, 0, BitVec.ofNat 32 i, [], []⟩
  | none => (s.writeTables plan.ents).place rq env b plan

/-- Trestle's plan maps the image as R396 says, or the checks refuse the image. -/
def State.planTaken (s : State) (env : Env) (b : List Byte) (required : Bool) (plan : LoadPlan) : Bool :=
  let t := s.writeTables plan.ents
  (loadCheck b required).isSome || (t.planFits env.ptroot b plan && s.planFresh t env b plan)

/-- HOST_LOAD: a client's LOAD, with Trestle's plan (R49, R51). A plan that does not map the image is none of Trestle's. For a
region whose RCB chain does not resolve R49 and R390 give no status: the model leaves the request unread, whatever its image
(log entry 103). -/
def execHostLoad (rq : HostReq) (rcb : Nat) (image : List Byte) (sig : Bool) (plan : LoadPlan) (s : State) : Out :=
  let ask := Ask.load image sig
  match s.resolveEnv rcb with
  | none => .next (if s.serves rq ask then s else s.request rq ask id)
  | some env =>
    if s.serves rq ask && !s.planTaken env image sig plan then .next s
    else .next (s.request rq ask (fun s => (s.noteRegion rq.client.toNat rcb).load rq env image sig plan))

/-- LOAD_COMPLETE: the loader returns its status, and the image's kernels may be launched (R51). -/
def execLoadComplete (handle : Nat) (s : State) : Out :=
  match s.images.find? (fun i => i.handle == handle) with
  | none => .next s
  | some i =>
    if !i.loading then .next s
    else
      let s : State := { s with images := s.images.map (fun x => if x.handle = handle then { x with loading := false } else x) }
      .next (s.answer i.client (Response.plain i.tag 0 (BitVec.ofNat 64 handle)))

end Sys2Proof.Machine
end

