-- ==== Sys2Proof/Machine/Host.lean ====
section
/-! DEFINITION. The host's other requests (R52, R389, R390, R393): UNLOAD, LAUNCH, ALLOC, COPY, ATTEST, EVENTS, FREE, and an
unknown code. -/

namespace Sys2Proof.Machine

/-! ## UNLOAD (R52) -/

/-- Work of an image remains: a dispatch of its kernels that has not retired, a workgroup of theirs, records in its node
queues; or it is still loading (R52). -/
def State.imageBusy (s : State) (i : Image) : Bool :=
  i.loading || s.dispatches.any (fun d => d.kern.image == i.handle && (d.node.isNone || !d.groups.isEmpty)) ||
    s.groups.any (fun g => g.kern.image == i.handle) ||
    i.nodes.any (fun n => ((s.node? i.rcb n).map (fun q => q.appended != q.freed)).getD false)

/-- An image is gone: its kernels and nodes are no more, and its streams end. -/
def State.unload (s : State) (i : Image) : State :=
  let s := i.nodes.foldl (fun s n => s.modNode i.rcb n (fun q => { q with cap := 0 })) s
  { s with
    images := s.images.filter (fun x => x.handle != i.handle)
    dispatches := s.dispatches.filter (fun d => d.kern.image != i.handle) }

/-- HOST_UNLOAD: unload an image of the client, unless work of it remains (R52). -/
def execHostUnload (rq : HostReq) (handle : Nat) (ents : List (Nat × BitVec 64)) (s : State) : Out :=
  .next (s.request rq (.unload handle) (fun s =>
    match s.images.find? (fun i => i.handle == handle && i.client == rq.client.toNat) with
    | none => s.respond rq 2 0
    | some i => if s.imageBusy i then s.respond rq 1 0 else ((s.writeTables ents).unload i).respond rq 0 0))

/-! ## LAUNCH (R328, R329) -/

/-- The page-table root of a region, or none (0). -/
def State.rootOf (s : State) (rcb : Nat) : Nat := ((s.resolveEnv rcb).map Env.ptroot).getD 0

/-- HOST_LAUNCH: a launch block on the client's region (R389, R390), read once a region template that it needs has been copied
(R46). -/
def execHostLaunch (rq : HostReq) (rcb : Nat) (block : List Byte) (s : State) : Out :=
  if s.serves rq (.launch block) && !s.templateMade rcb (s.rootOf rcb) block then .next s
  else .next (s.request rq (.launch block) (fun s =>
    let (s, x) := (s.noteRegion rq.client.toNat rcb).launch rcb (s.rootOf rcb) block
    if x.getLsbD 31 then s.respond rq x 0 else s.respond rq 0 (x.zeroExtend 64)))

/-! ## ALLOC and FREE (R390) -/

/-- The page size that ALLOC's field names. -/
def allocSize (c : Byte) : Option Nat :=
  match c.toNat with
  | 0 => some 65536
  | 1 => some 2097152
  | 2 => some 1073741824
  | _ => none

/-- The arguments of ALLOC lie in their ranges; the page size. -/
def allocPage (a : AllocArgs) : Option Nat :=
  match allocSize a.psize with
  | some n => if a.type.toNat ≤ 3 ∧ a.attrs.toNat < 16 ∧ a.bytes ≠ 0 ∧ a.bytes % n = 0 then some n else none
  | none => none

/-- The range is mapped with the page size, type and attributes that ALLOC asks for. -/
def State.allocMapped (s : State) (root va n : Nat) (a : AllocArgs) : Bool :=
  va % n == 0 && (List.range (a.bytes / n)).all (fun i => ((s.pageAt root (va + n * i)).map (fun p =>
    p.size == n && p.type == ptypeOf a.type.toNat && p.ro == a.attrs.getLsbD 0 && p.nx == a.attrs.getLsbD 1 &&
      p.ds == a.attrs.getLsbD 2 && p.rec_ == a.attrs.getLsbD 3)).getD false)

/-- HOST_ALLOC: map device memory for the client. Trestle chooses the address and writes the entries; it writes none when
there is no memory of the type (R390). -/
def execHostAlloc (rq : HostReq) (rcb : Nat) (args : AllocArgs) (va : Nat) (ents : List (Nat × BitVec 64)) (s : State) : Out :=
  match allocPage args with
  | none => .next (s.request rq (.alloc args) (fun s => s.respond rq 2 0))
  | some n =>
    if ents.isEmpty then .next (s.request rq (.alloc args) (fun s => s.respond rq 1 0))
    else if s.serves rq (.alloc args) && !(s.writeTables ents).allocMapped (s.rootOf rcb) va n args then .next s
    else
      .next (s.request rq (.alloc args) (fun s =>
        (((s.writeTables ents).noteRegion rq.client.toNat rcb).modClient rq.client.toNat (fun c =>
          { c with allocs := c.allocs ++ [(va, args.bytes)] })).respond rq 0 (BitVec.ofNat 64 va)))

/-- A range without a part of it that is freed. -/
def cutRange (r : Nat × Nat) (va n : Nat) : List (Nat × Nat) :=
  if r.1 ≤ va ∧ va + n ≤ r.1 + r.2 then
    (if r.1 = va then [] else [(r.1, va - r.1)]) ++ (if va + n = r.1 + r.2 then [] else [(va + n, r.1 + r.2 - (va + n))])
  else [r]

/-- HOST_FREE: unmap memory that an ALLOC of the client mapped (R390). Entries that leave some of it mapped are none of
Trestle's. -/
def execHostFree (rq : HostReq) (rcb : Nat) (va bytes : Nat) (ents : List (Nat × BitVec 64)) (s : State) : Out :=
  let c := s.client rq.client.toNat
  if bytes = 0 ∨ !c.allocs.any (fun (a, n) => decide (a ≤ va ∧ va + bytes ≤ a + n)) then
    .next (s.request rq (.free va bytes) (fun s => s.respond rq 1 0))
  else if s.serves rq (.free va bytes) &&
      (List.range ((bytes + 65535) / 65536)).any (fun i => ((s.writeTables ents).pageAt (s.rootOf rcb) (va + 65536 * i)).isSome) then
    .next s
  else
    .next (s.request rq (.free va bytes) (fun s =>
      ((s.writeTables ents).modClient rq.client.toNat (fun c =>
        { c with allocs := c.allocs.flatMap (fun r => cutRange r va bytes) })).respond rq 0 0))

/-! ## COPY (R389, R390) -/

/-- Entries that the Crucible buffers for the words of a range fold before its bytes move (R227). -/
def State.foldVirt (s : State) (root va n : Nat) : State :=
  (sectorRuns va n).foldl (fun s (o, k) =>
    match s.pageAt root (va + o) with
    | some p => if p.type = .cmp then s.foldRange p.pa k else s
    | none => s) s

/-- Every page of a range is mapped. -/
def State.rangeMapped (s : State) (root va n : Nat) : Bool :=
  (sectorRuns va n).all (fun (o, _) => (s.pageAt root (va + o)).isSome)

/-- The memory behind every page of a range answers a write (R164, R391). -/
def State.rangeAnswers (s : State) (root va n : Nat) : Bool :=
  (sectorRuns va n).all (fun (o, k) => ((s.pageAt root (va + o)).map (fun p => s.reaches p k false)).getD false)

/-- HOST_COPY: bytes from a host buffer enter the part with fresh check codes, or leave it (R389, R390). -/
def execHostCopy (rq : HostReq) (rcb : Nat) (args : CopyArgs) (s : State) : Out :=
  let root := s.rootOf rcb
  if 1 < args.dir.toNat ∨ !s.rangeMapped root args.dva args.bytes then .next (s.request rq (.copy args) (fun s => s.respond rq 1 0))
  else if args.dir = 0 then
    if args.data.length ≠ args.bytes then .next s
    else if !s.rangeAnswers root args.dva args.bytes then .next (if s.serves rq (.copy args) then s else s.request rq (.copy args) id)
    else
      .next (s.request rq (.copy args) (fun s =>
        ((s.foldVirt root args.dva args.bytes).placeVirt root args.dva args.data).respond rq 0 (BitVec.ofNat 64 args.bytes)))
  else
    let t := s.foldVirt root args.dva args.bytes
    match t.readVirt root args.dva args.bytes with
    | .bytes bs =>
      .next (s.request rq (.copy args) (fun s => (s.foldVirt root args.dva args.bytes).answer rq.client.toNat
        ⟨rq.tag, 0, BitVec.ofNat 64 args.bytes, 0, bs, []⟩))
    | .poison _ => .next (s.request rq (.copy args) (fun s => s.respond rq 2 0))
    | .absent _ _ => .next (s.request rq (.copy args) (fun s => s.respond rq 1 0))
    | .far _ _ => .next (if s.serves rq (.copy args) then s else s.request rq (.copy args) id)

/-! ## ATTEST (R393) -/

/-- The fields of the report before its signature (R393). -/
def State.report (s : State) (nonce : List Byte) : List Byte :=
  nonce ++ Config.shake256 (s.plat.firmware.getD []) 64 ++ bytesOfNat 2 s.plat.excCount.toNat ++
    bytesOfNat 1 s.plat.excPeak.toNat ++ bytesOfNat 4 s.plat.retired.length

/-- HOST_ATTEST: the attestation report, signed with the identity key (R393). -/
def execHostAttest (rq : HostReq) (nonce : List Byte) (s : State) : Out :=
  .next (s.request rq (.attest nonce) (fun s =>
    let b := s.report nonce
    let r := b ++ Config.falconSign (Config.shake256 b 64)
    s.answer rq.client.toNat ⟨rq.tag, 0, BitVec.ofNat 64 r.length, 0, r, []⟩))

/-! ## EVENTS (R390) -/

/-- The fault domain of a record that a client may read. -/
def EventRec.domain? : EventRec → Option Nat
  | .wave bkpt _ d _ _ _ _ _ _ _ => if bkpt then none else some d
  | .diverge _ d _ _ _ => some d
  | .excursion _ _ => none
  | .request _ _ _ _ => none

/-- The fault domains of the regions of a client. -/
def State.domainsOf (s : State) (c : Client) : List Nat :=
  c.regions.filterMap (fun r => (s.resolveEnv r).map Env.fdomain)

/-- HOST_EVENTS: fault-domain and DIVERGE records for the client that it has not been given, at most as many as its buffer
holds (R390). -/
def execHostEvents (rq : HostReq) (capacity : Nat) (s : State) : Out :=
  .next (s.request rq (.events capacity) (fun s =>
    let c := s.client rq.client.toNat
    let ds := s.domainsOf c
    let mine := ((List.range s.events.length).zip s.events).filter (fun (i, e) =>
      decide (c.seen ≤ i) && ((e.domain?).map (fun d => ds.contains d)).getD false)
    let got := mine.take capacity
    let seen := if mine.length ≤ capacity then s.events.length else (got.getLast?.map (fun x => x.1 + 1)).getD c.seen
    (s.modClient rq.client.toNat (fun c => { c with seen := seen })).answer rq.client.toNat
      ⟨rq.tag, 0, BitVec.ofNat 64 got.length, 0, [], got.map Prod.snd⟩))

/-! ## An unknown code (R389) -/

/-- HOST_UNKNOWN_REQUEST: any code but 1 to 8 (R389). -/
def execHostUnknownRequest (rq : HostReq) (code : Word) (s : State) : Out :=
  if 1 ≤ code.toNat ∧ code.toNat ≤ 8 then .next s
  else .next (s.request rq (.other code.toNat) (fun s => s.respond rq 0xFFFFFFFF 0))

end Sys2Proof.Machine
end

