-- ==== Sys2Proof/Machine/Lane.lean ====
section
/-! DEFINITION. Lane-network words: WLANE (R119 to R131). -/

namespace Sys2Proof.Machine

/-! ## Data movement (R120, R123, R124) -/

/-- The value read from source lane `i`: 0 for an index of 96 or above and for an absent lane (R120). -/
def sourceLane (m : Mask) (x : Lanes) (i : Nat) : Word := if i < 96 && m.getLsbD i then laneOf x i else 0

/-- A data-movement word: each active lane reads the lane its index names, if any (R123). -/
def wmove (src : Nat → Option Nat) (d a : Reg) (l : Bool) (s : State) : State :=
  let x := s.rdV a
  let m := s.active
  (s.wrV d (fun i => match src i with
    | some j => sourceLane m x j
    | none => 0) .g).releaseV l a d

/-- WSHF: lane vB[l] (R123). -/
def execWshf (d a b : Reg) (l : Bool) (s : State) : Out :=
  let y := s.rdV b
  .next (wmove (fun i => some (laneOf y i).toNat) d a l s)

/-- WSHFI: lane (l + n) mod 96 (R123). -/
def execWshfi (d a n : Reg) (l : Bool) (s : State) : Out :=
  .next (wmove (fun i => some ((i + n.toNat) % 96)) d a l s)

/-- WXOR: lane l xor n (R123). -/
def execWxor (d a n : Reg) (l : Bool) (s : State) : Out :=
  .next (wmove (fun i => some (i ^^^ n.toNat)) d a l s)

/-- WUP: lane l − n; 0 is read when l < n (R123). -/
def execWup (d a n : Reg) (l : Bool) (s : State) : Out :=
  .next (wmove (fun i => if i < n.toNat then none else some (i - n.toNat)) d a l s)

/-- WDN: lane l + n (R123). -/
def execWdn (d a n : Reg) (l : Bool) (s : State) : Out :=
  .next (wmove (fun i => some (i + n.toNat)) d a l s)

/-- WBC: the value of sA in every active lane, tag U (R25, R123). -/
def execWbc (d a : Reg) (l : Bool) (s : State) : Out :=
  let x := s.rdS a
  let t := s.wrV d (fun _ => x) .u
  .next (if l && decide (a.toNat < 60) then
      { t with thr := { t.thr with srel := t.thr.srel ||| ((1 : BitVec 64) <<< a.toNat) } }
    else t)

/-- WCOMP: the selected values packed into the lowest active lanes (R124). -/
def execWcomp (d a b : Reg) (l : Bool) (s : State) : Out :=
  let x := s.rdV a
  let y := s.rdV b
  let lanes := lanesIn s.active
  let sel := (lanes.filter (fun i => laneOf y i != 0)).map (laneOf x)
  let vals := lanes.zip (sel ++ List.replicate 96 0)
  .next ((s.wrV d (fun i => ((vals.find? (fun p => p.1 == i)).map Prod.snd).getD 0) .g).releaseV l a d)

/-! ## Scans (R125, R126) -/

/-- The inclusive combinations of a sequence of lanes. -/
def scanList (f : Word → Word → Word) (x : Lanes) : List Nat → Option Word → List (Nat × Word)
  | [], _ => []
  | i :: is, acc =>
    let v := match acc with
      | none => laneOf x i
      | some y => f y (laneOf x i)
    (i, v) :: scanList f x is (some v)

/-- A lane's entry in a list of lane values; 0 for a lane that has none. -/
def entryOf (ps : List (Nat × Word)) (i : Nat) : Word := ((ps.find? (fun p => p.1 == i)).map Prod.snd).getD 0

/-- An inclusive scan over the contributors (R125). -/
def wscan (f : Word → Word → Word) (d a : Reg) (l : Bool) (s : State) : State :=
  let ps := scanList f (s.rdV a) (lanesIn s.active) none
  (s.wrV d (entryOf ps) .g).releaseV l a d

/-- WSCAN: sum mod 2^32, inclusive (R125). -/
def execWscan (d a : Reg) (l : Bool) (s : State) : Out := .next (wscan (· + ·) d a l s)

/-- WSCANX: sum mod 2^32, exclusive (R125). -/
def execWscanx (d a : Reg) (l : Bool) (s : State) : Out :=
  let x := s.rdV a
  let ps := scanList (· + ·) x (lanesIn s.active) none
  .next ((s.wrV d (fun i => entryOf ps i - laneOf x i) .g).releaseV l a d)

/-- WSCANMIN: signed minimum, inclusive (R125). -/
def execWscanmin (d a : Reg) (l : Bool) (s : State) : Out := .next (wscan sminW d a l s)

/-- WSCANMAX: signed maximum, inclusive (R125). -/
def execWscanmax (d a : Reg) (l : Bool) (s : State) : Out := .next (wscan smaxW d a l s)

/-- The mode of lane-network additions: RS rounds as RN-even and draws nothing (R126). -/
def State.laneMode (s : State) : RMode := if s.mode = .rs then .rne else s.mode

/-- A running FP32 sum with the flags raised so far (R126). -/
def scanFloat (mode : RMode) (x : Lanes) : List Nat → Option (Word × Fl) → List (Nat × Word × Fl)
  | [], _ => []
  | i :: is, none => (i, laneOf x i, flNone) :: scanFloat mode x is (some (laneOf x i, flNone))
  | i :: is, some (v, fl) =>
    let r := fadd .fp32 mode 0 v (laneOf x i)
    (i, r.v, fl ||| r.fl) :: scanFloat mode x is (some (r.v, fl ||| r.fl))

/-- WSCANF: FP32 sums from the lowest contributor upward (R126). -/
def execWscanf (d a : Reg) (l : Bool) (s : State) : Out :=
  let ps := scanFloat s.laneMode (s.rdV a) (lanesIn s.active) none
  let at_ (i : Nat) : Word × Fl := ((ps.find? (fun p => p.1 == i)).map Prod.snd).getD (0, flNone)
  .next ((fword (fun i => ⟨(at_ i).1, (at_ i).2, 0⟩) .g d s).releaseV l a d)

/-! ## Reductions (R127, R128) -/

/-- An integer reduction over the contributors (R127). -/
def wred (f : Word → Word → Word) (d a : Reg) (l : Bool) (s : State) : State :=
  let x := s.rdV a
  let v := match (lanesIn s.active).map (laneOf x) with
    | [] => 0
    | y :: ys => ys.foldl f y
  (s.wrV d (fun _ => v) (s.tagU [a])).releaseV l a d

/-- WRED: sum mod 2^32 (R127). -/
def execWred (d a : Reg) (l : Bool) (s : State) : Out := .next (wred (· + ·) d a l s)

/-- WREDMIN: signed minimum (R127). -/
def execWredmin (d a : Reg) (l : Bool) (s : State) : Out := .next (wred sminW d a l s)

/-- WREDMAX: signed maximum (R127). -/
def execWredmax (d a : Reg) (l : Bool) (s : State) : Out := .next (wred smaxW d a l s)

/-- WREDAND: bitwise AND (R127). -/
def execWredand (d a : Reg) (l : Bool) (s : State) : Out := .next (wred (· &&& ·) d a l s)

/-- WREDOR: bitwise OR (R127). -/
def execWredor (d a : Reg) (l : Bool) (s : State) : Out := .next (wred (· ||| ·) d a l s)

/-- comb(a, b) of R128, with the flags raised. -/
def combF (mode : RMode) (a b : Option Word × Fl) : Option Word × Fl :=
  match a.1, b.1 with
  | none, y => (y, a.2 ||| b.2)
  | x, none => (x, a.2 ||| b.2)
  | some x, some y =>
    let r := fadd .fp32 mode 0 x y
    (some r.v, a.2 ||| b.2 ||| r.fl)

/-- One level of the tree: neighbours combined. -/
def treeLevel (mode : RMode) : List (Option Word × Fl) → List (Option Word × Fl)
  | a :: b :: rest => combF mode a b :: treeLevel mode rest
  | [a] => [a]
  | [] => []

/-- sum(b) of R128: five levels over the 32 lanes of a beat. -/
def beatSum (mode : RMode) (m : Mask) (x : Lanes) (b : Nat) : Option Word × Fl :=
  let leaves := (List.range 32).map (fun i =>
    (if m.getLsbD (32 * b + i) then some (laneOf x (32 * b + i)) else none, flNone))
  (treeLevel mode (treeLevel mode (treeLevel mode (treeLevel mode (treeLevel mode leaves))))).headD (none, flNone)

/-- WREDF: the FP32 sum of the contributors by the fixed tree (R128). -/
def execWredf (d a : Reg) (l : Bool) (s : State) : Out :=
  let x := s.rdV a
  let m := s.active
  let mode := s.laneMode
  let r := combF mode (combF mode (beatSum mode m x 0) (beatSum mode m x 1)) (beatSum mode m x 2)
  .next ((fword (fun _ => ⟨r.1.getD 0, r.2, 0⟩) (s.tagU [a]) d s).releaseV l a d)

/-! ## Votes, flags, maximum with index (R129 to R131) -/

/-- WVOTE: the triple at sD, bit l set when lane l is active and vA[l] ≠ 0 (R129). -/
def execWvote (d a : Reg) (l : Bool) (s : State) : Out :=
  let x := s.rdV a
  let m := s.active
  .next ((s.wrMask d (maskOf (fun i => m.getLsbD i && laneOf x i != 0))).releaseV0 l a)

/-- WANY: sD := 1 if some active lane has vA ≠ 0, else 0 (R129). -/
def execWany (d a : Reg) (l : Bool) (s : State) : Out :=
  let x := s.rdV a
  .next ((s.wrS d (boolWord ((lanesIn s.active).any (fun i => laneOf x i != 0)))).releaseV0 l a)

/-- WALL: sD := 1 if every active lane has vA ≠ 0, else 0 (R129). -/
def execWall (d a : Reg) (l : Bool) (s : State) : Out :=
  let x := s.rdV a
  .next ((s.wrS d (boolWord ((lanesIn s.active).all (fun i => laneOf x i != 0)))).releaseV0 l a)

/-- WFLG: the triple at sD, bit l set when lane l is active and flag f of its fl is set (R130). -/
def execWflg (d f : Reg) (s : State) : Out :=
  let m := s.active
  .next (s.wrMask d (maskOf (fun i => m.getLsbD i && (s.thr.fl[i]?.getD 0).getLsbD f.toNat)))

/-- WFLCLR: clear, in each active lane, the flags set in the mask (R130). -/
def execWflclr (k : BitVec 5) (s : State) : Out :=
  let m := s.active
  .next { s with thr := { s.thr with fl := tableOf (fun i =>
    let old := s.thr.fl[i]?.getD 0
    if m.getLsbD i then flClear old k else old) } }

/-- The greater of two pairs in unsigned lexicographic order (R131). -/
def pairMax (p q : Word × Word) : Word × Word :=
  if p.1.toNat < q.1.toNat || (p.1 == q.1 && decide (p.2.toNat < q.2.toNat)) then q else p

/-- WMAXI: the greatest pair (vA, vB) over the contributors, in vD:vD+1 of every active lane (R131). -/
def execWmaxi (d a b : Reg) (l : Bool) (s : State) : Out :=
  let x := s.rdV a
  let y := s.rdV b
  let best := match (lanesIn s.active).map (fun i => (laneOf x i, laneOf y i)) with
    | [] => ((0 : Word), (0 : Word))
    | p :: ps => ps.foldl pairMax p
  let tag := s.tagU [a, b]
  let t := (s.wrVn d.toNat (fun _ => best.1) tag).wrVn (d.toNat + 1) (fun _ => best.2) tag
  .next (if a.toNat = d.toNat + 1 then t else t.releaseV l a d)

end Sys2Proof.Machine
end

