-- ==== Sys2Proof/Machine/Platform.lean ====
section
/-! DEFINITION. The platform controllers: temperature bands and Flask (R378 to R382), refresh, scrub and page retirement
(R384 to R386), the platform registers (R379, R382, R385, R387, R388, R391), duty requests (R388), Decro Link (R392), the
boot ROM (R393). -/

namespace Sys2Proof.Machine

/-- Change the platform. -/
def State.modPlat (s : State) (f : Platform → Platform) : State := { s with plat := f s.plat }

/-! ## Flask (R380 to R382) -/

/-- The state code of R380. -/
def FlaskState.code : FlaskState → Nat
  | .ambient => 0
  | .purge => 1
  | .descend => 2
  | .soak => 3
  | .train => 4
  | .run => 5
  | .excursion => 6
  | .ascend => 7
  | .service => 8

/-- An excursion begins (R381): COUNT rises, PEAK follows the band, Trestle gets a record. -/
def State.startExcursion (s : State) : State :=
  let p := s.plat
  let n := if p.excCount = 0xFFFF then p.excCount else p.excCount + 1
  { s with
    plat := { p with excCount := n, excPeak := if p.excPeak.toNat < p.band.toNat then p.band else p.excPeak }
    events := s.events ++ [.excursion p.band.toNat n.toNat] }

/-- The change of state that the band in force calls for, with the cause an entry to SERVICE records (R380, R382). -/
def Platform.bandChange (p : Platform) : Option (FlaskState × Byte) :=
  match p.flask with
  | .descend => if p.band = 0 then some (.soak, 0) else none
  | .train => if p.band = 0 then none else some (.soak, 0)
  | .run => if p.band = 0 then none else some (.excursion, 0)
  | .excursion => if p.band = 4 then some (.service, 2) else none
  | .ascend => if p.band = 4 then some (.service, 3) else none
  | .ambient | .purge | .soak | .service => none

/-- Flask enters a state: LOCK holds from TRAIN until SERVICE (R387), SERVICE records its cause, EXCURSION begins an
excursion. -/
def State.enterFlask (s : State) (to_ : FlaskState) (cause : Byte) : State :=
  let s := s.modPlat (fun p =>
    { p with
      flask := to_, wanted := none, dutyReqs := p.dutyReqs.filter (fun r => r.fn != 5)
      purged := p.purged && to_ != .purge
      cause := if to_ = .service then cause else p.cause
      winLock := if to_ = .train then true else if to_ = .service then false else p.winLock })
  if to_ = .excursion then s.startExcursion else s

/-- A change of state takes place, or Trestle is asked and it waits for a RESUME (R382, R388). -/
def State.change (s : State) (to_ : FlaskState) (cause : Byte) : State :=
  if s.assisted 5 then
    if s.plat.wanted = some (to_, cause) then s
    else
      let s := s.modPlat (fun p => { p with wanted := some (to_, cause), dutyReqs := p.dutyReqs.filter (fun r => r.fn != 5) })
      s.ask 5 to_.code cause.toNat []
  else s.enterFlask to_ cause

/-- Changes that the band calls for, one after another. -/
def State.followBand : Nat → State → State
  | 0, s => s
  | n + 1, s =>
    match s.plat.bandChange with
    | none => s
    | some (to_, cause) => if s.assisted 5 then s.change to_ cause else State.followBand n (s.enterFlask to_ cause)

/-- A command or condition moves Flask, and what the band then calls for follows; or the change waits for a RESUME. -/
def State.move (s : State) (to_ : FlaskState) (cause : Byte) : State :=
  if s.assisted 5 then s.change to_ cause else State.followBand 3 (s.enterFlask to_ cause)

/-- The lower bound of a band, in units of 0.5 K (R378). -/
def bandBound (b : Nat) : Nat :=
  match b with
  | 0 => 0
  | 1 => 170
  | 2 => 220
  | 3 => 300
  | _ => 480

/-- The band of the hottest sensor when it rises (R378). -/
def bandOf (temp : Nat) : Nat :=
  if bandBound 4 < temp then 4 else if bandBound 3 < temp then 3 else if bandBound 2 < temp then 2 else if bandBound 1 < temp then 1 else 0

/-- The time since which something holds, now that it does or does not. -/
def sinceWhen (now : Nat) (holds : Bool) (since : Option Nat) : Option Nat := if holds then some (since.getD now) else none

/-- The sensors read a temperature and its rate of change: TEMP and RATE show them (R379), and how long the hottest sensor has
stayed 3 K below each bound (R378), and in B0 with a rate under 0.1 K per minute (R380), is counted from here or goes on. -/
def State.readSensors (s : State) (temp : BitVec 10) (rate : BitVec 16) : State :=
  s.modPlat (fun p => { p with
    temp := temp, rate := rate
    lowAt := ⟨⟨(List.range 4).map (fun i => sinceWhen s.time (decide (temp.toNat + 6 ≤ bandBound (i + 1))) (p.lowAt[i]?.join))⟩, by simp⟩
    steadyAt := sinceWhen s.time (bandOf temp.toNat == 0 && decide (rate.toInt.natAbs < 10)) p.steadyAt })

/-- The sensors move inside the band in force (R379). -/
def State.sense (s : State) (temp : BitVec 10) (rate : BitVec 16) : State :=
  if bandOf temp.toNat ≤ s.plat.band.toNat then s.readSensors temp rate else s

/-- A band is entered: PEAK follows one that is entered from RUN or EXCURSION (R379). -/
def Platform.enterBand (p : Platform) (band : BitVec 3) (now : Nat) : Platform :=
  { p with
    band := band
    zeroAt := if band = 0 then now else p.zeroAt
    excPeak := if (p.flask = .run ∨ p.flask = .excursion) ∧ p.excPeak.toNat < band.toNat then band else p.excPeak }

/-- BAND_RISE: the hottest sensor exceeds a band's lower bound (R378, R380, R381). -/
def execBandRise (band : BitVec 3) (temp : BitVec 10) (rate : BitVec 16) (s : State) : Out :=
  if s.plat.band.toNat < band.toNat ∧ band.toNat = bandOf temp.toNat then
    let again := s.plat.flask == .excursion
    let s := (s.readSensors temp rate).modPlat (fun p => p.enterBand band s.time)
    .next (State.followBand 3 (if again then s.startExcursion else s))
  else .next s

/-- The hottest sensor has stayed 3 K below the lower bound of the band above for 1 s (R378). -/
def State.lowEnough (s : State) (band : BitVec 3) : Bool :=
  match s.plat.lowAt[band.toNat]?.join with
  | some t => decide (t + 10 ^ 9 ≤ s.time)
  | none => false

/-- BAND_FALL: the hottest sensor has stayed 3 K below the band's bound for 1 s (R378). -/
def execBandFall (band : BitVec 3) (temp : BitVec 10) (rate : BitVec 16) (s : State) : Out :=
  let s' := s.readSensors temp rate
  if band.toNat < s.plat.band.toNat ∧ s'.lowEnough band then .next (State.followBand 3 (s'.modPlat (fun p => p.enterBand band s.time)))
  else .next s

/-- SOAK_STABLE: every sensor has been in B0, with a rate of change under 0.1 K per minute, for 10 minutes (R380). -/
def execSoakStable (s : State) : Out :=
  let steady := match s.plat.steadyAt with
    | some t => decide (t + 600 * 10 ^ 9 ≤ s.time)
    | none => false
  if s.plat.flask = .soak ∧ s.plat.band = 0 ∧ steady = true then .next (s.move .train 0) else .next s

/-- TRAIN_COMPLETE: the links and timings have been retrained cold (R380). -/
def execTrainComplete (s : State) : Out := if s.plat.flask = .train then .next (s.move .run 0) else .next s

/-- TRAIN_FAIL (R380). -/
def execTrainFail (s : State) : Out := if s.plat.flask = .train then .next (s.move .service 1) else .next s

/-- EXCURSION_CLEAR: BAND has been 0 for 60 s (R380). -/
def execExcursionClear (s : State) : Out :=
  if s.plat.flask = .excursion ∧ s.plat.band = 0 ∧ s.plat.zeroAt + 60 * 10 ^ 9 ≤ s.time then .next (s.move .run 0) else .next s

/-- FLASK_COOL (R380). -/
def execFlaskCool (s : State) : Out :=
  if s.plat.flask = .ambient ∨ s.plat.flask = .service then .next (s.move .purge 0) else .next s

/-- FLASK_WARM (R380). -/
def execFlaskWarm (s : State) : Out :=
  if s.plat.flask = .run ∨ s.plat.flask = .excursion then .next (s.move .ascend 0) else .next s

/-- The enclosure is purged of moist gas, while Flask purges it (R380). -/
def State.purge (s : State) : State := if s.plat.flask = .purge then s.modPlat (fun p => { p with purged := true }) else s

/-- FLASK_RESUME: a change that waits takes place; else PURGE ends, once the enclosure is purged (R380, R382). -/
def execFlaskResume (s : State) : Out :=
  match s.plat.wanted with
  | some (to_, cause) => .next (State.followBand 3 (s.enterFlask to_ cause))
  | none => if s.plat.flask = .purge ∧ s.plat.purged then .next (State.followBand 3 (s.enterFlask .descend 0)) else .next s

/-- FLASK_SERVICE: from any state 1 to 7 (R380). -/
def execFlaskService (s : State) : Out :=
  if s.plat.flask = .ambient ∨ s.plat.flask = .service then .next s else .next (s.move .service 4)

/-- EXCURSION_CLR: 1 written to pf.excur CLR (R379). -/
def execExcursionClr (s : State) : Out := .next (s.modPlat (fun p => { p with excCount := 0, excPeak := 0 }))

/-! ## Platform registers (R385, R387, R388, R391) -/

/-- STACKWIN_WRITE: WIN is ignored while LOCK is set, and above 32 (R387). -/
def execStackwinWrite (x : Word) (s : State) : Out :=
  let w := x.extractLsb' 0 6
  .next (if s.plat.winLock ∨ 32 < w.toNat then s else s.modPlat (fun p => { p with win := w }))

/-- Change the register of a CXL port. -/
def State.modCxl (s : State) (port : Bool) (f : CxlPort → CxlPort) : State :=
  s.modPlat (fun p => if port then { p with cxl1 := f p.cxl1 } else { p with cxl0 := f p.cxl0 })

/-- CXL_DOWN_CLEAR: 1 written to DOWN (R391). -/
def execCxlDownClear (port : Bool) (s : State) : Out := .next (s.modCxl port (fun c => { c with down := false }))

/-- CXL_LINK_UP (R391). -/
def execCxlLinkUp (port : Bool) (s : State) : Out := .next (s.modCxl port (fun c => { c with link := true }))

/-- A write of a CXL port's register: TMO, and a 1 in DOWN clears it (R391). -/
def CxlPort.write (c : CxlPort) (x : Word) : CxlPort :=
  { c with tmo := x.extractLsb' 0 8, down := c.down && !x.getLsbD 30 }

/-- PLATFORM_REGISTER_WRITE (R385, R388, R391): THRESH above 64 reads as 64. -/
def execPlatformRegisterWrite (reg : PfReg) (x : Word) (s : State) : Out :=
  match reg with
  | .duty => .next (s.modPlat (fun p => { p with duty := x.extractLsb' 0 6 }))
  | .scrub =>
    let t := x.extractLsb' 24 8
    .next (s.modPlat (fun p => { p with thresh := if 64 < t.toNat then 64 else t, period := x.extractLsb' 16 8 }))
  | .cxl0 => .next (s.modCxl false (fun c => c.write x))
  | .cxl1 => .next (s.modCxl true (fun c => c.write x))

/-- pf.band (R379). -/
def Platform.bandReg (p : Platform) : Word := (0 : BitVec 3) ++ p.band ++ p.temp ++ p.rate

/-- pf.excur (R379). -/
def Platform.excurReg (p : Platform) : Word := p.excCount ++ (0 : BitVec 8) ++ p.excPeak ++ (0 : BitVec 5)

/-- pf.flask (R382). -/
def Platform.flaskReg (p : Platform) : Word := (0 : BitVec 16) ++ p.cause ++ (0 : BitVec 4) ++ BitVec.ofNat 4 p.flask.code

/-- LEVEL: the escalation level of the channel furthest behind (R385). -/
def Platform.scrubLevel (p : Platform) : Nat := p.channels.foldl (fun n c => max n c.level.toNat) 0

/-- pf.scrub (R385). -/
def Platform.scrubReg (p : Platform) : Word := p.thresh ++ p.period ++ (0 : BitVec 14) ++ BitVec.ofNat 2 p.scrubLevel

/-- pf.stackwin (R387). -/
def Platform.stackwinReg (p : Platform) : Word := BitVec.ofBool p.winLock ++ (0 : BitVec 25) ++ p.win

/-- pf.duty (R388). -/
def Platform.dutyReg (p : Platform) : Word := (0 : BitVec 26) ++ p.duty

/-- The register of a CXL port (R391). -/
def CxlPort.reg (c : CxlPort) : Word := BitVec.ofBool c.link ++ BitVec.ofBool c.down ++ (0 : BitVec 22) ++ c.tmo

/-! ## Memory care (R384 to R386) -/

/-- A channel about which nothing is known: every row counts as 32 ms (R384). -/
def MemChannel.start (id : Nat) : MemChannel :=
  { id := id, loaded := false, bits32 := [], bits64 := [], fresh := [], pos := none, begun := none, asked := false, level := 0
    errors := [], marked := [] }

/-- A memory channel. -/
def Platform.channel (p : Platform) (id : Nat) : MemChannel := (p.channels.find? (fun c => c.id == id)).getD (MemChannel.start id)

/-- Change a memory channel. -/
def State.modChannel (s : State) (id : Nat) (f : MemChannel → MemChannel) : State :=
  s.modPlat (fun p => { p with channels := f (p.channel id) :: p.channels.filter (fun c => c.id != id) })

/-- The bits of a Bloom filter of 64 KiB that its four hash functions give a row (R384). -/
def bloomBits (row : Nat) : List Nat := (List.range 4).map (fun i => Config.bloomHash i row % 2 ^ 19)

/-- A filter, as the list of its set bits, holds a row. -/
def bloomHas (bits : List Nat) (row : Nat) : Bool := (bloomBits row).all (fun b => bits.contains b)

/-- A row enters a filter. -/
def bloomAdd (row : Nat) (bits : List Nat) : List Nat := (bloomBits row).foldl (fun bs b => if bs.contains b then bs else b :: bs) bits

/-- The retention class of a row in ms, by its channel's filters (R384). -/
def MemChannel.classOf (c : MemChannel) (row : Nat) : Nat :=
  if !c.loaded || bloomHas c.bits32 row then 32 else if bloomHas c.bits64 row then 64 else 128

/-- A row enters a list. -/
def insertRow (row : Nat) (rows : List Nat) : List Nat := if rows.contains row then rows else row :: rows

/-- A row moves to the next faster filter (R384). -/
def MemChannel.hasten (c : MemChannel) (row : Nat) : MemChannel :=
  if bloomHas c.bits32 row then c
  else if bloomHas c.bits64 row then { c with bits32 := bloomAdd row c.bits32 }
  else { c with bits64 := bloomAdd row c.bits64 }

/-- A row is put into its class, or marked for retirement (R384). -/
def MemChannel.bin (c : MemChannel) (row : Nat) (cls : RowClass) : MemChannel :=
  match cls with
  | .ms32 => { c with bits32 := bloomAdd row c.bits32 }
  | .ms64 => { c with bits64 := bloomAdd row c.bits64 }
  | .ms128 => c
  | .fails => { c with marked := insertRow row c.marked }

/-- The multiplier of a row's class in a band; none where nothing is refreshed (R378, R384). -/
def refreshFactor (band : Nat) : Option Nat :=
  match band with
  | 0 => none
  | 1 => some 64
  | 2 => some 8
  | _ => some 1

/-- The refresh period of a row in ns: its class times the band's multiplier (R384). -/
def State.refreshPeriod (s : State) (chan row : Nat) : Option Nat :=
  (refreshFactor s.plat.band.toNat).map (fun k => (s.plat.channel chan).classOf row * k * 10 ^ 6)

/-- The byte that stands for a class in a request. -/
def rowClassByte : RowClass → Byte
  | .ms32 => 0
  | .ms64 => 1
  | .ms128 => 2
  | .fails => 3

/-- The class that a byte stands for. -/
def rowClassOfByte (b : Byte) : RowClass :=
  match b.toNat with
  | 0 => .ms32
  | 1 => .ms64
  | 2 => .ms128
  | _ => .fails

/-- ROW_BINNING: at commissioning a row is classed, or marked for retirement (R384); in host-assisted mode on Trestle's
answer (R388). -/
def execRowBinning (chan row : Nat) (cls : RowClass) (s : State) : Out :=
  if s.plat.flask ≠ .service ∨ 384 ≤ chan then .next s
  else if s.assisted 1 then .next (s.ask 1 chan row [(rowClassByte cls)])
  else .next (s.modChannel chan (fun c => c.bin row cls))

/-- BLOOM_FILTER_LOAD: a channel's saved filters are loaded, before TRAIN (R384). -/
def execBloomFilterLoad (chan : Nat) (bits32 bits64 : List Nat) (s : State) : Out :=
  let early := match s.plat.flask with
    | .ambient | .purge | .descend | .soak | .service => true
    | .train | .run | .excursion | .ascend => false
  if !early ∨ 384 ≤ chan then .next s
  else .next (s.modChannel chan (fun c => { c with loaded := true, bits32 := bits32, bits64 := bits64 }))

/-- REFRESH_ROW: a row is refreshed when the period of its class in the band in force has passed since its last refresh
(R384); its data stays (R381). -/
def execRefreshRow (chan row : Nat) (s : State) : Out :=
  let last := (((s.plat.channel chan).fresh.find? (fun x => x.1 == row)).map Prod.snd).getD 0
  match s.refreshPeriod chan row with
  | some n =>
    if 384 ≤ chan ∨ s.time < last + n then .next s
    else .next (s.modChannel chan (fun c => { c with fresh := (row, s.time) :: c.fresh.filter (fun x => x.1 != row) }))
  | none => .next s

/-! ### Scrubbing (R385) -/

/-- Hours per pass (R385): 0 acts as 1. -/
def Platform.hours (p : Platform) : Nat := max 1 p.period.toNat

/-- The period of a pass in ns. -/
def Platform.passTime (p : Platform) : Nat := p.hours * 3600 * 10 ^ 9

/-- The first sector of a channel from a sector on, in address order: in the interleaved range, then in its stack's window
(R153, R385, R387). -/
def nextSector (win chan from_ : Nat) : Option Nat :=
  let line := from_ / 8
  let ends := 12 * (64 - win) * 2 ^ 22
  let base := (2 ^ 50 + chan / 32 * 2 ^ 36) / 256
  let here (lo n bound : Nat) : Option Nat :=
    ((List.range n).map (lo + ·)).find? (fun x => decide (x < bound) && homeChannel win (256 * x) == chan)
  ((here line 1024 ends).or (here (max line base) 64 (base + win * 2 ^ 22))).map (fun x => max from_ (8 * x))

/-- A scrub pass starts at the channel's lowest sector, in the mode in force (R385, R388). -/
def State.startPass (s : State) (chan : Nat) (asked : Bool) : State :=
  s.modChannel chan (fun c =>
    { c with pos := nextSector s.plat.win.toNat chan 0, begun := some s.time, asked := asked, level := 0, errors := [] })

/-- SCRUB_PASS_START: a pass starts each PERIOD, once the one before has ended; or on request (R385, R388). -/
def execScrubPassStart (chan : Nat) (s : State) : Out :=
  let c := s.plat.channel chan
  if 384 ≤ chan ∨ c.pos.isSome then .next s
  else if s.assisted 2 then
    .next (if s.plat.dutyReqs.any (fun r => r.fn == 2 && r.a == chan) then s else s.ask 2 chan 0 [])
  else if c.begun.any (fun t => decide (s.time < t + s.plat.passTime)) then .next s
  else .next (s.startPass chan false)

/-- The sector is dirty in its home slice. -/
def State.dirtySector (s : State) (sector : Nat) : Bool :=
  s.l2.any (fun l => l.line == sector / 8 && l.dirty.getLsbD (sector % 8))

/-- A correctable error in a row: it moves to the next faster filter; the second of a pass marks it for retirement (R384,
R386). -/
def MemChannel.correct (c : MemChannel) (row : Nat) : MemChannel :=
  let n := ((c.errors.find? (fun e => e.1 == row)).map Prod.snd).getD 0 + 1
  let c := c.hasten row
  { c with
    errors := (row, n) :: c.errors.filter (fun e => e.1 != row)
    marked := if 2 ≤ n then insertRow row c.marked else c.marked }

/-- The entries of a channel's request queue: the accesses under way to its sectors (R385; log entry 99). -/
def State.channelQueue (s : State) (chan : Nat) : Nat :=
  let win := s.plat.win.toNat
  s.flights.foldl (fun n f => n + f.todo.countP (fun a => a.wait.isNone && homeChannel win a.pa == chan)) 0 +
    (s.wq ++ s.hold).countP (fun e => homeChannel win (32 * e.sector) == chan)

/-- SCRUB_SECTOR: the scrubber reads the next sector of its pass, while the queue is short enough or the pass is behind
(R385): a single-bit error is corrected in place, a sector whose check code is not that of its bytes is poisoned, as one that
the code shows to be so (`mismatch`); a sector dirty in its home slice is left alone. -/
def execScrubSector (chan addr : Nat) (found : ScrubFinding) (s : State) : Out :=
  let c := s.plat.channel chan
  let sector := sectorOf addr
  if c.pos ≠ some sector ∨ (c.level = 0 ∧ s.plat.thresh.toNat ≤ s.channelQueue chan) then .next s
  else
    let s := s.modChannel chan (fun c => { c with pos := nextSector s.plat.win.toNat chan (sector + 1) })
    if s.dirtySector sector then .next s
    else if found = .mismatch ∨ s.mismatch sector then .next (s.poisonSector sector)
    else if found = .correctable then .next (s.modChannel chan (fun c => c.correct (Config.rowOf addr)))
    else .next s

/-- Bytes of the part's memory below a sector, in address order. -/
def bytesBelow (win sector : Nat) : Nat :=
  let a := 32 * sector
  if a < 2 ^ 50 then min a (12 * (64 - win) * 2 ^ 30)
  else 12 * (64 - win) * 2 ^ 30 + (a - 2 ^ 50) / 2 ^ 36 * (win * 2 ^ 30) + min ((a - 2 ^ 50) % 2 ^ 36) (win * 2 ^ 30)

/-- How far a pass is behind an even pace, in percent of PERIOD (R385). -/
def State.passBehind (s : State) (c : MemChannel) : Nat :=
  match c.pos, c.begun with
  | some x, some t => (s.time - t) * 100 / s.plat.passTime - bytesBelow s.plat.win.toNat x * 100 / (768 * 2 ^ 30)
  | _, _ => 0

/-- SCRUB_ESCALATE: a pass is some percent of PERIOD behind an even pace (R385); in one begun in host-assisted mode escalation
is left to Trestle (R388). -/
def execScrubEscalate (chan behind : Nat) (s : State) : Out :=
  let c := s.plat.channel chan
  if c.asked ∨ c.pos.isNone ∨ s.passBehind c < behind then .next s
  else .next (s.modChannel chan (fun c => { c with level := if 25 ≤ behind then 2 else if 10 ≤ behind ∧ c.level = 0 then 1 else c.level }))

/-! ### Retiring a page (R386) -/

/-- Some access under way holds an address of a physical page. -/
def State.pageBusy (s : State) (page : Nat) : Bool :=
  let here (pa : Nat) : Bool := pa / 65536 == page / 65536
  s.flights.any (fun f => f.todo.any (fun a => here a.pa)) || (s.wq ++ s.hold).any (fun e => here (32 * e.sector)) ||
    s.clusters.any (fun c => c.mvnb.any (fun m => m.pages.any (fun x => here x.2)))

/-- The sectors of a page of 64 KiB. -/
def sectorsOf (page : Nat) : List Nat := (List.range 2048).map (fun i => page / 32 + i)

/-- A row of the page was marked: it failed the 32 ms test, or showed two correctable errors within one pass (R384, R386). -/
def State.rowMarked (s : State) (page : Nat) : Bool :=
  s.plat.channels.any (fun c => !c.marked.isEmpty && (sectorsOf page).any (fun x =>
    homeChannel s.plat.win.toNat (32 * x) == c.id && c.marked.contains (Config.rowOf (32 * x))))

/-- Trestle has a case for retiring a page: an uncorrectable error in it, or a row that was marked (R386). -/
def State.mustRetire (s : State) (page : Nat) : Bool :=
  s.poison.any (fun x => x / 2048 == page / 65536) || s.rowMarked page

/-- No region's tables map a byte of a physical page. -/
def State.unmapped (s : State) (page : Nat) : Bool :=
  ((s.regions.map (fun r => r.env.ptroot)).dedup).all (fun root => !mapsRange s.mem s.plat.win.toNat page 65536 walkLevels root)

/-- The page is copied, with its poison, and its mappings lead to the copy (R386). Entries that the Crucible buffers for its words
fold first. -/
def State.movePage (s : State) (old new : Nat) (ents : List (Nat × BitVec 64)) : State :=
  let s := s.foldRange old 65536
  let bad := (List.range 2048).filter (fun i => s.poison.contains (old / 32 + i))
  let s := s.engineWrite new (s.homeRead old 65536)
  let s := bad.foldl (fun s i => s.poisonSector (new / 32 + i)) s
  (s.writeTables ents).modPlat (fun p =>
    { p with moving := none, retired := if p.retired.contains old then p.retired else p.retired ++ [old] })

/-- PAGE_RETIRE: Trestle moves a physical page that it retires to a free page (R386). The first of the two events for a page
begins the move, from which on words that touch the page park; the second, once no access to it is under way, copies it,
rewrites the entries that map it, and records it. Entries that leave it mapped are none of Trestle's. -/
def execPageRetire (old new : Nat) (ents : List (Nat × BitVec 64)) (s : State) : Out :=
  let win := s.plat.win.toNat
  match s.plat.moving with
  | none =>
    if old % 65536 ≠ 0 ∨ new % 65536 ≠ 0 ∨ old = new ∨ !inMap win old ∨ !inMap win new ∨ s.plat.retired.contains old ∨
        !s.mustRetire old ∨ !s.isFree new 65536 then .next s
    else .next (s.modPlat (fun p => { p with moving := some (old, new) }))
  | some m =>
    if m ≠ (old, new) ∨ s.pageBusy old then .next s
    else
      let t := s.movePage old new ents
      .next (if t.unmapped old then t else s)

/-! ## Duty requests (R388) -/

/-- DUTY_REQUEST_ANSWER: Trestle answers a request, and the waiting function proceeds (R388); a change of Flask's state waits for
RESUME (R382). -/
def execDutyRequestAnswer (req : Nat) (s : State) : Out :=
  match s.plat.dutyReqs.find? (fun r => r.id == req) with
  | none => .next s
  | some r =>
    let s0 := s
    let s := s.modPlat (fun p => { p with dutyReqs := p.dutyReqs.filter (fun r => r.id != req) })
    match r.fn with
    | 1 => .next (s.modChannel r.a (fun c => c.bin r.b (rowClassOfByte (r.data.headD 0))))
    | 2 => .next (s.startPass r.a true)
    | 3 => .next (s.traceStore r.a (TraceEntry.ofBytes r.data))
    | 4 => .next (s.answerGroup r.a r.b)
    | 5 => .next s0
    | _ => .next s

/-! ## Decro Link (R392) -/

/-- DECRO_TRANSFER_ARRIVE: a transfer is written at its home slices, after the folds of what the Crucible buffers for them, and
before its completion record (R392). -/
def execDecroTransferArrive (link addr : Nat) (data : List Byte) (s : State) : Out :=
  if 72 ≤ link then .next s
  else if !(inMap s.plat.win.toNat addr && inMap s.plat.win.toNat (addr + data.length - 1)) then .fault .physicalHole
  else
    .next (((s.foldRange addr data.length).engineWrite addr data).modPlat (fun p => { p with decro := p.decro ++ [⟨link, addr, some true⟩] }))

/-- DECRO_LINK_LOSS: the link's outstanding transfers complete with an error status (R392). -/
def execDecroLinkLoss (link : Nat) (s : State) : Out :=
  .next (s.modPlat (fun p => { p with decro := p.decro.map (fun d =>
    if d.link = link ∧ d.done = none then { d with done := some false } else d) }))

/-- Trestle sends a transfer over a link: it is outstanding (R392). -/
def State.sendDecro (s : State) (link addr : Nat) : State :=
  if 72 ≤ link then s else s.modPlat (fun p => { p with decro := p.decro ++ [⟨link, addr, none⟩] })

/-- The first item that a test finds is changed. -/
def modFirst {α : Type} (p : α → Bool) (f : α → α) : List α → List α
  | [] => []
  | x :: xs => if p x then f x :: xs else x :: modFirst p f xs

/-- The oldest outstanding transfer of a link has arrived (R392). -/
def State.sentDecro (s : State) (link : Nat) : State :=
  s.modPlat (fun p => { p with decro := modFirst (fun d => d.link == link && d.done.isNone) (fun d => { d with done := some true }) p.decro })

/-! ## Reset (R393) -/

/-- The firmware that the boot ROM starts: its key is the one whose hash is fused, and its signature holds over its digest
(R393). -/
def BootSeal.started (b : BootSeal) (code : List Byte) : Option (List Byte) :=
  if Config.shake256 b.key 64 = Config.fusedKeyHash ∧ Config.bootSignatureOk b.key (Config.shake256 code 64) b.sig then some code
  else none

/-- DEVICE_RESET: every register is at its reset value; the boot ROM starts Trestle when the firmware on the boot drive verifies
(R393). What the boot drive keeps stays: the retired pages. -/
def execDeviceReset (firmware : Option (List Byte)) (good : BootSeal) (s : State) : Out :=
  .next
    { State.reset with
      agenda := s.agenda
      stamp := s.stamp
      nextId := s.nextId
      plat := { Platform.reset with firmware := firmware.bind (BootSeal.started good), retired := s.plat.retired } }

/-! ## The end of a region (R212) -/

/-- REGION_TEARDOWN: Trestle tears a region down, which ends its watches (R212). -/
def execRegionTeardown (rcb : Nat) (s : State) : Out :=
  .next { s with watches := s.watches.filter (fun w => w.env.rcb != rcb) }

end Sys2Proof.Machine
end

