-- ==== Sys2Proof/Machine/Save.lean ====
section
/-! DEFINITION. Pre-emption: the context area (R372 to R376), full saves (R369), the time-out of a shadow swap (R368), and
which workgroup may be pre-empted (R336). -/

namespace Sys2Proof.Machine

/-! ## The context area (R372 to R376) -/

/-- Bytes followed by zeros up to a multiple of n. -/
def padTo (n : Nat) (bs : List Byte) : List Byte := bs ++ List.replicate ((n - bs.length % n) % n) 0

/-- Bytes followed by zeros up to n in all. -/
def padUpTo (n : Nat) (bs : List Byte) : List Byte := bs ++ List.replicate (n - bs.length) 0

/-- A mask as 12 bytes. -/
def maskBytes (m : Mask) : List Byte := bytesOfNat 12 m.toNat

/-- A frame as a byte, 0xFF for none (R375). -/
def frameByte (f : Option (BitVec 4)) : Byte := (f.map (fun x => x.zeroExtend 8)).getD 0xFF

/-- An entry of the split table (R375); `far` is the word that it is parked at in its flight alone, with its unfinished lanes
(R160, R165). -/
def splitBytes (bkpt : Bool) (far : Option (Place × Mask)) : Option Split → List Byte
  | none => List.replicate 48 0
  | some e =>
    let at_ := (e.parked.map (fun w => (w.at_, w.lanes))).or far
    let p := (at_.map Prod.fst).getD e.at_
    let flags := (if e.live then 1 else 0) + (if e.wait = .join then 2 else 0) +
      (if e.words.any (fun p => !p.order) || far.isSome then 4 else 0) + (if e.words.any (fun p => p.order) then 8 else 0) + (if bkpt then 16 else 0)
    bytesOfNat 4 p.pc.toNat ++ [p.slot.zeroExtend 8, frameByte e.frame, BitVec.ofNat 8 flags,
      BitVec.ofNat 8 ((e.pend.map (fun x => x.2.cls)).getD 0)] ++
      maskBytes e.cur ++ maskBytes e.owned ++ maskBytes ((at_.map Prod.snd).getD 0) ++ List.replicate 4 0

/-- An entry of the rejoin stack (R375). -/
def rejoinBytes : Option Rejoin → List Byte
  | none => List.replicate 48 0
  | some (.join target parent cur owned) =>
    [1, frameByte parent, 0, 0] ++ bytesOfNat 4 target.toNat ++ maskBytes 0 ++ maskBytes owned ++ maskBytes cur ++ List.replicate 4 0
  | some (.pending p cur owned parent) =>
    [2, frameByte parent, p.slot.zeroExtend 8, 0] ++ bytesOfNat 4 p.pc.toNat ++ maskBytes cur ++ maskBytes owned ++ maskBytes 0 ++
      List.replicate 4 0

/-- The loop registers: ctl.lstate, lc0 to lc2, lstart0 to lstart2. -/
def Loops.bytes (l : Loops) : List Byte := bytesOfWords ([l.state] ++ l.lc.toList ++ l.start.toList)

/-- A level block of 1,024 bytes (R375). -/
def Level.bytes (l : Level) (bkpt : Bool) (far : Nat → Option (Place × Mask)) : List Byte :=
  padUpTo 1024 (((List.range 4).zip l.splits.toList).flatMap (fun (i, e) => splitBytes bkpt (far i) e) ++ l.stack.toList.flatMap rejoinBytes ++ l.loops.bytes)

/-- The image of a vector register (R374). -/
def Thread.vregBytes (t : Thread) (stamp r : Nat) : List Byte :=
  let x (l : Nat) : Word := laneOf (t.rdV stamp r) l
  match t.tag stamp r with
  | .u => bytesOfNat 4 (x 0).toNat
  | .a => bytesOfWords [x 0, x 1 - x 0]
  | .g => bytesOfWords ((List.range 96).map x)

/-- A replay-queue entry (R374); `cls` is its record's class. -/
def RqEntry.bytes (e : RqEntry) : List Byte :=
  bytesOfNat 8 e.page ++ bytesOfNat 2 e.lanes.length ++ [if e.far then 2 else 1] ++ List.replicate 5 0 ++
    e.lanes.flatMap (fun (_, va, bs) => bytesOfNat 8 va ++ [BitVec.ofNat 8 (Nat.log2 bs.length)] ++ List.replicate 7 0 ++ padTo 16 bs)

/-- The lowest entry of a level that holds a split. -/
def Level.first (l : Level) : BitVec 2 := (splitSlots.find? (fun i => (l.split? i).isSome)).getD 0

/-- The scalar registers, s63 as 0 and s60 to s62 as the mask of the first split (R374). -/
def Thread.sregBytes (t : Thread) (stamp : Nat) : List Byte :=
  bytesOfWords ((List.range 64).map (fun r => t.rdS t.level.first stamp r))

/-- A wave record (R374): `queue` are its replay-queue entries, `far` its flights, `count` the accesses of the visit it holds the
Ladle for. -/
def State.waveBytes (s : State) (t : Thread) (queue : List RqEntry) (far : List Flight) (held : Bool) (count : Nat) : List Byte :=
  let base := (t.base.map Prod.fst).getD t.level
  let bk := t.bkpt.isSome
  let scall := t.allSplits.any (fun e => e.wait == .scall)
  let state := (if t.base.isSome then 1 else 0) + (if held then 2 else 0) + (if t.anySplit Split.ladleParked then 4 else 0) +
    (if bk then 8 else 0) + (if scall then 16 else 0)
  let pend := (List.range 4).foldl (fun n i => n + (if (((base.split? (BitVec.ofNat 2 i)).bind Split.pend).isSome) then 2 ^ i else 0)) 0
  let ctl := ([0] ++ (List.range 9).map (· + 0x008) ++ (List.range 8).map (· + 0x080)).map (s.ctlOf t)
  let tags := (List.range 64).map (fun r => if r < t.kern.vregs then (t.tag s.stamp r).code.setWidth 8 else 0)
  let vregs := padTo 16 ((List.range t.kern.vregs).flatMap (t.vregBytes s.stamp))
  let rq := queue.flatMap RqEntry.bytes
  let size := 4480 + vregs.length + rq.length
  bytesOfNat 4 size ++ [BitVec.ofNat 8 t.key.ix, BitVec.ofNat 8 t.kern.vregs, BitVec.ofNat 8 state, BitVec.ofNat 8 pend] ++
    bytesOfNat 4 queue.length ++ bytesOfNat 4 count ++ t.sregBytes s.stamp ++ tags ++ t.fl.toList.map (fun x => x.zeroExtend 8) ++
    padUpTo 80 (bytesOfWords ctl) ++ base.bytes bk (farParked far t.key t.base.isSome) ++ (if t.base.isSome then t.level.bytes bk (farParked far t.key false) else List.replicate 1024 0) ++
    t.draw.toList.flatMap (fun j => bytesOfNat 8 j.toNat) ++
    t.ray.toList.flatMap (fun r => bytesOfWords [r.visits, r.leaf, if r.back then 1 else 0]) ++ vregs ++ rq

/-- A format set as a format block (R290, R376). -/
def MFormat.bytes (f : MFormat) : List Byte :=
  [BitVec.ofNat 8 f.fa, BitVec.ofNat 8 (f.mode % 4), BitVec.ofNat 8 (f.glen % 4), 0, BitVec.ofNat 8 f.fb, BitVec.ofNat 8 (f.mode / 4),
    BitVec.ofNat 8 (f.glen / 4), 0] ++ bytesOfWords [f.asc, f.azp, f.bsc, f.bzp] ++ List.replicate 8 0

/-- A saved reservation entry of 64 bytes (R376): FN, tile, the zero flag, the offsets, the control word, the format set. -/
def Resv.bytes (r : Resv) : List Byte :=
  padUpTo 64 ([BitVec.ofNat 8 r.fn, BitVec.ofNat 8 r.tile, if r.zero then 1 else 0, 0] ++ bytesOfWords [r.offA, r.offB, r.ctl] ++ r.fmt.bytes)

/-- An MCC record (R376). -/
def State.mccBytes (s : State) (t : Thread) (ents : List Resv) : List Byte :=
  let c := s.cluster (clusterOf t.core)
  let tiles := (List.range 32).filter (fun i => t.ctl.mtouch.getLsbD i)
  let size := 352 + 64 * ents.length + 16384 * tiles.length
  bytesOfNat 4 size ++ bytesOfNat 4 ents.length ++ bytesOfWords [t.ctl.mtouch, t.ctl.mstat] ++ t.sregBytes s.stamp ++
    padUpTo 32 t.level.loops.bytes ++ t.mfmt.bytes ++ bytesOfWords [t.ctl.hbatch, t.ctl.hstat] ++ List.replicate 8 0 ++
    ents.flatMap Resv.bytes ++ tiles.flatMap (fun i => bytesOfWords ((List.range 4096).map (fun j => (c.tile i)[j]?.getD 0)))

/-- A barrier image (R373). -/
def Barrier.bytes (b : Barrier) : List Byte :=
  bytesOfNat 2 b.phase.toNat ++ bytesOfNat 1 b.expect ++ [0] ++ bytesOfNat 4 b.arrived.toNat ++ bytesOfNat 4 b.counter.toNat ++
    List.replicate 4 0

/-- The offsets of sections laid one after another on 256-byte boundaries. -/
def layOut : Nat → List Nat → List Nat
  | _, [] => []
  | o, n :: ns => o :: layOut (o + (n + 255) / 256 * 256) ns

/-- A bit for each ordered-append channel of a dispatch on which a workgroup stands in a list (R372). -/
def channelBits (cs : List Channel) (f : Channel → List Nat) (ix : Nat) : Nat :=
  ((List.range cs.length).zip cs).foldl (fun n (i, c) => n + (if (f c).contains ix then 2 ^ i else 0)) 0

/-- The header of a context area (R372). -/
def areaHeader (g : Workgroup) (seq : Word) (chans : List Channel) (offs : List Nat) (mccOff clmOff : Nat) : List Byte :=
  let oapp := channelBits chans Channel.claimed g.index.toNat + 2 ^ 16 * channelBits chans Channel.declined g.index.toNat
  bytesOfNat 4 1 ++ bytesOfNat 4 (if mccOff = 0 then 0 else 1) ++ bytesOfNat 8 g.env.rcb ++ bytesOfNat 4 seq.toNat ++
    bytesOfNat 4 g.index.toNat ++ bytesOfNat 2 g.kern.waves ++ [0, 0] ++ bytesOfNat 4 g.kern.clmBytes ++ bytesOfNat 8 clmOff ++
    bytesOfNat 8 mccOff ++ bytesOfNat 4 oapp ++ List.replicate 12 0 ++ padUpTo 128 (offs.flatMap (bytesOfNat 8)) ++
    List.replicate 64 0 ++ g.bars.toList.flatMap Barrier.bytes

/-- The Ladle of a thread's region is held by it, and the accesses of its visit. -/
def State.ladleOf (s : State) (t : Thread) : Bool × Nat :=
  match s.region? t.env.rcb with
  | some r => if r.ladle.holder = some t.key then (true, r.ladle.count) else (false, 0)
  | none => (false, 0)

/-- The context area of a workgroup, up to its CLM image, and the offset of that image (R372). A wave that has retired has no
record. -/
def State.areaBytes (s : State) (g : Workgroup) (ts : List Thread) (ents : List Resv) (queue : List RqEntry) (far : List Flight) :
    List Byte × Nat :=
  let wave (i : Nat) : Option (List Byte) :=
    (ts.find? (fun t => t.key.ix == i && !t.mcc)).map (fun t =>
      let (held, n) := s.ladleOf t
      s.waveBytes t (queue.filter (fun e => e.key == t.key)) far held n)
  let waves := (List.range g.kern.waves).map wave
  let mcc := (ts.find? (fun t => t.mcc)).map (fun t => s.mccBytes t ents)
  let recs := waves.map (fun w => w.getD []) ++ [mcc.getD []]
  let offs := layOut 512 (recs.map List.length)
  let waveOffs := (waves.zip offs).map (fun (w, o) => if w.isSome then o else 0)
  let mccOff := if mcc.isSome then offs[g.kern.waves]?.getD 0 else 0
  let clmOff := (recs.map List.length).foldl (fun o n => o + (n + 255) / 256 * 256) 512
  let d := s.dispatch? g.disp
  let seq := match d with
    | some d => if d.node.isSome then (0xFFFFFFFF : Word) else d.seq
    | none => 0xFFFFFFFF
  (areaHeader g seq ((d.map (fun d => d.chans.toList)).getD []) waveOffs mccOff clmOff ++ recs.flatMap (padTo 256), clmOff)

/-! ## A full save (R369) -/

/-- The words of a workgroup that are abandoned and issue again from the start: RAY words whose lanes have not all finished
(R269), Hamper words that have not started (R309), MAT words that wait for an entry. -/
def State.abandon (s : State) (wg : Nat) : State :=
  let rays := (s.flights.filter (fun f => f.key.wg == wg && f.work.isRay)).map Flight.op
  let hamp := s.clusters.flatMap (fun c => (c.hamper.filter (fun o => o.key.wg == wg && !o.started)).map HamperOp.word)
  let again (mcc : Bool) (p : ParkedWord) : ParkedWord :=
    if (p.stage = 1 ∧ (rays.contains p.id ∨ hamp.contains p.id)) ∨ (mcc ∧ 2 < p.stage ∧ p.stage % 2 = 0) then { p with stage := 0 } else p
  let one (t : Thread) : Thread :=
    if t.key.wg = wg then t.mapSplits (fun e => { e with parked := e.parked.map (again t.mcc), also := e.also.map (again t.mcc) }) else t
  let s := (s.allThreads.filter (fun t => t.key.wg == wg)).foldl State.giveUp s
  { s with
    flights := s.flights.filter (fun f => !(f.key.wg == wg && f.work.isRay))
    thr := one s.thr, threads := s.threads.map one }

/-- A save begins: the workgroup's threads stop issue (R369 step 1). -/
def State.beginSave (s : State) (wg area : Nat) : State := (s.modGroup wg (fun g => { g with status := .saving area })).abandon wg

/-- Nothing of the workgroup is outstanding but lanes that are parked (R369 steps 2 and 3). -/
def State.drained (s : State) (wg : Nat) : Bool :=
  s.flights.all (fun f => f.key.wg != wg ||
    (f.ready.isEmpty && f.bad.isEmpty && f.denied.isEmpty && f.todo.all LaneAcc.parked)) &&
  s.allThreads.all (fun t => t.key.wg != wg || t.drops == 0) &&
  s.clusters.all (fun c => !c.hamper.any (fun o => o.key.wg == wg) && !c.resv.any (fun r => r.key.wg == wg && r.granted) &&
    !c.mvnb.any (fun m => m.key.wg == wg))

/-- A split as it is saved: what waits for a page will be tried again, an ordering word that has not arrived starts again
(R174, R371). -/
def Split.saved (e : Split) : Split :=
  let word (p : ParkedWord) : ParkedWord :=
    { p with
      waits := [], go := true, cap := none, texels := [], base := none
      stage := if p.order ∧ p.stage < 2 then 0 else p.stage }
  { e with
    parked := e.parked.map word, also := e.also.map word
    wait := match e.wait with
      | .fetch _ => .none
      | w => w }

/-- A CLM image is written to its context area, poisoned sectors too (R166, R369). -/
def State.storeClm (s : State) (cl from_ to_ n : Nat) : State :=
  let c := s.cluster cl
  let bad := (List.range ((n + 31) / 32)).filter (fun i => c.poison.contains (from_ / 32 + i))
  let s := s.engineWrite to_ (cellsRead c.clm from_ n)
  bad.foldl (fun s i => s.poisonSector (to_ / 32 + i)) s

/-- The context is written, and the core, the window and the MCC thread are free (R369 step 4). -/
def State.finishSave (s : State) (g : Workgroup) (area : Nat) : State :=
  let s := s.unfocus
  let cl := clusterOf g.core
  let ts := s.threads.filter (fun t => t.key.wg == g.id)
  let ents := (s.cluster cl).resv.filter (fun r => r.key.wg == g.id)
  let queue := s.rq.filter (fun e => e.key.wg == g.id)
  let far := s.flights.filter (fun f => f.key.wg == g.id)
  let (bytes, clmOff) := s.areaBytes g ts ents queue far
  let s := s.engineWrite area bytes
  let s := match g.window with
    | some w => s.storeClm cl w (area + clmOff) g.kern.clmBytes
    | none => s
  let s := (s.modCluster cl (fun c => { c with resv := c.resv.filter (fun r => r.key.wg != g.id) })).dropLocksOf (ents.map Resv.id)
  let s : State := { s with
    threads := s.threads.filter (fun t => t.key.wg != g.id)
    rq := s.rq.filter (fun e => e.key.wg != g.id)
    flights := s.flights.filter (fun f => f.key.wg != g.id) }
  let s := s.modGroup g.id (fun g =>
    { g with
      status := .saved area, window := none, bank := false, saved := ts.map (fun t => t.mapSplits Split.saved), ents := ents
      queue := queue, far := far })
  let s := if g.bank then s.thaw g.core else s
  if g.window.isSome then s.windowGone cl else s

/-! ## Which workgroup may be pre-empted (R336) -/

/-- The lowest-numbered unfinished workgroup of a dispatch. -/
def Dispatch.lowest (d : Dispatch) : Nat :=
  ((List.range (d.retired.length + 1)).find? (fun i => !d.retired.contains i)).getD 0

/-- The workgroup is its dispatch's lowest unfinished. -/
def State.isLowest (s : State) (g : Workgroup) : Bool :=
  ((s.dispatch? g.disp).map (fun d => d.lowest == g.index.toNat)).getD false

/-- What waits may start, and no core has room for it. -/
def State.lacksRoom (s : State) (w : Waiting) : Bool :=
  s.waiting.contains w && (s.spotOf w).isNone && (match w with
    | .fresh d => (match s.startRule d with
      | .free => true
      | .only _ => true
      | .hold => false
      | .diverge => false)
    | .saved _ => true)

/-- Some dispatch's lowest unfinished workgroup, or a wave that a Ladle visit names, is not resident and does not fit (R336,
R344). -/
def State.someoneOut (s : State) : Bool :=
  s.dispatches.any (fun d => (d.next == d.lowest && s.lacksRoom (.fresh d)) ||
    s.groups.any (fun g => g.disp == d.id && g.index.toNat == d.lowest && s.lacksRoom (.saved g))) ||
  s.regions.any (fun r => r.ladleReplays &&
    (match s.traceNext r 2 r.visitCursor with
      | .entry _ e => s.groups.any (fun g => s.lacksRoom (.saved g) && g.env.rcb == r.rcb && g.index.toNat == e.wg &&
          ((s.dispatch? g.disp).map (fun d => d.seq16 == e.dseq)).getD false)
      | .over => false
      | .unreadable => false))

/-- A wave of the workgroup has retired with replay-queue entries outstanding: it stays resident until they drain (R163). -/
def State.keepsResident (s : State) (g : Workgroup) : Bool :=
  s.rq.any (fun e => e.key.wg == g.id && g.left.getLsbD e.key.ix)

/-- The workgroups that may be pre-empted at all. -/
def State.victims (s : State) : List Workgroup :=
  s.groups.filter (fun g => (g.status == .resident || g.status == .frozen) && !s.isLowest g && !s.keepsResident g)

/-- No other of some workgroups is to be taken before this one: lowest priority first, then highest number. -/
def firstVictim (g : Workgroup) (vs : List Workgroup) : Bool :=
  vs.all (fun v => decide (g.env.prio < v.env.prio ∨ (g.env.prio = v.env.prio ∧ v.index.toNat ≤ g.index.toNat)))

/-- The launcher may pre-empt the workgroup now (R336, R337). -/
def State.mayPreempt (s : State) (g : Workgroup) : Bool :=
  let vs := s.victims
  let cores := s.dispatches.filterMap (fun d => match s.startRule d with
    | .only c => if s.lacksRoom (.fresh d) then some c else none
    | .free => none
    | .hold => none
    | .diverge => none)
  vs.contains g && ((s.someoneOut && firstVictim g vs) ||
    (cores.contains g.core && firstVictim g (vs.filter (fun v => v.core == g.core))))

/-- A context area stands on a 256-byte boundary in HBM4E (R372). -/
def State.areaOk (s : State) (area : Nat) : Bool := area % 256 == 0 && inHbm s.plat.win.toNat area

/-- FULL_SAVE: a workgroup is pre-empted into a context area; begun, it ends once the workgroup has drained (R369). -/
def execFullSave (wg area : Nat) (s : State) : Out :=
  match s.group? wg with
  | none => .next s
  | some g =>
    match g.status with
    | .saving a => if s.drained wg then .next (s.finishSave g a) else .next s
    | .resident | .frozen => if s.plat.computes && s.areaOk area && s.mayPreempt g then .next (s.beginSave wg area) else .next s
    | .shadow | .saved _ => .next s

/-- SHADOW_SAVE_TIMEOUT: a frozen workgroup that is its dispatch's lowest unfinished has waited 4,096 clocks: the shadow
workgroup of the core is saved in full (R368). -/
def execShadowSaveTimeout (core area : Nat) (s : State) : Out :=
  match s.groups.find? (fun g => g.core == core && g.status == .shadow) with
  | none => .next s
  | some g =>
    if s.areaOk area && !s.keepsResident g && s.groups.any (fun x => x.core == core && x.status == .frozen && s.isLowest x && decide (x.frozenAt + 4096 ≤ s.clock)) then
      .next (s.beginSave g.id area)
    else .next s

end Sys2Proof.Machine
end

