-- ==== Sys2Proof/Machine/Dispatch.lean ====
section
/-! DEFINITION. What each instruction and event does: one arm per constructor, one meaning per arm. -/

namespace Sys2Proof.Machine

def exec (i : Instr) (s : State) : Host.Outcome State Fault Refusal :=
  match i with
  | .nop => Sys2Proof.Machine.execNop s
  | .mjoin o => Sys2Proof.Machine.execMjoin o s
  | .join => Sys2Proof.Machine.execJoin s
  | .ret => Sys2Proof.Machine.execRet s
  | .jmpr n => Sys2Proof.Machine.execJmpr n s
  | .loop s_ n => Sys2Proof.Machine.execLoop s_ n s
  | .loopi t n => Sys2Proof.Machine.execLoopi t n s
  | .lbrk => Sys2Proof.Machine.execLbrk s
  | .yield y => Sys2Proof.Machine.execYield y s
  | .waitx w => Sys2Proof.Machine.execWaitx w s
  | .br o => Sys2Proof.Machine.execBr o s
  | .call o => Sys2Proof.Machine.execCall o s
  | .bru s_ q o => Sys2Proof.Machine.execBru s_ q o s
  | .brs m e o => Sys2Proof.Machine.execBrs m e o s
  | .sadd d a b l => Sys2Proof.Machine.execSadd d a b l s
  | .ssub d a b l => Sys2Proof.Machine.execSsub d a b l s
  | .smul d a b l => Sys2Proof.Machine.execSmul d a b l s
  | .smulh d a b l => Sys2Proof.Machine.execSmulh d a b l s
  | .sdiv d a b l => Sys2Proof.Machine.execSdiv d a b l s
  | .sdivu d a b l => Sys2Proof.Machine.execSdivu d a b l s
  | .srem d a b l => Sys2Proof.Machine.execSrem d a b l s
  | .sand d a b l => Sys2Proof.Machine.execSand d a b l s
  | .sor d a b l => Sys2Proof.Machine.execSor d a b l s
  | .sxor d a b l => Sys2Proof.Machine.execSxor d a b l s
  | .sshl d a b l => Sys2Proof.Machine.execSshl d a b l s
  | .sshr d a b l => Sys2Proof.Machine.execSshr d a b l s
  | .ssra d a b l => Sys2Proof.Machine.execSsra d a b l s
  | .sshli d a n l => Sys2Proof.Machine.execSshli d a n l s
  | .sshri d a n l => Sys2Proof.Machine.execSshri d a n l s
  | .ssrai d a n l => Sys2Proof.Machine.execSsrai d a n l s
  | .smin d a b l => Sys2Proof.Machine.execSmin d a b l s
  | .smax d a b l => Sys2Proof.Machine.execSmax d a b l s
  | .sceq d a b l => Sys2Proof.Machine.execSceq d a b l s
  | .sclt d a b l => Sys2Proof.Machine.execSclt d a b l s
  | .scltu d a b l => Sys2Proof.Machine.execScltu d a b l s
  | .ssel d a b l => Sys2Proof.Machine.execSsel d a b l s
  | .sclz d a l => Sys2Proof.Machine.execSclz d a l s
  | .spop d a l => Sys2Proof.Machine.execSpop d a l s
  | .smov d a l => Sys2Proof.Machine.execSmov d a l s
  | .saddi d a imm => Sys2Proof.Machine.execSaddi d a imm s
  | .sandi d a imm => Sys2Proof.Machine.execSandi d a imm s
  | .sori d a imm => Sys2Proof.Machine.execSori d a imm s
  | .vadd d a b l => Sys2Proof.Machine.execVadd d a b l s
  | .vsub d a b l => Sys2Proof.Machine.execVsub d a b l s
  | .vmul d a b l => Sys2Proof.Machine.execVmul d a b l s
  | .vmulh d a b l => Sys2Proof.Machine.execVmulh d a b l s
  | .vmad d a b l => Sys2Proof.Machine.execVmad d a b l s
  | .vand d a b l => Sys2Proof.Machine.execVand d a b l s
  | .vor d a b l => Sys2Proof.Machine.execVor d a b l s
  | .vxor d a b l => Sys2Proof.Machine.execVxor d a b l s
  | .vnot d a l => Sys2Proof.Machine.execVnot d a l s
  | .vshl d a b l => Sys2Proof.Machine.execVshl d a b l s
  | .vshr d a b l => Sys2Proof.Machine.execVshr d a b l s
  | .vsra d a b l => Sys2Proof.Machine.execVsra d a b l s
  | .vshli d a n l => Sys2Proof.Machine.execVshli d a n l s
  | .vshri d a n l => Sys2Proof.Machine.execVshri d a n l s
  | .vsrai d a n l => Sys2Proof.Machine.execVsrai d a n l s
  | .vmin d a b l => Sys2Proof.Machine.execVmin d a b l s
  | .vmax d a b l => Sys2Proof.Machine.execVmax d a b l s
  | .vabs d a l => Sys2Proof.Machine.execVabs d a l s
  | .vneg d a l => Sys2Proof.Machine.execVneg d a l s
  | .vclz d a l => Sys2Proof.Machine.execVclz d a l s
  | .vpop d a l => Sys2Proof.Machine.execVpop d a l s
  | .vmov d a l => Sys2Proof.Machine.execVmov d a l s
  | .vselz d a b l => Sys2Proof.Machine.execVselz d a b l s
  | .vaddi d a imm => Sys2Proof.Machine.execVaddi d a imm s
  | .vandi d a imm => Sys2Proof.Machine.execVandi d a imm s
  | .vli d imm => Sys2Proof.Machine.execVli d imm s
  | .vceq d a b l => Sys2Proof.Machine.execVceq d a b l s
  | .vcne d a b l => Sys2Proof.Machine.execVcne d a b l s
  | .vclt d a b l => Sys2Proof.Machine.execVclt d a b l s
  | .vcle d a b l => Sys2Proof.Machine.execVcle d a b l s
  | .vcltu d a b l => Sys2Proof.Machine.execVcltu d a b l s
  | .vcleu d a b l => Sys2Proof.Machine.execVcleu d a b l s
  | .vfceq d a b l => Sys2Proof.Machine.execVfceq d a b l s
  | .vfcne d a b l => Sys2Proof.Machine.execVfcne d a b l s
  | .vfclt d a b l => Sys2Proof.Machine.execVfclt d a b l s
  | .vfcle d a b l => Sys2Proof.Machine.execVfcle d a b l s
  | .vfcun d a b l => Sys2Proof.Machine.execVfcun d a b l s
  | .vdotb d a b l => Sys2Proof.Machine.execVdotb d a b l s
  | .vdotbs d a b l => Sys2Proof.Machine.execVdotbs d a b l s
  | .vdotub d a b l => Sys2Proof.Machine.execVdotub d a b l s
  | .vdotubs d a b l => Sys2Proof.Machine.execVdotubs d a b l s
  | .vdotn d a b l => Sys2Proof.Machine.execVdotn d a b l s
  | .vdotns d a b l => Sys2Proof.Machine.execVdotns d a b l s
  | .vdoth d a b l => Sys2Proof.Machine.execVdoth d a b l s
  | .vdotbf d a b l => Sys2Proof.Machine.execVdotbf d a b l s
  | .vfadd d a b l => Sys2Proof.Machine.execVfadd d a b l s
  | .vfsub d a b l => Sys2Proof.Machine.execVfsub d a b l s
  | .vfmul d a b l => Sys2Proof.Machine.execVfmul d a b l s
  | .vfma d a b l => Sys2Proof.Machine.execVfma d a b l s
  | .vfms d a b l => Sys2Proof.Machine.execVfms d a b l s
  | .vfnma d a b l => Sys2Proof.Machine.execVfnma d a b l s
  | .vfmin d a b l => Sys2Proof.Machine.execVfmin d a b l s
  | .vfmax d a b l => Sys2Proof.Machine.execVfmax d a b l s
  | .vfminn d a b l => Sys2Proof.Machine.execVfminn d a b l s
  | .vfmaxn d a b l => Sys2Proof.Machine.execVfmaxn d a b l s
  | .vfabs d a l => Sys2Proof.Machine.execVfabs d a l s
  | .vfneg d a l => Sys2Proof.Machine.execVfneg d a l s
  | .vfcps d a b l => Sys2Proof.Machine.execVfcps d a b l s
  | .vfrnd d a l => Sys2Proof.Machine.execVfrnd d a l s
  | .vftrc d a l => Sys2Proof.Machine.execVftrc d a l s
  | .vfclass d a l => Sys2Proof.Machine.execVfclass d a l s
  | .hadd d a b l => Sys2Proof.Machine.execHadd d a b l s
  | .hsub d a b l => Sys2Proof.Machine.execHsub d a b l s
  | .hmul d a b l => Sys2Proof.Machine.execHmul d a b l s
  | .hfma d a b l => Sys2Proof.Machine.execHfma d a b l s
  | .hmin d a b l => Sys2Proof.Machine.execHmin d a b l s
  | .hmax d a b l => Sys2Proof.Machine.execHmax d a b l s
  | .badd d a b l => Sys2Proof.Machine.execBadd d a b l s
  | .bmul d a b l => Sys2Proof.Machine.execBmul d a b l s
  | .bfma d a b l => Sys2Proof.Machine.execBfma d a b l s
  | .xcvt d a s_ t r u => Sys2Proof.Machine.execXcvt d a s_ t r u s
  | .xrcp d a l => Sys2Proof.Machine.execXrcp d a l s
  | .xrsq d a l => Sys2Proof.Machine.execXrsq d a l s
  | .xsqrt d a l => Sys2Proof.Machine.execXsqrt d a l s
  | .xexp2 d a l => Sys2Proof.Machine.execXexp2 d a l s
  | .xlog2 d a l => Sys2Proof.Machine.execXlog2 d a l s
  | .xsin d a l => Sys2Proof.Machine.execXsin d a l s
  | .xcos d a l => Sys2Proof.Machine.execXcos d a l s
  | .xtanh d a l => Sys2Proof.Machine.execXtanh d a l s
  | .xdiv d a b l => Sys2Proof.Machine.execXdiv d a b l s
  | .xpack6 d a l => Sys2Proof.Machine.execXpack6 d a l s
  | .xunpk6 d a l => Sys2Proof.Machine.execXunpk6 d a l s
  | .xpack4 d a b l => Sys2Proof.Machine.execXpack4 d a b l s
  | .xunpk4 d a l => Sys2Proof.Machine.execXunpk4 d a l s
  | .xpackh d a b l => Sys2Proof.Machine.execXpackh d a b l s
  | .xpackb d a b l => Sys2Proof.Machine.execXpackb d a b l s
  | .xqnt4 d a b l => Sys2Proof.Machine.execXqnt4 d a b l s
  | .xqnt8 d a b l => Sys2Proof.Machine.execXqnt8 d a b l s
  | .xdqnt4 d a b l => Sys2Proof.Machine.execXdqnt4 d a b l s
  | .xdqnt8 d a b l => Sys2Proof.Machine.execXdqnt8 d a b l s
  | .xqmx d a b l => Sys2Proof.Machine.execXqmx d a b l s
  | .xdqmx d a b l => Sys2Proof.Machine.execXdqmx d a b l s
  | .xamax d a b l => Sys2Proof.Machine.execXamax d a b l s
  | .xrngb d => Sys2Proof.Machine.execXrngb d s
  | .xrngu d => Sys2Proof.Machine.execXrngu d s
  | .xrngk d a b l => Sys2Proof.Machine.execXrngk d a b l s
  | .xrngj a b l => Sys2Proof.Machine.execXrngj a b l s
  | .wshf d a b l => Sys2Proof.Machine.execWshf d a b l s
  | .wshfi d a n l => Sys2Proof.Machine.execWshfi d a n l s
  | .wxor d a n l => Sys2Proof.Machine.execWxor d a n l s
  | .wup d a n l => Sys2Proof.Machine.execWup d a n l s
  | .wdn d a n l => Sys2Proof.Machine.execWdn d a n l s
  | .wbc d a l => Sys2Proof.Machine.execWbc d a l s
  | .wscan d a l => Sys2Proof.Machine.execWscan d a l s
  | .wscanx d a l => Sys2Proof.Machine.execWscanx d a l s
  | .wscanf d a l => Sys2Proof.Machine.execWscanf d a l s
  | .wscanmin d a l => Sys2Proof.Machine.execWscanmin d a l s
  | .wscanmax d a l => Sys2Proof.Machine.execWscanmax d a l s
  | .wred d a l => Sys2Proof.Machine.execWred d a l s
  | .wredf d a l => Sys2Proof.Machine.execWredf d a l s
  | .wredmin d a l => Sys2Proof.Machine.execWredmin d a l s
  | .wredmax d a l => Sys2Proof.Machine.execWredmax d a l s
  | .wredand d a l => Sys2Proof.Machine.execWredand d a l s
  | .wredor d a l => Sys2Proof.Machine.execWredor d a l s
  | .wvote d a l => Sys2Proof.Machine.execWvote d a l s
  | .wany d a l => Sys2Proof.Machine.execWany d a l s
  | .wall d a l => Sys2Proof.Machine.execWall d a l s
  | .wcomp d a b l => Sys2Proof.Machine.execWcomp d a b l s
  | .wmaxi d a b l => Sys2Proof.Machine.execWmaxi d a b l s
  | .wflg d g => Sys2Proof.Machine.execWflg d g s
  | .wflclr m => Sys2Proof.Machine.execWflclr m s
  | .ldb d a s_ h => Sys2Proof.Machine.execLdb d a s_ h s
  | .ldbu d a s_ h => Sys2Proof.Machine.execLdbu d a s_ h s
  | .ldh d a s_ h => Sys2Proof.Machine.execLdh d a s_ h s
  | .ldhu d a s_ h => Sys2Proof.Machine.execLdhu d a s_ h s
  | .ldw d a s_ h => Sys2Proof.Machine.execLdw d a s_ h s
  | .ldd d a s_ h => Sys2Proof.Machine.execLdd d a s_ h s
  | .ldq d a s_ h => Sys2Proof.Machine.execLdq d a s_ h s
  | .sldw d a s_ h => Sys2Proof.Machine.execSldw d a s_ h s
  | .sldd d a s_ h => Sys2Proof.Machine.execSldd d a s_ h s
  | .sldq d a s_ h => Sys2Proof.Machine.execSldq d a s_ h s
  | .stb d a s_ h => Sys2Proof.Machine.execStb d a s_ h s
  | .sth d a s_ h => Sys2Proof.Machine.execSth d a s_ h s
  | .stw d a s_ h => Sys2Proof.Machine.execStw d a s_ h s
  | .std d a s_ h => Sys2Proof.Machine.execStd d a s_ h s
  | .stq d a s_ h => Sys2Proof.Machine.execStq d a s_ h s
  | .st64 d a s_ h => Sys2Proof.Machine.execSt64 d a s_ h s
  | .sstw d a s_ h => Sys2Proof.Machine.execSstw d a s_ h s
  | .sstd d a s_ h => Sys2Proof.Machine.execSstd d a s_ h s
  | .lldw d a s_ => Sys2Proof.Machine.execLldw d a s_ s
  | .lldq d a s_ => Sys2Proof.Machine.execLldq d a s_ s
  | .lstw d a s_ => Sys2Proof.Machine.execLstw d a s_ s
  | .lstq d a s_ => Sys2Proof.Machine.execLstq d a s_ s
  | .lpush d a s_ => Sys2Proof.Machine.execLpush d a s_ s
  | .lpop d a s_ => Sys2Proof.Machine.execLpop d a s_ s
  | .laadd d a s_ => Sys2Proof.Machine.execLaadd d a s_ s
  | .lamin d a s_ => Sys2Proof.Machine.execLamin d a s_ s
  | .lamax d a s_ => Sys2Proof.Machine.execLamax d a s_ s
  | .laxch d a s_ => Sys2Proof.Machine.execLaxch d a s_ s
  | .aadd d a s_ h => Sys2Proof.Machine.execAadd d a s_ h s
  | .amin d a s_ h => Sys2Proof.Machine.execAmin d a s_ h s
  | .amax d a s_ h => Sys2Proof.Machine.execAmax d a s_ h s
  | .aand d a s_ h => Sys2Proof.Machine.execAand d a s_ h s
  | .aor d a s_ h => Sys2Proof.Machine.execAor d a s_ h s
  | .axor d a s_ h => Sys2Proof.Machine.execAxor d a s_ h s
  | .axch d a s_ h => Sys2Proof.Machine.execAxch d a s_ h s
  | .acas d a s_ h => Sys2Proof.Machine.execAcas d a s_ h s
  | .afadd d a s_ h => Sys2Proof.Machine.execAfadd d a s_ h s
  | .afmin d a s_ h => Sys2Proof.Machine.execAfmin d a s_ h s
  | .afmax d a s_ h => Sys2Proof.Machine.execAfmax d a s_ h s
  | .amxi d a s_ h => Sys2Proof.Machine.execAmxi d a s_ h s
  | .acq => Sys2Proof.Machine.execAcq s
  | .rel => Sys2Proof.Machine.execRel s
  | .acqrel => Sys2Proof.Machine.execAcqrel s
  | .fsmp => Sys2Proof.Machine.execFsmp s
  | .fbvh => Sys2Proof.Machine.execFbvh s
  | .ffar s_ n => Sys2Proof.Machine.execFfar s_ n s
  | .pref h s_ n => Sys2Proof.Machine.execPref h s_ n s
  | .invl s_ n => Sys2Proof.Machine.execInvl s_ n s
  | .esta d a s_ h => Sys2Proof.Machine.execEsta d a s_ h s
  | .estw d a s_ h => Sys2Proof.Machine.execEstw d a s_ h s
  | .estg d a s_ h => Sys2Proof.Machine.execEstg d a s_ h s
  | .emrg d a s_ h => Sys2Proof.Machine.execEmrg d a s_ h s
  | .eld d a s_ h => Sys2Proof.Machine.execEld d a s_ h s
  | .eldr d a s_ h => Sys2Proof.Machine.execEldr d a s_ h s
  | .egen d a s_ h => Sys2Proof.Machine.execEgen d a s_ h s
  | .ewatch d a s_ => Sys2Proof.Machine.execEwatch d a s_ s
  | .eunw d a => Sys2Proof.Machine.execEunw d a s
  | .cmpt d a s_ h => Sys2Proof.Machine.execCmpt d a s_ h s
  | .clda d a s_ h => Sys2Proof.Machine.execClda d a s_ h s
  | .cflush a s_ h => Sys2Proof.Machine.execCflush a s_ h s
  | .cclr a s_ h => Sys2Proof.Machine.execCclr a s_ h s
  | .crep d a s_ h => Sys2Proof.Machine.execCrep d a s_ h s
  | .cbind d a s_ => Sys2Proof.Machine.execCbind d a s_ s
  | .bar b => Sys2Proof.Machine.execBar b s
  | .bara b => Sys2Proof.Machine.execBara b s
  | .barw b => Sys2Proof.Machine.execBarw b s
  | .barx b n => Sys2Proof.Machine.execBarx b n s
  | .oapp d n h => Sys2Proof.Machine.execOapp d n h s
  | .odecl h => Sys2Proof.Machine.execOdecl h s
  | .lget => Sys2Proof.Machine.execLget s
  | .lpass => Sys2Proof.Machine.execLpass s
  | .smpp d a s_ h => Sys2Proof.Machine.execSmpp d a s_ h s
  | .smpb d a s_ h => Sys2Proof.Machine.execSmpb d a s_ h s
  | .smpt d a s_ h => Sys2Proof.Machine.execSmpt d a s_ h s
  | .smpa d a s_ h => Sys2Proof.Machine.execSmpa d a s_ h s
  | .smpg d a s_ h => Sys2Proof.Machine.execSmpg d a s_ h s
  | .sfet d a s_ h => Sys2Proof.Machine.execSfet d a s_ h s
  | .slat d a s_ h => Sys2Proof.Machine.execSlat d a s_ h s
  | .sqry d a s_ h => Sys2Proof.Machine.execSqry d a s_ h s
  | .dtbind d s_ => Sys2Proof.Machine.execDtbind d s_ s
  | .dtunb d => Sys2Proof.Machine.execDtunb d s
  | .dtqry d => Sys2Proof.Machine.execDtqry d s
  | .trace d a s_ => Sys2Proof.Machine.execTrace d a s_ s
  | .tracea d a s_ => Sys2Proof.Machine.execTracea d a s_ s
  | .tcall p a s_ => Sys2Proof.Machine.execTcall p a s_ s
  | .trres d => Sys2Proof.Machine.execTrres d s
  | .rdraw d s_ => Sys2Proof.Machine.execRdraw d s_ s
  | .rwait d => Sys2Proof.Machine.execRwait d s
  | .wgenq d n a => Sys2Proof.Machine.execWgenq d n a s
  | .launch d s_ => Sys2Proof.Machine.execLaunch d s_ s
  | .wgfin => Sys2Proof.Machine.execWgfin s
  | .mldf d n => Sys2Proof.Machine.execMldf d n s
  | .mma d a b => Sys2Proof.Machine.execMma d a b s
  | .mmaz d a b => Sys2Proof.Machine.execMmaz d a b s
  | .mpost z d a b => Sys2Proof.Machine.execMpost z d a b s
  | .mwait e t => Sys2Proof.Machine.execMwait e t s
  | .mdrain d a b => Sys2Proof.Machine.execMdrain d a b s
  | .mfill d a b => Sys2Proof.Machine.execMfill d a b s
  | .mvnb d a => Sys2Proof.Machine.execMvnb d a s
  | .mvwait => Sys2Proof.Machine.execMvwait s
  | .hload d a s_ h => Sys2Proof.Machine.execHload d a s_ h s
  | .hstore d a s_ h => Sys2Proof.Machine.execHstore d a s_ h s
  | .hmcast d a s_ h => Sys2Proof.Machine.execHmcast d a s_ h s
  | .hpref d a s_ h => Sys2Proof.Machine.execHpref d a s_ h s
  | .hbatch d => Sys2Proof.Machine.execHbatch d s
  | .waitb n => Sys2Proof.Machine.execWaitb n s
  | .hqry d a s_ h => Sys2Proof.Machine.execHqry d a s_ h s
  | .trap n => Sys2Proof.Machine.execTrap n s
  | .rte => Sys2Proof.Machine.execRte s
  | .scall n => Sys2Proof.Machine.execScall n s
  | .ctlr d r => Sys2Proof.Machine.execCtlr d r s
  | .ctlw r a => Sys2Proof.Machine.execCtlw r a s
  | .bkpt n => Sys2Proof.Machine.execBkpt n s
  | .exit => Sys2Proof.Machine.execExit s
  | .rdtime d => Sys2Proof.Machine.execRdtime d s
  | .const p => Sys2Proof.Machine.execConst p s
  | .nonInstruction slot => Sys2Proof.Machine.execNonInstruction slot s
  | .longLatencyReturn id lanes regs => Sys2Proof.Machine.execLongLatencyReturn id lanes regs s
  | .joinArrive t sp => Sys2Proof.Machine.execJoinArrive t sp s
  | .splitLeave t sp => Sys2Proof.Machine.execSplitLeave t sp s
  | .workgroupRetire wg => Sys2Proof.Machine.execWorkgroupRetire wg s
  | .yieldExpiry t sp => Sys2Proof.Machine.execYieldExpiry t sp s
  | .progressPromote t sp => Sys2Proof.Machine.execProgressPromote t sp s
  | .writeQueueEnter core => Sys2Proof.Machine.execWriteQueueEnter core s
  | .storeReachHome core id => Sys2Proof.Machine.execStoreReachHome core id s
  | .revoke core id cluster => Sys2Proof.Machine.execRevoke core id cluster s
  | .storeAck core id => Sys2Proof.Machine.execStoreAck core id s
  | .loadReturn id lanes regs evict => Sys2Proof.Machine.execLoadReturn id lanes regs evict s
  | .atomicApply id lane => Sys2Proof.Machine.execAtomicApply id lane s
  | .orderGateAdmit id lane => Sys2Proof.Machine.execOrderGateAdmit id lane s
  | .orderGateTimeout rcb addr => Sys2Proof.Machine.execOrderGateTimeout rcb addr s
  | .faultMap rec ents => Sys2Proof.Machine.execFaultMap rec ents s
  | .faultDeny rec => Sys2Proof.Machine.execFaultDeny rec s
  | .faultPoison rec => Sys2Proof.Machine.execFaultPoison rec s
  | .faultRetry rec => Sys2Proof.Machine.execFaultRetry rec s
  | .farStoreAck core id => Sys2Proof.Machine.execFarStoreAck core id s
  | .farTimeout store core id => Sys2Proof.Machine.execFarTimeout store core id s
  | .cxlLinkLoss port => Sys2Proof.Machine.execCxlLinkLoss port s
  | .poisonTrapDeferred t sp => Sys2Proof.Machine.execPoisonTrapDeferred t sp s
  | .softError clm addr => Sys2Proof.Machine.execSoftError clm addr s
  | .rangeLockRelease cluster entry => Sys2Proof.Machine.execRangeLockRelease cluster entry s
  | .estContributeApply id lane => Sys2Proof.Machine.execEstContributeApply id lane s
  | .estMergeApply id lane => Sys2Proof.Machine.execEstMergeApply id lane s
  | .estGenApply id lane => Sys2Proof.Machine.execEstGenApply id lane s
  | .estdropAck t => Sys2Proof.Machine.execEstdropAck t s
  | .watchSweep handle => Sys2Proof.Machine.execWatchSweep handle s
  | .cmpTermArrive id lane => Sys2Proof.Machine.execCmpTermArrive id lane s
  | .crucibleHoldExpire addr => Sys2Proof.Machine.execCrucibleHoldExpire addr s
  | .matGrant cluster port => Sys2Proof.Machine.execMatGrant cluster port s
  | .matEntryComplete cluster entry => Sys2Proof.Machine.execMatEntryComplete cluster entry s
  | .mvnbComplete cluster id => Sys2Proof.Machine.execMvnbComplete cluster id s
  | .hamperOpStart t sp => Sys2Proof.Machine.execHamperOpStart t sp s
  | .hamperOpComplete cluster id => Sys2Proof.Machine.execHamperOpComplete cluster id s
  | .hmcastShareLand cluster id recv => Sys2Proof.Machine.execHmcastShareLand cluster id recv s
  | .traceLaneFinish id lane => Sys2Proof.Machine.execTraceLaneFinish id lane s
  | .traceComplete id => Sys2Proof.Machine.execTraceComplete id s
  | .rasterTriangle draw => Sys2Proof.Machine.execRasterTriangle draw s
  | .rasterTileRecord draw tile => Sys2Proof.Machine.execRasterTileRecord draw tile s
  | .nodeGroupTimer rcb node => Sys2Proof.Machine.execNodeGroupTimer rcb node s
  | .workgroupPlace => Sys2Proof.Machine.execWorkgroupPlace s
  | .shadowSwap core rcb seq => Sys2Proof.Machine.execShadowSwap core rcb seq s
  | .shadowSaveTimeout core area => Sys2Proof.Machine.execShadowSaveTimeout core area s
  | .fullSave wg area => Sys2Proof.Machine.execFullSave wg area s
  | .restore wg => Sys2Proof.Machine.execRestore wg s
  | .ladleHandon rcb => Sys2Proof.Machine.execLadleHandon rcb s
  | .ladleVisitTimeout rcb => Sys2Proof.Machine.execLadleVisitTimeout rcb s
  | .oappGrant t sp => Sys2Proof.Machine.execOappGrant t sp s
  | .scallAnswer t sp ans => Sys2Proof.Machine.execScallAnswer t sp ans s
  | .bkptResume t resume => Sys2Proof.Machine.execBkptResume t resume s
  | .clmBankModeWrite bank val => Sys2Proof.Machine.execClmBankModeWrite bank val s
  | .clmBankRefusedClear bank val => Sys2Proof.Machine.execClmBankRefusedClear bank val s
  | .loopCounterWrite level val => Sys2Proof.Machine.execLoopCounterWrite level val s
  | .hstatClear val => Sys2Proof.Machine.execHstatClear val s
  | .sstatClear n val => Sys2Proof.Machine.execSstatClear n val s
  | .mstatClear val => Sys2Proof.Machine.execMstatClear val s
  | .trapStateWrite reg val => Sys2Proof.Machine.execTrapStateWrite reg val s
  | .bandRise band temp rate => Sys2Proof.Machine.execBandRise band temp rate s
  | .bandFall band temp rate => Sys2Proof.Machine.execBandFall band temp rate s
  | .soakStable => Sys2Proof.Machine.execSoakStable s
  | .trainComplete => Sys2Proof.Machine.execTrainComplete s
  | .trainFail => Sys2Proof.Machine.execTrainFail s
  | .excursionClear => Sys2Proof.Machine.execExcursionClear s
  | .flaskCool => Sys2Proof.Machine.execFlaskCool s
  | .flaskWarm => Sys2Proof.Machine.execFlaskWarm s
  | .flaskResume => Sys2Proof.Machine.execFlaskResume s
  | .flaskService => Sys2Proof.Machine.execFlaskService s
  | .excursionClr => Sys2Proof.Machine.execExcursionClr s
  | .stackwinWrite val => Sys2Proof.Machine.execStackwinWrite val s
  | .cxlDownClear port => Sys2Proof.Machine.execCxlDownClear port s
  | .platformRegisterWrite reg val => Sys2Proof.Machine.execPlatformRegisterWrite reg val s
  | .dutyRequestAnswer req => Sys2Proof.Machine.execDutyRequestAnswer req s
  | .refreshRow chan row => Sys2Proof.Machine.execRefreshRow chan row s
  | .scrubPassStart chan => Sys2Proof.Machine.execScrubPassStart chan s
  | .scrubSector chan addr found => Sys2Proof.Machine.execScrubSector chan addr found s
  | .scrubEscalate chan behind => Sys2Proof.Machine.execScrubEscalate chan behind s
  | .deviceReset firmware good => Sys2Proof.Machine.execDeviceReset firmware good s
  | .hostLoad rq rcb image sig plan => Sys2Proof.Machine.execHostLoad rq rcb image sig plan s
  | .hostUnload rq handle ents => Sys2Proof.Machine.execHostUnload rq handle ents s
  | .hostLaunch rq rcb block => Sys2Proof.Machine.execHostLaunch rq rcb block s
  | .hostAlloc rq rcb args va ents => Sys2Proof.Machine.execHostAlloc rq rcb args va ents s
  | .hostCopy rq rcb args => Sys2Proof.Machine.execHostCopy rq rcb args s
  | .hostAttest rq nonce => Sys2Proof.Machine.execHostAttest rq nonce s
  | .hostEvents rq capacity => Sys2Proof.Machine.execHostEvents rq capacity s
  | .hostFree rq rcb va bytes ents => Sys2Proof.Machine.execHostFree rq rcb va bytes ents s
  | .hostUnknownRequest rq code => Sys2Proof.Machine.execHostUnknownRequest rq code s
  | .decroTransferArrive link addr data => Sys2Proof.Machine.execDecroTransferArrive link addr data s
  | .decroLinkLoss link => Sys2Proof.Machine.execDecroLinkLoss link s
  | .loadComplete handle => Sys2Proof.Machine.execLoadComplete handle s
  | .regionTeardown rcb => Sys2Proof.Machine.execRegionTeardown rcb s
  | .runEnd rcb => Sys2Proof.Machine.execRunEnd rcb s
  | .pageRetire old new ents => Sys2Proof.Machine.execPageRetire old new ents s
  | .cxlLinkUp port => Sys2Proof.Machine.execCxlLinkUp port s
  | .rowBinning chan row cls => Sys2Proof.Machine.execRowBinning chan row cls s
  | .bloomFilterLoad chan rows32 rows64 => Sys2Proof.Machine.execBloomFilterLoad chan rows32 rows64 s

end Sys2Proof.Machine
end

