-- ==== Sys2Proof/Machine/Outside.lean ====
section
/-! DEFINITION. What reaches the part from outside, or Trestle does, that no row of the opcode table names: the sensors (R379,
R380), check codes (R167), other writers of an expander (R177), client rings (R390), region templates (R46), Decro Link (R392). -/

namespace Sys2Proof.Machine

/-- A sector's check code is one that need not be that of its bytes (R167). -/
def State.upset (s : State) (sector : Nat) (code : BitVec 16) : State :=
  if inMap s.plat.win.toNat (32 * sector) then { s with codes := (sector, code) :: s.codes.filter (fun c => c.1 != sector) } else s

/-- Another device writes bytes of an expander: a line that the L2 holds keeps the bytes it was filled with (R177). -/
def State.foreignWrite (s : State) (addr : Nat) (data : List Byte) : State :=
  if !(inCxl addr && inCxl (addr + data.length - 1)) then s
  else
    let held := (List.range data.length).filter (fun i =>
      s.l2.any (fun l => l.line == (addr + i) / 256) && !s.stale.any (fun c => c.1 == addr + i))
    { s with
      mem := cellsWrite s.mem addr data
      stale := held.map (fun i => (addr + i, cellRead s.mem (addr + i))) ++ s.stale }

/-- Something from outside happens. -/
def State.outside (s : State) (o : Outside) : State :=
  match o with
  | .sense temp rate => s.sense temp rate
  | .purge => s.purge
  | .upset sector code => s.upset sector code
  | .foreign addr data => s.foreignWrite addr data
  | .slot client i entry => s.writeSlot client.toNat i.toNat entry
  | .bell client count => s.ringBell client.toNat count
  | .region image template parent addr => s.makeRegion image template parent addr
  | .partId id => s.modPlat (fun p => { p with partId := id })
  | .send link addr => s.sendDecro link addr
  | .sent link => s.sentDecro link

end Sys2Proof.Machine
end

