-- ==== Sys2Proof/Machine/Step.lean ====
section
/-! DEFINITION. One step of the part: the next choice of the agenda, else in turn an issuer's next group by R83 and an event that
the state calls for, else time alone (log entry 1). And how a program comes to run (log entry 15). -/

namespace Sys2Proof.Machine

/-- The first split of a list that issues. A split other than the one picked is passed over in a clock in which an interlock or
a busy pipe holds it (R82; log entry 111). -/
noncomputable def issueFirst (s : State) (pick : Option (TKey × BitVec 2)) : List (TKey × BitVec 2) → Option Out
  | [] => none
  | (k, sp) :: rest =>
    if pick != some (k, sp) && Config.interlocked s.stamp k.wg k.ix sp.toNat then issueFirst s pick rest
    else
      match issueSplit exec s k sp with
      | some o => some o
      | none => issueFirst s pick rest

/-- An issuer issues the next group of one split (R83). -/
noncomputable def issueFrom (s : State) (p : Nat) (pick : Option (TKey × BitVec 2)) : Option Out :=
  issueFirst s pick (issueOrder s p)

/-- One of the issuers issues a group, each in its turn. -/
noncomputable def issueAny (s : State) : Option Out :=
  let ps := (s.allThreads.map Thread.issuer).dedup
  if s.plat.computes then (ps.rotate (s.stamp / 2 % ps.length)).findSome? (fun p => issueFrom s p none) else none

/-- An event that the state calls for comes about. -/
noncomputable def eventAny (s : State) : Option Out := (autoEvent s).map (fun i => exec i s)

/-- One step of the part. -/
noncomputable def step (s : State) : Host.Outcome State Fault Refusal :=
  let s := s.tick
  match s.agenda with
  | .event i :: rest => if Instr.comes i then exec i { s with agenda := rest } else .next { s with agenda := rest }
  | .outside o :: rest => .next (({ s with agenda := rest } : State).outside o)
  | .issue k sp :: rest =>
    let s := { s with agenda := rest }
    match s.thread? k with
    | some t => if s.plat.computes then (issueFrom s t.issuer (some (k, sp))).getD (.next s) else .next s
    | none => .next s
  | [] =>
    (if s.stamp % 2 = 1 then (issueAny s).or (eventAny s) else (eventAny s).or (issueAny s)).getD (.next s)

/-- The part with the word stored where the next step fetches its instruction: the part runs in band B0, and one thread
stands at word 0 of packet 0 of the placed code (log entry 15). -/
def State.withFetchWord (s : State) (nbits w : Nat) : State :=
  let w := w % 2 ^ nbits % 2 ^ 32
  { s with
    agenda := [.issue (placedThread w).key 0]
    mem := placeCode s.mem w
    thr := placedThread w
    live := true
    threads := []
    plat := { s.plat with flask := .run, band := 0 } }

end Sys2Proof.Machine
end

