-- ==== Sys2Proof/Safety.lean ====
section
/-! DEFINITION. What counts as a safe state and a safe step, and how a word's effect is seen, in the terms the claims
use. -/

namespace Sys2Proof

open Machine

/-- The memories of a state are in canonical form: the DRAM and every cluster's CLM. -/
def Safe (s : State) : Prop := Memory.wf s.mem = true ∧ ∀ c ∈ s.clusters, Memory.wf c.clm = true

/-- An outcome is a next state. -/
def Ran (o : Out) : Prop := ∃ t, o = .next t

/-- An outcome is a next state that satisfies a property. -/
def RanTo (o : Out) (p : State → Prop) : Prop := ∃ t, o = .next t ∧ p t

/-! ## What is seen of the thread in focus -/

/-- A scalar register as the issuing split's next word reads it. -/
def seesS (s : State) (r : Nat) : Word := s.thr.rdS s.ctx.sp s.stamp r

/-- A lane of a vector register as the thread's next word reads it. -/
def seesV (s : State) (r i : Nat) : Word := laneOf (s.thr.rdV s.stamp r) i

/-- The flags of a lane. -/
def seesFl (s : State) (i : Nat) : Fl := s.thr.fl[i]?.getD 0

/-- The draw index of a lane (R117). -/
def seesDraw (s : State) (i : Nat) : BitVec 64 := s.thr.draw[i]?.getD 0

/-- The tag of a vector register. -/
def seesTag (s : State) (r : Nat) : Tag := s.thr.tag s.stamp r

/-! ## Effects

Each effect says what a word leaves (`t`) of the state it met (`s`): what it writes, and that all else is as before. A
register that a last-read mark frees reads its value or zero afterwards (R81). -/

/-- What a scalar register holds once `x` is written to it: s63 reads zero, m0 to m2 of a wave take `x` within the split's
owned set (R24, R55). -/
def stored (s : State) (r : Nat) (x : Word) : Word :=
  if r = 63 then 0
  else if 60 ≤ r ∧ s.thr.mcc = false then x &&& maskWord ((s.split.map Split.owned).getD 0) (r - 60)
  else x

/-- The scalar register that a last-read mark on sA frees in a word that writes sD (R81). -/
def freesS (l : Bool) (a d : Reg) : Option Nat := if l = true ∧ a ≠ d ∧ a.toNat < 60 then some a.toNat else none

/-- The vector register that a last-read mark on vA frees in a word that writes vD (R81). -/
def freesV (l : Bool) (a d : Reg) : Option Nat := if l = true ∧ a ≠ d then some a.toNat else none

/-- The vector register that a last-read mark on vA frees in a word that writes no vector register (R81). -/
def freesV0 (l : Bool) (a : Reg) : Option Nat := if l = true then some a.toNat else none

/-- The scalar registers given by `w` are written; `fs` and `fv` name the registers freed. A write of m0 to m2 changes the
current mask of the issuing split alone (R55). -/
structure ScalarsTo (s t : State) (w : Nat → Option Word) (fs fv : Option Nat) : Prop where
  only : t = { s with thr := { s.thr with s := t.thr.s, srel := t.thr.srel, vrel := t.thr.vrel, level := t.thr.level } }
  regs : ∀ r, r < 64 → fs ≠ some r → seesS t r = match w r with
    | some x => stored s r x
    | none => seesS s r
  freed : ∀ r, fs = some r → seesS t r = seesS s r ∨ seesS t r = 0
  lanes : ∀ r i, fv ≠ some r → seesV t r i = seesV s r i
  lanesFreed : ∀ r i, fv = some r → seesV t r i = seesV s r i ∨ seesV t r i = 0
  level : s.thr.mcc = true ∨ w 60 = none ∧ w 61 = none ∧ w 62 = none → t.thr.level = s.thr.level
  mask : t.thr.level = s.thr.level ∨
    ∃ e c, s.split = some e ∧ t.thr.level = s.thr.level.setSplit s.ctx.sp (some { e with cur := c })

/-- sD := x. -/
def ScalarTo (s t : State) (d a : Reg) (l : Bool) (x : Word) : Prop :=
  ScalarsTo s t (fun r => if r = d.toNat then some x else none) (freesS l a d) none

/-- The triple sD to sD+2 := m (R24). -/
def TripleTo (s t : State) (d : Reg) (m : Mask) (fv : Option Nat) : Prop :=
  ScalarsTo s t (fun r => if d.toNat ≤ r ∧ r < d.toNat + 3 then some (maskWord m (r - d.toNat)) else none) none fv

/-- The vector registers given by `w` are written in the active lanes, with the tag given when every lane is active, else G;
in each active lane the flags `fl` are raised and `dr` draws are taken; `fv` is freed. The inactive lanes keep what they
held, and a word with no active lane changes no lane (R25, R93, R96, R98). -/
structure LanesTo (s t : State) (w : Nat → Option (Nat → Word)) (tag : Tag) (fv : Option Nat) (fl : Nat → Fl)
    (dr : Nat → Nat) : Prop where
  only : t = { s with thr := { s.thr with
    v := t.thr.v, vtag := t.thr.vtag, vrel := t.thr.vrel, fl := t.thr.fl, draw := t.thr.draw } }
  regs : ∀ r i, r < 64 → i < 96 → fv ≠ some r → seesV t r i = match w r with
    | some f => if s.active.getLsbD i then f i else seesV s r i
    | none => seesV s r i
  freed : ∀ r i, fv = some r → seesV t r i = seesV s r i ∨ seesV t r i = 0
  tags : ∀ r, r < 64 → fv ≠ some r → seesTag t r = match w r with
    | some _ => if s.active = allLanes then tag else if s.active = 0 then seesTag s r else .g
    | none => seesTag s r
  tagFreed : ∀ r, fv = some r → seesTag t r = seesTag s r ∨ seesTag t r = .u
  flags : ∀ i, i < 96 → seesFl t i = if s.active.getLsbD i then seesFl s i ||| fl i else seesFl s i
  draws : ∀ i, i < 96 → seesDraw t i =
    if s.active.getLsbD i then seesDraw s i + BitVec.ofNat 64 (dr i) else seesDraw s i

/-- vD := f in the active lanes, raising no flag. -/
def VectorTo (s t : State) (d a : Reg) (l : Bool) (f : Nat → Word) (tag : Tag) : Prop :=
  LanesTo s t (fun r => if r = d.toNat then some f else none) tag (freesV l a d) (fun _ => 0) (fun _ => 0)

/-- vD := the results of a floating word in the active lanes, with their flags and draws. -/
def FloatTo (s t : State) (d a : Reg) (l : Bool) (f : Nat → LaneRes) (tag : Tag) : Prop :=
  LanesTo s t (fun r => if r = d.toNat then some (fun i => (f i).v) else none) tag (freesV l a d) (fun i => (f i).fl)
    (fun i => (f i).draws)

/-- A word that reads vA and vB and writes f of their lanes to vD, raising no flag (R97). -/
def RunsV2 (s : State) (i : Instr) (d a b : Reg) (l : Bool) (tag : Tag) (f : Word → Word → Word) : Prop :=
  RanTo (exec i s) (VectorTo s · d a l (fun n => f (laneOf (s.rdV a) n) (laneOf (s.rdV b) n)) tag)

/-- A word that reads vA alone. -/
def RunsV1 (s : State) (i : Instr) (d a : Reg) (l : Bool) (tag : Tag) (f : Word → Word) : Prop :=
  RanTo (exec i s) (VectorTo s · d a l (fun n => f (laneOf (s.rdV a) n)) tag)

/-- A word that reads vA, vB and the old vD. -/
def RunsV3 (s : State) (i : Instr) (d a b : Reg) (l : Bool) (tag : Tag) (f : Word → Word → Word → Word) : Prop :=
  RanTo (exec i s)
    (VectorTo s · d a l (fun n => f (laneOf (s.rdV a) n) (laneOf (s.rdV b) n) (laneOf (s.rdV d) n)) tag)

/-- A floating word of vA, with the lane's first draw (R93). -/
def RunsF1 (s : State) (i : Instr) (d a : Reg) (l : Bool) (f : BitVec 16 → Word → FRes) : Prop :=
  RanTo (exec i s) (FloatTo s · d a l (fun n => (f (s.draw16 n 0) (laneOf (s.rdV a) n)).lane) (s.tagU [a]))

/-- A floating word of vA and vB. -/
def RunsF2 (s : State) (i : Instr) (d a b : Reg) (l : Bool) (f : BitVec 16 → Word → Word → FRes) : Prop :=
  RanTo (exec i s)
    (FloatTo s · d a l (fun n => (f (s.draw16 n 0) (laneOf (s.rdV a) n) (laneOf (s.rdV b) n)).lane) (s.tagU [a, b]))

/-- A floating word of vA, vB and the old vD. -/
def RunsF3 (s : State) (i : Instr) (d a b : Reg) (l : Bool) (f : BitVec 16 → Word → Word → Word → FRes) : Prop :=
  RanTo (exec i s)
    (FloatTo s · d a l
      (fun n => (f (s.draw16 n 0) (laneOf (s.rdV a) n) (laneOf (s.rdV b) n) (laneOf (s.rdV d) n)).lane)
      (s.tagU [a, b, d]))

/-- A word that writes f of sA and sB to sD (R57). -/
def RunsS2 (s : State) (i : Instr) (d a b : Reg) (l : Bool) (f : Word → Word → Word) : Prop :=
  RanTo (exec i s) (ScalarTo s · d a l (f (s.rdS a) (s.rdS b)))

/-- A word that reads sA alone. -/
def RunsS1 (s : State) (i : Instr) (d a : Reg) (l : Bool) (f : Word → Word) : Prop :=
  RanTo (exec i s) (ScalarTo s · d a l (f (s.rdS a)))

/-- A comparison: bit `n` of the triple at sD is set where lane `n` is active and the condition holds on vA and vB; with
`fl`, flags are raised (R102). -/
def RunsCmp (s : State) (i : Instr) (d a b : Reg) (l : Bool) (p : Word → Word → Bool) : Prop :=
  RanTo (exec i s) (TripleTo s · d
    (maskOf (fun n => s.active.getLsbD n && p (laneOf (s.rdV a) n) (laneOf (s.rdV b) n))) (freesV0 l a))

/-- The active lanes up to and including lane `n`, or before it. -/
def lanesUpTo (s : State) (n : Nat) : List Nat := (lanesIn s.active).filter (· ≤ n)
def lanesBefore (s : State) (n : Nat) : List Nat := (lanesIn s.active).filter (· < n)

/-- A combination of words from the first onward; 0 of none. -/
def combined (f : Word → Word → Word) : List Word → Word
  | [] => 0
  | x :: xs => xs.foldl f x

/-- FP32 sums from the first word onward, with the flags raised so far (R126). -/
def summed (mode : RMode) : List Word → Word × Fl
  | [] => (0, flNone)
  | x :: xs => xs.foldl (fun a y => ((fadd .fp32 mode 0 a.1 y).v, a.2 ||| (fadd .fp32 mode 0 a.1 y).fl)) (x, flNone)

/-- x(k, i) of R128: the tree over the 32 lanes of a beat. -/
def treeNode (mode : RMode) (leaf : Nat → Option Word) : Nat → Nat → Option Word × Fl
  | 0, i => (leaf i, flNone)
  | k + 1, i => combF mode (treeNode mode leaf k (2 * i)) (treeNode mode leaf k (2 * i + 1))

/-- What a data-movement word reads for a lane from source lane `i` (R120). -/
def movedLane (s : State) (a : Reg) (i : Nat) : Word :=
  if i < 96 ∧ s.active.getLsbD i = true then laneOf (s.rdV a) i else 0

/-- A data-movement word: lane `n` takes the value of lane `src n` (R123). -/
def RunsMove (s : State) (i : Instr) (d a : Reg) (l : Bool) (src : Nat → Nat) : Prop :=
  RanTo (exec i s) (VectorTo s · d a l (fun n => movedLane s a (src n)) .g)

/-! ## Where a split goes -/

/-- The issuing split replaced. -/
def withSplit (s : State) (e : Split) : State :=
  { s with thr := { s.thr with level := s.thr.level.setSplit s.ctx.sp (some e) } }

/-- The split `e`, to go on at word 0 of packet `p` (R18). -/
def sentTo (s : State) (e : Split) (p : Word) : Split :=
  { e with next := ⟨p, 0⟩, fell := false, xfer := some ⟨s.ctx.pc, s.ctx.gslot⟩ }

/-- P + offset, the offset extended by a CONST (R17, R23). -/
def reach (s : State) {n : Nat} (o : BitVec n) : Word :=
  match s.ctx.ext with
  | some p => s.ctx.pc + BitVec.ofInt 32 (p ++ o).toInt
  | none => s.ctx.pc + BitVec.ofInt 32 o.toInt

/-- The split waits at its word. -/
def waitsAt (s : State) (e : Split) (w : Wait) : State :=
  { withSplit s { e with wait := w } with ctx := { s.ctx with out := .stall } }

/-- The word's split has left its level. -/
def gone (s : State) : State := { s with ctx := { s.ctx with out := .left } }

/-- Trap mode entered for split `sp` with the trap `x` (R364): the ctl.e registers name the trap, the level is held aside with
the split's entry at its resume point, and one split stands at HANDLER on the trapping split's current mask. -/
structure Entered (s t : State) (sp : BitVec 2) (x : Trap) : Prop where
  only : t = { s with
    thr := { s.thr with base := t.thr.base, level := t.thr.level, ctl := t.thr.ctl }
    flights := t.flights, rq := t.rq, ctx := { s.ctx with sp := 0, out := .trap } }
  regs : t.thr.ctl = { s.thr.ctl with
    ecause := BitVec.ofNat 16 x.cause, eclass := BitVec.ofNat 8 x.cls, epc := x.pc, replay := x.replay, oslot := x.oslot
    rslot := x.slot, eaddr := x.addr, elanes := x.lanes }
  level : ∃ h e, s.thr.kern.handler = some h ∧ s.thr.level.split? sp = some e ∧
    t.thr.level = Level.start { Split.start h e.cur with last := s.stamp, since := s.clock } ∧
    ∃ b u, t.thr.base = some (b, sp) ∧ b.split? sp = some u ∧ u.at_ = ⟨x.pc, x.slot⟩ ∧ u.cur = e.cur ∧ u.owned = e.owned ∧
      u.frame = e.frame ∧ b.stack = s.thr.level.stack ∧ b.loops = s.thr.level.loops ∧
      ∀ i, i ≠ sp → b.split? i = s.thr.level.split? i
  flights : ∀ f, f ∈ t.flights ↔ ∃ g ∈ s.flights, f = if g.key = s.thr.key then { g with inBase := true } else g
  queue : ∀ f, f ∈ t.rq ↔ ∃ g ∈ s.rq, f = if g.key = s.thr.key then { g with inBase := true } else g

/-- The thread in focus ends by a trap (R367): it runs no more, and Trestle's event queue holds its record. -/
def Ended (s t : State) (cls cause : Nat) (pc : Word) (addr : BitVec 64) : Prop :=
  t.live = false ∧ t.threads.map Thread.key = s.threads.map Thread.key ∧ (∀ e ∈ t.rq, e.key ≠ s.thr.key) ∧
    s.waveRecord false cls cause pc addr ∈ t.events

/-- A word that raises a trap of a class and cause: RTE resumes at its group (R362, R363). -/
def TrapsAtGroup (s : State) (i : Instr) (cls cause : Nat) (addr : BitVec 64 := 0) (lanes : Mask := s.active) : Prop :=
  RanTo (exec i s) (Entered s · s.ctx.sp
    { cls := cls, cause := cause, pc := s.ctx.pc, slot := s.ctx.gslot, oslot := s.ctx.slot, replay := false, addr := addr, lanes := lanes })

/-- The thread in focus is a wave with a handler, outside trap mode, and its split `e` issues. -/
def CanTrap (s : State) (e : Split) : Prop :=
  s.thr.mcc = false ∧ s.thr.base = none ∧ s.thr.kern.handler ≠ none ∧ s.split = some e

/-! ## Accesses to memory -/

/-- The bytes of two runs do not meet, or meet no range lock that forbids the access (R187). -/
def lockFree (s : State) (clm writes : Bool) (lo n : Nat) : Prop :=
  ∀ x ∈ (s.cluster s.myCluster).locks, x.2.clm = clm → (x.2.dest = true ∨ writes = true) → x.2.hi < lo ∨ lo + n ≤ x.2.lo

/-- The lanes' addresses `va`, on the pages `pg`, pass the checks of R135 and are mapped (R158), nothing of R162 holds them
back, and the word needs no Ladle (R341). A word that is performed once has the one lane 96 (log entry 40). -/
structure Clear (s : State) (k : Acc) (align size : Nat) (writes : Bool) (lanes : List Nat) (va : Nat → Nat)
    (pg : Nat → Page) : Prop where
  aligned : ∀ l ∈ lanes, va l % align = 0
  mapped : ∀ l ∈ lanes, va l < 2 ^ 57 ∧ s.waveWalk s.thr.env.ptroot (va l) = .page (pg l)
  permitted : ∀ l ∈ lanes, (pg l).permits k = true
  unlocked : ∀ l ∈ lanes, lockFree s false writes (va l) size
  unheld : ∀ l ∈ lanes, ∀ e ∈ s.rq, e.core = s.port → e.page ≠ blockOf (va l)
  fresh : s.ctx.part = none
  shared : writes = true → s.thr.env.deterministic = true → s.thr.mcc = false → ∀ l ∈ lanes, (pg l).ds = false

/-- The address of a lane of a vector form (R133), and of a scalar form. -/
def vecVa (s : State) (a : Reg) (p : BitVec 5) (l : Nat) : Nat :=
  ((s.rdSn (2 * p.toNat + 1) ++ s.rdSn (2 * p.toNat) : BitVec 64) + (laneOf (s.rdV a) l).signExtend 64).toNat
def scaVa (s : State) (a : Reg) (p : BitVec 5) (_ : Nat) : Nat :=
  ((s.rdSn (2 * p.toNat + 1) ++ s.rdSn (2 * p.toNat) : BitVec 64) + (s.rdS a).signExtend 64).toNat

/-- The accesses of the lanes, with the data of each; the lane of a word performed once is numbered 0. -/
def requests (s : State) (lanes : List Nat) (va : Nat → Nat) (pg : Nat → Page) (data : Nat → List Word) : List LaneAcc :=
  lanes.map (fun l => ⟨l % 96, va l, (pg l).pa, pg l, data l, none, none, s.dueAt (pg l).type (pg l).pa⟩)

/-- The word is in flight with these requests; a word with no lane is not. -/
def inFlight (s : State) (work : Work) (cls : Nat) (scalar : Bool) (d : Reg) (count : Nat) (h : BitVec 2)
    (todo : List LaneAcc) : State :=
  if todo = [] then s
  else { s with
    nextId := s.nextId + 1
    flights := s.flights ++ [{ s.newFlight work cls scalar d.toNat count h todo [] with id := s.nextId }] }

/-- Byte `j` of the data of lane `l` in the registers from `d`. -/
def dataByte (s : State) (d : Reg) (scalar : Bool) (l j : Nat) : Byte :=
  (if scalar then s.rdSn (d.toNat + j / 4) else laneOf (s.rdVn (d.toNat + j / 4)) l).extractLsb' (8 * (j % 4)) 8

/-- Bytes `pa` to `pa + bs.length − 1` of memory are `bs`, every other byte is as before. -/
def BytesWritten (m m' : List Host.Cell) (pa : Nat) (bs : List Byte) : Prop :=
  ∀ x, cellRead m' x = if pa ≤ x ∧ x < pa + bs.length then bs[x - pa]?.getD 0 else cellRead m x

/-- The bytes that a load finds in a cache of its core or cluster, if any (R138, R150, R152, R171). -/
def heldCopy (s : State) (f : Flight) (a : LaneAcc) (n : Nat) (evict : Bool) : Option (List Byte) :=
  let port := s.portOf f.key
  let c := s.cluster (portCluster port)
  if a.page.uncached then none
  else
    match (if f.scalar && decide (port < 640) && !evict then (s.coreOf port).scalar.find? (fun l => l.line == a.pa / 64) else none) with
    | some l => some ((l.bytes.drop (a.pa % 64)).take n)
    | none => if c.hasL1 && !evict then c.l1Read a.pa n else none

/-- The registers that a load writes from its bytes (R134). -/
def loaded (n : Nat) (signed : Bool) (bs : List Byte) (r : Nat) : Word :=
  let x := natOfBytes ((bs.drop (4 * r)).take 4)
  if n = 1 ∧ signed then (BitVec.ofNat 8 x).signExtend 32
  else if n = 2 ∧ signed then (BitVec.ofNat 16 x).signExtend 32
  else BitVec.ofNat 32 x

/-- The flight may take its lane `a` now: nothing of its own thread stands before it, and the memory behind its page answers
(R151, R164, R193). -/
def Ready (s : State) (f : Flight) (a : LaneAcc) (read : Bool) : Prop :=
  a ∈ f.todo ∧ a.lane < 96 ∧ (∀ b ∈ f.todo, b.lane = a.lane → b = a) ∧ a.wait = none ∧ a.gated = none ∧
    s.behind f a = false ∧ s.reaches a.page f.work.size read = true

/-- The lanes' bytes enter the write queue of the word's core, as much as its entries hold, the rest held; of two lanes that
write one byte the higher's stays (R137, R151). -/
def Queued (s t : State) (n : Nat) (lanes : List Nat) (pg : Nat → Page) (data : Nat → Nat → Byte) : Prop :=
  ∃ (es : List WqEntry) (free : Nat), t.wq = s.wq ++ es.take free ∧ t.hold = s.hold ++ es.drop free ∧
    free = (if ∃ e ∈ s.hold, e.core = s.port then 0 else 64 - s.wq.countP (fun e => e.core == s.port)) ∧
    (∀ x ∈ es, x.core = s.port ∧ x.key = s.thr.key ∧ x.op = s.nextId ∧ x.stage = .queued ∧ x.stuck = false ∧
      (x.whole = true ↔ n = 64) ∧ ∀ y ∈ x.bytes, y.1 < 32) ∧
    ∀ addr b, (∃ x ∈ es, ∃ o, (o, b) ∈ x.bytes ∧ addr = 32 * x.sector + o) ↔
      ∃ l ∈ lanes, ∃ j, j < n ∧ addr = (pg l).pa + j ∧ b = data l j ∧
        ∀ m ∈ lanes, l < m → addr < (pg m).pa ∨ (pg m).pa + n ≤ addr

/-! ## Order -/

/-- The split parked at a word, behind an earlier word of its group that parked. -/
def parkedAt (e : Split) (w : ParkedWord) : Split :=
  if e.parked = none then { e with parked := some w } else { e with also := some w }

/-- The split parks at an ordering word, which waits for no fault record; `ordering` says that it holds back the memory words
of other splits, as a fence and a barrier word in its release or acquire part do (R174). -/
def ParksInOrder (s : State) (e : Split) (i : Instr) (ordering : Bool := true) : Prop :=
  RanTo (exec i s) (fun t => ∃ w, t.split = some (parkedAt e w) ∧ w.at_ = ⟨s.ctx.pc, s.ctx.slot⟩ ∧
    w.order = true ∧ w.ordering = ordering ∧ w.waits = [] ∧ t.ctx = { s.ctx with out := .stall } ∧
    t = { s with thr := { s.thr with level := t.thr.level }, nextId := t.nextId, ctx := t.ctx } ∧
    ∀ k, k ≠ s.ctx.sp → t.thr.level.split? k = s.thr.level.split? k)

/-- The home of word `i` of a 64-byte line has taken a store to it that it has not acknowledged (R170). -/
def Unsettled (s : State) (line i : Nat) : Prop :=
  ∃ x ∈ s.wq, x.stage ≠ .queued ∧ ∃ y ∈ x.bytes, y.1 < 32 ∧ 16 * line + i = 8 * x.sector + y.1 / 4

/-- What ACQ does (R175): the unowned words of the cluster's L1 are no longer valid, the core's scalar cache is empty, and
nothing else changes. -/
def Acquired (s t : State) : Prop :=
  t = { s with clusters := t.clusters, cores := t.cores } ∧
  (∀ c, c ≠ s.myCluster → t.cluster c = s.cluster c) ∧
  (∃ m : Nat → BitVec 16, (∀ line i, i < 16 → ((m line).getLsbD i = true ↔ Unsettled s line i)) ∧
    t.cluster s.myCluster = { s.cluster s.myCluster with
      l1 := (s.cluster s.myCluster).l1.map (fun l => { l with valid := l.valid &&& l.owned &&& ~~~m l.line }) }) ∧
  (s.thr.mcc = false → (t.coreOf s.thr.core).scalar = [])

/-- A word whose results are known is in flight: `count` registers from `d`, each lane's values. -/
def Answers (s : State) (i : Instr) (cls : Nat) (scalar : Bool) (d : Reg) (count : Nat) (vals : List (Nat × Nat × Word))
    (rest : State → State → Prop) : Prop :=
  RanTo (exec i s) (fun t => ∃ u f, rest s u ∧ t = { u with nextId := u.nextId + 1, flights := u.flights ++ [f] } ∧
    f.id = u.nextId ∧ f.key = s.thr.key ∧ f.splits = (1 : BitVec 4) <<< s.ctx.sp.toNat ∧ f.cls = cls ∧ f.work = .result ∧
    f.scalar = scalar ∧ f.dst = d.toNat ∧ f.count = count ∧ f.todo = [] ∧ f.ready = vals ∧ f.bad = [])

/-- Nothing else changes. -/
def Alone (s u : State) : Prop := u = s

/-- Change nothing but one fault record that is answered, and what waited for it. -/
def AnsweredRec (s t : State) (rec : Nat) : Prop :=
  t.faults = s.faults.filter (fun f => f.id != rec) ∧ t.thr.s = s.thr.s ∧ t.thr.v = s.thr.v ∧ t.thr.fl = s.thr.fl

/-! ## Issue -/

/-- The state in which the one word of a group is executed: the issuing split is set to go on at the next word, and no YIELD 0
waits for it any more (R19, R76); the word's long-latency result is noted (R77). -/
def issuing (s : State) (sp : BitVec 2) (e : Split) (i : Instr) : State :=
  let next : Place := ⟨e.at_.pc, BitVec.ofNat 2 (e.at_.slot.toNat + 1)⟩
  let s := (s.enterCtx sp e.at_ next none).yieldMoved s.thr.key sp
  { s with
    thr := { s.thr with level := s.thr.level.setSplit sp (some { e with next := next, fell := true, xfer := none }) }
    ctx := { s.ctx with owed := owedBy i } }

/-- Split `e` of the thread in focus stands at a group of one word, `w`, which decodes to `i` and which the thread runs, and
nothing keeps it from issuing (R19, R29, R80, R82, R174). -/
structure Issues (s : State) (sp : BitVec 2) (e : Split) (w : Word) (k : Bool) (i : Instr) : Prop where
  split : s.thr.level.split? sp = some e
  runs : s.running s.thr = true
  noTrap : s.thr.level.firstPending = none
  ready : e.due = none ∧ e.parked = none ∧ e.replay = none ∧ e.wait = .none ∧ e.mark = false
  noFar : s.farWait s.thr.key sp = false
  inPacket : s.atPacketEnd s.thr e.at_ = false
  fetch : s.fetch s.thr e.at_ = .word w
  alone : w.getLsbD 31 = false
  decodes : decodeWord w = .word false k i
  payload : i.isConst = false
  allowed : groupBad s.thr [⟨e.at_.slot.toNat, (w.extractLsb' 24 6).toNat, .word false k i, w⟩] = none
  unheld : s.groupHeld sp [⟨e.at_.slot.toNat, (w.extractLsb' 24 6).toNat, .word false k i, w⟩] = false
  checked : s.thr.env.hazards = true → hazardOf (issuing s sp e i) sp i = none

/-- The word executed as one of a group: it reads the registers as they were when the group issued (R19), and the thread's
progress has risen (R83). -/
def grouped (s : State) (i : Instr) : State :=
  { s with
    thr := { s.thr with progress := if i = .nop then s.thr.progress else s.thr.progress + 1 }
    ctx := { s.ctx with grp := some s.thr, vdst := runBits (uses i).vw, sdst := runBits (uses i).sw } }

/-- What the issue of the group adds to what its word leaves, `t`: earlier results of the split count as earlier (R362), the
split keeps its marker and the time of its issue (R78), and goes on (R18). -/
def issued (s : State) (sp : BitVec 2) (k : Bool) (t : State) : State :=
  let fs := t.flights.map (fun (f : Flight) =>
    if f.id < s.nextId ∧ f.key = s.thr.key ∧ f.inBase = false ∧ f.splits.getLsbD sp.toNat = true then { f with later := true } else f)
  let t : State := { t with flights := fs, ctx := { t.ctx with grp := none, ext := none, vdst := 0, sdst := 0 } }
  let t : State := if t.ctx.out = .left ∨ t.ctx.out = .trap then t
    else (t.markNew s.thr.level k).setSplit (fun e => { e with mark := e.mark || k, last := s.stamp, since := s.clock, promoted := false })
  t.goOn sp

/-! ## Control blocks and the units that words start -/

/-- A word finds its control block (R394): `n` bytes at `va` on the page `pg`, which it may read, none of them poisoned, no
earlier store of its thread before them. -/
def Reads (s : State) (va align n : Nat) (pg : Page) : Prop :=
  Clear s .load align n false [96] (fun _ => va) (fun _ => pg) ∧ s.storesAhead va pg.pa n = false ∧ s.poisoned pg.pa n = false

/-- A word answers one scalar register: a code, or what it asks for. -/
def Codes (s : State) (i : Instr) (cls : Nat) (d : Reg) (x : Word) (rest : State → State → Prop := Alone) : Prop :=
  Answers s i cls true d 1 [(0, 0, x)] rest

/-- The word does not finish now: its split parks at it, and nothing else changes. -/
def ParksHere (s : State) (e : Split) (i : Instr) : Prop :=
  RanTo (exec i s) (fun t => ∃ w, t.split = some (parkedAt e w) ∧ w.at_ = ⟨s.ctx.pc, s.ctx.slot⟩ ∧
    w.lanes = s.active ∧ w.waits = [] ∧ t.ctx = { s.ctx with out := .stall } ∧
    t = { s with thr := { s.thr with level := t.thr.level }, nextId := t.nextId, ctx := t.ctx } ∧
    ∀ k, k ≠ s.ctx.sp → t.thr.level.split? k = s.thr.level.split? k)

/-- The lines of the core's sampler cache hold what memory holds (R256). -/
def SamplerTrue (s : State) : Prop := ∀ l ∈ (s.coreOf s.thr.core).sampler, l.bytes = s.homeRead (64 * l.line) 64

/-- The texel that a tap reads, of the bytes at its home (R242, R243). -/
def texelOf (s : State) (t : Tex) (raw : Bool) (tb : List Byte) (pg : Nat → Page) : Tap → List Word
  | .border => t.border
  | .texel k i j => t.channels raw tb (s.homeRead (pg (t.addr k i j)).pa t.bytes) i j

/-- A word finds its texture descriptor or scene descriptor at its base (R253): 64 bytes on a normal page, while no line of the
L2 differs from its home (R177). -/
structure Described (s : State) (p : BitVec 5) (pg : Page) : Prop where
  aligned : (s.base p).toNat % 64 = 0
  mapped : (s.base p).toNat < 2 ^ 57 ∧ s.waveWalk s.thr.env.ptroot (s.base p).toNat = .page pg
  normal : pg.type = .normal
  clean : s.poisoned pg.pa 64 = false
  cache : SamplerTrue s
  settled : s.stale = []
  fresh : s.ctx.part = none

/-- The texels of every active lane, and the decoder table when one is used, can be read (R253 step 7). -/
def TapsRead (s : State) (t : Tex) (fn : Nat) (op : Nat → List Word) (pg : Nat → Page) : Prop :=
  ∀ l ∈ lanesIn s.active, ∀ k i j, Tap.texel k i j ∈ t.taps fn (op l) →
    t.addr k i j < 2 ^ 57 ∧ s.waveWalk s.thr.env.ptroot (t.addr k i j) = .page (pg (t.addr k i j)) ∧
      (pg (t.addr k i j)).type = .normal ∧ s.poisoned (pg (t.addr k i j)).pa t.bytes = false

/-- A CLM range of a word: it lies in its workgroup's window, no lock forbids reading it, none of it is poisoned (R143,
R394). -/
def ReadsClm (s : State) (o align n : Nat) : Prop :=
  o % align = 0 ∧ o + n ≤ s.thr.kern.clmBytes ∧ lockFree s true false (s.window s.thr.key.wg + o) n ∧
    (s.cluster s.myCluster).clmPoisoned (s.window s.thr.key.wg + o) n = false

/-! ## The platform and the host -/

/-- The sensors read a temperature and its rate, and band `b` comes into force (R378, R379): PEAK follows it from RUN and
EXCURSION; the times since which the hottest sensor is 3 K below a band's bound, and steady in B0, run on or begin. -/
def sensed (s : State) (b : BitVec 3) (x : BitVec 10) (r : BitVec 16) : State :=
  let low (i : Nat) : Option Nat :=
    if x.toNat + 6 ≤ bandBound (i + 1) then some ((s.plat.lowAt[i]?.join).getD s.time) else none
  { s with plat := { s.plat with
      band := b, temp := x, rate := r, lowAt := #v[low 0, low 1, low 2, low 3]
      steadyAt := if x.toNat ≤ 170 ∧ -10 < r.toInt ∧ r.toInt < 10 then some (s.plat.steadyAt.getD s.time) else none
      zeroAt := if b = 0 then s.time else s.plat.zeroAt
      excPeak := if (s.plat.flask = .run ∨ s.plat.flask = .excursion) ∧ s.plat.excPeak.toNat < b.toNat then b
        else s.plat.excPeak } }

/-- Flask has entered a state (R380, R387): LOCK holds from TRAIN until SERVICE, SERVICE keeps its cause. -/
def flaskIn (s : State) (f : FlaskState) (cause : Byte) : State :=
  { s with plat := { s.plat with
      flask := f, wanted := none, dutyReqs := s.plat.dutyReqs.filter (fun r => r.fn != 5)
      purged := s.plat.purged && f != .purge
      cause := if f = .service then cause else s.plat.cause
      winLock := if f = .train then true else if f = .service then false else s.plat.winLock } }

/-- An excursion has begun (R381): COUNT rises, PEAK follows the band, Trestle has a record. -/
def excursionIn (s : State) : State :=
  let n := if s.plat.excCount = 0xFFFF then 0xFFFF else s.plat.excCount + 1
  { s with
    plat := { s.plat with excCount := n, excPeak := if s.plat.excPeak.toNat < s.plat.band.toNat then s.plat.band else s.plat.excPeak }
    events := s.events ++ [.excursion s.plat.band.toNat n.toNat] }

/-- One memory channel is as given, and nothing else has changed. -/
def ChannelIs (s t : State) (chan : Nat) (c : MemChannel) : Prop :=
  t = { s with plat := { s.plat with channels := t.plat.channels } } ∧ t.plat.channel chan = c ∧
    ∀ o, o ≠ chan → t.plat.channel o = s.plat.channel o

/-- The next entry of a client's ring, which its doorbell has announced, is the request `a` with its tag (R390). -/
def RequestHeard (s : State) (rq : HostReq) (a : Ask) : Prop :=
  (s.client rq.client.toNat).read < (s.client rq.client.toNat).bell ∧ fieldAt (s.nextEntry rq) 0 4 = a.code ∧
    fieldAt (s.nextEntry rq) 4 4 = rq.tag.toNat ∧ a.ok (s.nextEntry rq) = true

/-- The request is heard, no unnamed byte of its arguments is set, and Trestle runs (R389, R390, R393). -/
def RequestServed (s : State) (rq : HostReq) (a : Ask) : Prop :=
  RequestHeard s rq a ∧ a.clean (s.nextEntry rq) = true ∧ s.plat.firmware ≠ none

/-- The client has one response more; what `f` says of its ring changes too, and no other ring. -/
def Replied (s t : State) (rq : HostReq) (r : Response) (f : Client → Client := id) : Prop :=
  t.client rq.client.toNat = (let c := f (s.client rq.client.toNat)
    { c with read := c.read + 1, written := c.written + 1, answers := c.answers ++ [r] }) ∧
  ∀ o, o ≠ rq.client.toNat → t.client o = s.client o

/-- The client has made requests about the region (R390). -/
def noted (rcb : Nat) (c : Client) : Client := { c with regions := if rcb ∈ c.regions then c.regions else c.regions ++ [rcb] }

/-- A response with a status and a value. -/
def plain (rq : HostReq) (status : Word) (value : BitVec 64 := 0) : Response := ⟨rq.tag, status, value, 0, [], []⟩

end Sys2Proof
end

