-- ==== Sys2Proof/Certificates/Slice0/Obligations.lean ====
section
/-! DEFINITION. The statements for the provers. `RanTo o p` says that the outcome is a next state that satisfies `p`; the
effects (`ScalarTo`, `VectorTo`, and so on) say what is written and that all else is as before (Safety.lean). -/

open Sys2Proof Sys2Proof.Machine

/-! ## Decoding and stepping -/

/-- R16, R20, R21, R23, R26, R27, R29: what the decoder makes of some words that the spec writes out, and of words that it
reserves. -/
def Obligations.DecodeSpecWords : Prop :=
  decodeWord 0x8E0C1083 = .word true false (.vfma 3 1 2 false) ∧ decodeWord 0x4E0C1083 = .word false true (.vfma 3 1 2 false) ∧
  decodeWord 0x18142204 = .word false false (.ldw 5 2 4 0) ∧ decodeWord 0x18142244 = .word false false (.ldw 5 2 4 2) ∧
  decodeWord 0x00000000 = .word false false .nop ∧ decodeWord 0x85104345 = .word true false (.saddi 4 4 0x345) ∧
  decodeWord 0x3F000012 = .word false false (.const 0x12) ∧ decodeWord 0x021DFFFD = .word false false (.bru 7 1 0xFFFD) ∧
  decodeWord 0x040C1080 = .word false false (.sadd 3 1 2 false) ∧ decodeWord 0x0C101082 = .word false false (.vclt 4 1 2 false) ∧
  decodeWord 0x0D2020C1 = .word false false (.vdotbs 8 2 3 false) ∧ decodeWord 0x0F184143 = .word false false (.hfma 6 4 5 false) ∧
  decodeWord 0x12202000 = .word false false (.xpack6 8 2 false) ∧ decodeWord 0x13284140 = .word false false (.xqnt4 10 4 5 false) ∧
  decodeWord 0x141C0001 = .word false false (.xrngu 7) ∧ decodeWord 0x1A187305 = .word false false (.lpop 6 7 6) ∧
  decodeWord 0x00000001 = .reject .mustBeZero ∧ decodeWord 0x00F80000 = .reject .unassignedFn ∧
  decodeWord 0x16000000 = .reject .reservedOpcode ∧ decodeWord 0x25000000 = .reject .reservedOpcode ∧
  decodeWord 0x3D000000 = .reject .reservedOpcode ∧ decodeWord 0x07000000 = .word false false (.sori 0 0 0) ∧
  decodeWord 0x7F000012 = .reject .mustBeZero

/-- R16, R20 to R24, R26, R29: a word decodes to an instruction exactly when that instruction's fields are well formed and the
word is its encoding: decoding undoes encoding, and no two words encode one instruction. -/
def Obligations.DecodeAndEncodeAgree : Prop :=
  ∀ (w : Word) (c k : Bool) (i : Instr), decodeWord w = .word c k i ↔
    i.wellFormed = true ∧ (i.isConst = true → k = false) ∧ encode c k i = some w

/-- R18, R19, R82, R83, R380: a step that issues the split which stands first in its issuer's order, at a group of one word, runs
the instruction that the word decodes to: if it traps, the step ends in the trap; else the split goes on as `issued` says. A
step that takes an event runs the event. While compute is held no group issues. Which issuer or event a step takes is the
model's choice (log entry 1). -/
def Obligations.StepRunsDecoded : Prop :=
  (∀ (s u : State) (k : TKey) (y : Thread) (sp : BitVec 2) (rest : List Choice) (e : Split) (w : Word) (m : Bool) (i : Instr),
    s.agenda = .issue k sp :: rest → ({ s.tick with agenda := rest } : State).focus k = some u → u.thr.key = k →
    ({ s.tick with agenda := rest } : State).thread? k = some y →
    (issueOrder { s.tick with agenda := rest } y.issuer).head? = some (k, sp) →
    Issues u sp e w m i →
    let x := issuing u sp e i
    ∀ t, exec i x = .next t →
      (t.ctx.out = .trap → step s = .next t) ∧
      (t.ctx.out ≠ .trap → ∀ r, exec i (grouped x i) = .next r → step s = .next (issued x sp m r))) ∧
  (∀ (s : State) (i : Instr) (rest : List Choice), s.agenda = .event i :: rest → Machine.Instr.comes i = true →
    step s = exec i { s.tick with agenda := rest }) ∧
  (∀ (s : State) (k : TKey) (sp : BitVec 2) (rest : List Choice), s.agenda = .issue k sp :: rest → s.plat.computes = false →
    step s = .next { s.tick with agenda := rest })

/-! ## The whole machine -/

/-- R71, R149, R222, R249, R317, R330, R358, R361, R379, R382, R385, R387, R388, R391: what reset leaves. No thread runs, every
compositing slot, decoder-table slot and platform register holds the value of its Reset column, every CLM bank is a cache, and
the time is zero. A thread's control registers start with the values of their Reset columns, its loop state, its flags and its
draw indices with zero, its vector registers with tag U, and every register it has with zero. -/
def Obligations.ResetLeavesItsValues : Prop :=
  let s := State.reset
  s.allThreads = [] ∧ s.time = 0 ∧ s.dispatches = [] ∧ s.watches = [] ∧
  (∀ k : Fin 64, s.slots[k].tau = 0x3B800000 ∧ s.slots[k].hold = 256 ∧ s.slots[k].lflags = 0) ∧
  (∀ k : Fin 256, s.tables[k].bound = false ∧ s.tables[k].gen = 0) ∧
  (∀ (c : Nat) (b : Fin 32), (s.cluster c).banks[b] = ⟨false, false, 0⟩) ∧
  s.plat.band = 4 ∧ s.plat.rate = 0 ∧ s.plat.excCount = 0 ∧ s.plat.excPeak = 0 ∧ s.plat.flask = .ambient ∧
  s.plat.cause = 0 ∧ s.plat.thresh = 8 ∧ s.plat.period = 24 ∧ s.plat.winLock = false ∧ s.plat.win = 0 ∧ s.plat.duty = 0 ∧
  (∀ p ∈ [s.plat.cxl0, s.plat.cxl1], p.link = false ∧ p.down = false ∧ p.tmo = 15) ∧
  (let c := Ctl.start
   c.round = 0 ∧ c.estdrop = 0 ∧ c.cslot = 0 ∧ c.sstat = 0 ∧ c.hbatch = 0 ∧ c.herr = false ∧ c.hcause = 0 ∧ c.hbad = 0 ∧
   c.shash = 0 ∧ c.ecause = 0 ∧ c.eclass = 0 ∧ c.epc = 0 ∧ c.replay = false ∧ c.oslot = 0 ∧ c.rslot = 0 ∧ c.eaddr = 0 ∧
   c.elanes = 0 ∧ c.shadow = false ∧ c.mtouch = 0 ∧ c.mpois = false ∧ c.mvpois = false) ∧
  (let t := Thread.start
   t.ctl = Ctl.start ∧ t.base = none ∧ t.level.loops.depth = 0 ∧
   (∀ k : Fin 3, t.level.loops.lc[k] = 0 ∧ t.level.loops.start[k] = 0 ∧ t.level.loops.len[k] = 0) ∧
   (∀ r : Fin 64, t.s[r] = 0 ∧ t.vtag[r] = .u ∧ ∀ l : Fin 96, t.v[r][l] = 0) ∧
   ∀ l : Fin 96, t.fl[l] = 0 ∧ t.draw[l] = 0)

/-- The memories at reset are in canonical form. -/
def Obligations.ResetIsSafe : Prop :=
  Safe State.reset

/-- Every step keeps the DRAM and every cluster's CLM in canonical form: addresses strictly rise, and no entry holds what an
unlisted address reads as (log entry 5), so that equal memories are equal data. -/
def Obligations.StepKeepsMemory : Prop :=
  ∀ s t : State, Safe s → step s = .next t → Safe t

/-- Every instruction, event and request has its meaning: nothing is refused, and the machine stops only where a Decro
transfer or a soft error names an address that the map of R387 does not hold, or a CLM byte or cluster that the part does not
have (R14). -/
def Obligations.StopsOnlyAtHoles : Prop :=
  ∀ (i : Instr) (s : State),
    (∃ t, exec i s = .next t) ∨
      exec i s = .fault .physicalHole ∧
        ((∃ a, i = .softError none a ∧ inMap s.plat.win.toNat a = false) ∨
          (∃ c a, i = .softError (some c) a ∧ (160 ≤ c ∨ 2 ^ 21 ≤ a)) ∨
          ∃ x a bs, i = .decroTransferArrive x a bs ∧
            (inMap s.plat.win.toNat a = false ∨ inMap s.plat.win.toNat (a + bs.length - 1) = false))

/-- R24, R83: a word acts on its own thread. Of every other thread it changes at most the progress count, which becomes zero
when a phase of a barrier of its own workgroup completes. -/
def Obligations.WordsKeepOtherThreads : Prop :=
  ∀ (i : Instr) (s t : State), i.isWord = true → exec i s = .next t →
    t.threads.length = s.threads.length ∧
    ∀ (n : Nat) (u v : Thread), s.threads[n]? = some u → t.threads[n]? = some v →
      v = { u with progress := v.progress } ∧
      (v.progress = u.progress ∨
        v.progress = 0 ∧ u.key.wg = s.thr.key.wg ∧ ∃ g h, s.group? u.key.wg = some g ∧ t.group? u.key.wg = some h ∧
          ∃ b : Fin 16, h.bars[b].phase ≠ g.bars[b].phase)

/-! ## Arithmetic -/

/-- R57: what each SALU word writes to sD, and that it changes nothing else. SSEL reads the old sD.
R58: the divisions that have no ordinary quotient.
R59: the immediate forms; with a CONST the immediate is the 32-bit value of its payload and IMM12. -/
def Obligations.ScalarWordsWriteTheirResult : Prop :=
  (∀ (s : State) (d a b n : Reg) (l : Bool),
    RunsS2 s (.sadd d a b l) d a b l (fun x y => x + y) ∧
    RunsS2 s (.ssub d a b l) d a b l (fun x y => x - y) ∧
    RunsS2 s (.smul d a b l) d a b l (fun x y => x * y) ∧
    RunsS2 s (.smulh d a b l) d a b l (fun x y => BitVec.ofInt 32 (x.toInt * y.toInt / 2 ^ 32)) ∧
    RunsS2 s (.sdiv d a b l) d a b l (fun x y => if y = 0 then -1 else BitVec.ofInt 32 (x.toInt.tdiv y.toInt)) ∧
    RunsS2 s (.sdivu d a b l) d a b l (fun x y => if y = 0 then -1 else x / y) ∧
    RunsS2 s (.srem d a b l) d a b l (fun x y => if y = 0 then x else BitVec.ofInt 32 (x.toInt.tmod y.toInt)) ∧
    RunsS2 s (.sand d a b l) d a b l (fun x y => x &&& y) ∧
    RunsS2 s (.sor d a b l) d a b l (fun x y => x ||| y) ∧
    RunsS2 s (.sxor d a b l) d a b l (fun x y => x ^^^ y) ∧
    RunsS2 s (.sshl d a b l) d a b l (fun x y => if 32 ≤ y.toNat then 0 else x <<< y.toNat) ∧
    RunsS2 s (.sshr d a b l) d a b l (fun x y => if 32 ≤ y.toNat then 0 else x >>> y.toNat) ∧
    RunsS2 s (.ssra d a b l) d a b l (fun x y => x.sshiftRight (min 31 y.toNat)) ∧
    (n.toNat < 32 → RunsS1 s (.sshli d a n l) d a l (fun x => x <<< n.toNat)) ∧
    (n.toNat < 32 → RunsS1 s (.sshri d a n l) d a l (fun x => x >>> n.toNat)) ∧
    (n.toNat < 32 → RunsS1 s (.ssrai d a n l) d a l (fun x => x.sshiftRight n.toNat)) ∧
    RunsS2 s (.smin d a b l) d a b l (fun x y => if y.toInt < x.toInt then y else x) ∧
    RunsS2 s (.smax d a b l) d a b l (fun x y => if x.toInt < y.toInt then y else x) ∧
    RunsS2 s (.sceq d a b l) d a b l (fun x y => if x = y then 1 else 0) ∧
    RunsS2 s (.sclt d a b l) d a b l (fun x y => if x.toInt < y.toInt then 1 else 0) ∧
    RunsS2 s (.scltu d a b l) d a b l (fun x y => if x.toNat < y.toNat then 1 else 0) ∧
    RunsS2 s (.ssel d a b l) d a b l (fun x y => if s.rdS d ≠ 0 then x else y) ∧
    (∃ z, z ≤ 32 ∧ (∀ i, i < z → (s.rdS a).getMsbD i = false) ∧ (z < 32 → (s.rdS a).getMsbD z = true) ∧
      RunsS1 s (.sclz d a l) d a l (fun _ => BitVec.ofNat 32 z)) ∧
    RunsS1 s (.spop d a l) d a l (fun x => BitVec.ofNat 32 ((List.range 32).countP (fun i => x.getLsbD i))) ∧
    RunsS1 s (.smov d a l) d a l (fun x => x)) ∧
  (∀ (s : State) (d a b : Reg) (l : Bool),
    (s.rdS b = 0 →
      RunsS2 s (.sdiv d a b l) d a b l (fun _ _ => 0xFFFFFFFF) ∧
      RunsS2 s (.sdivu d a b l) d a b l (fun _ _ => 0xFFFFFFFF) ∧
      RunsS2 s (.srem d a b l) d a b l (fun x _ => x)) ∧
    (s.rdS a = 0x80000000 → s.rdS b = 0xFFFFFFFF →
      RunsS2 s (.sdiv d a b l) d a b l (fun _ _ => 0x80000000) ∧
      RunsS2 s (.sdivu d a b l) d a b l (fun _ _ => 0) ∧
      RunsS2 s (.srem d a b l) d a b l (fun _ _ => 0))) ∧
  (∀ (s : State) (d a : Reg) (i : BitVec 12),
    let signed : Word := match s.ctx.ext with
      | some p => p.setWidth 20 ++ i
      | none => i.signExtend 32
    let unsigned : Word := match s.ctx.ext with
      | some p => p.setWidth 20 ++ i
      | none => i.zeroExtend 32
    RunsS1 s (.saddi d a i) d a false (fun x => x + signed) ∧
    RunsS1 s (.sandi d a i) d a false (fun x => x &&& signed) ∧
    RunsS1 s (.sori d a i) d a false (fun x => x ||| unsigned))

/-- R99, R101, R25: what each VINT word writes to vD in the active lanes, with its tag.
R100: the immediate forms; VLI gives lane `l` the value imm + l.
R103: the integer dot products form the exact total with the old vD, and end it mod 2^32 or saturated once. -/
def Obligations.VectorIntegerWordsWriteTheirResult : Prop :=
  (∀ (s : State) (d a b n : Reg) (l : Bool),
    let u2 := s.tagU [a, b]
    let u1 := s.tagU [a]
    let u3 := s.tagU [a, b, d]
    let affine := if s.tagOf a = .u ∧ s.tagOf b = .u then Tag.u
      else if s.tagOf a = .a ∧ s.tagOf b = .u ∨ s.tagOf a = .u ∧ s.tagOf b = .a then .a else .g
    RunsV2 s (.vadd d a b l) d a b l affine (fun x y => x + y) ∧
    RunsV2 s (.vsub d a b l) d a b l affine (fun x y => x - y) ∧
    RunsV2 s (.vmul d a b l) d a b l u2 (fun x y => x * y) ∧
    RunsV2 s (.vmulh d a b l) d a b l u2 (fun x y => BitVec.ofInt 32 (x.toInt * y.toInt / 2 ^ 32)) ∧
    RunsV3 s (.vmad d a b l) d a b l u3 (fun x y z => x * y + z) ∧
    RunsV2 s (.vand d a b l) d a b l u2 (fun x y => x &&& y) ∧
    RunsV2 s (.vor d a b l) d a b l u2 (fun x y => x ||| y) ∧
    RunsV2 s (.vxor d a b l) d a b l u2 (fun x y => x ^^^ y) ∧
    RunsV1 s (.vnot d a l) d a l u1 (fun x => ~~~x) ∧
    RunsV2 s (.vshl d a b l) d a b l u2 (fun x y => if 32 ≤ y.toNat then 0 else x <<< y.toNat) ∧
    RunsV2 s (.vshr d a b l) d a b l u2 (fun x y => if 32 ≤ y.toNat then 0 else x >>> y.toNat) ∧
    RunsV2 s (.vsra d a b l) d a b l u2 (fun x y => x.sshiftRight (min 31 y.toNat)) ∧
    (n.toNat < 32 → RunsV1 s (.vshli d a n l) d a l (s.tagOf a) (fun x => x <<< n.toNat)) ∧
    (n.toNat < 32 → RunsV1 s (.vshri d a n l) d a l u1 (fun x => x >>> n.toNat)) ∧
    (n.toNat < 32 → RunsV1 s (.vsrai d a n l) d a l u1 (fun x => x.sshiftRight n.toNat)) ∧
    RunsV2 s (.vmin d a b l) d a b l u2 (fun x y => if y.toInt < x.toInt then y else x) ∧
    RunsV2 s (.vmax d a b l) d a b l u2 (fun x y => if x.toInt < y.toInt then y else x) ∧
    RunsV1 s (.vabs d a l) d a l u1 (fun x => BitVec.ofInt 32 |x.toInt|) ∧
    RunsV1 s (.vneg d a l) d a l u1 (fun x => 0 - x) ∧
    RunsV1 s (.vclz d a l) d a l u1 clzW ∧
    RunsV1 s (.vpop d a l) d a l u1 (fun x => BitVec.ofNat 32 ((List.range 32).countP (fun i => x.getLsbD i))) ∧
    RunsV1 s (.vmov d a l) d a l u1 (fun x => x) ∧
    RunsV3 s (.vselz d a b l) d a b l u3 (fun x y z => if z ≠ 0 then x else y)) ∧
  (∀ (s : State) (d a : Reg) (i : BitVec 12),
    let imm : Word := match s.ctx.ext with
      | some p => p.setWidth 20 ++ i
      | none => i.signExtend 32
    RunsV1 s (.vaddi d a i) d a false (s.tagOf a) (fun x => x + imm) ∧
    RunsV1 s (.vandi d a i) d a false (s.tagU [a]) (fun x => x &&& imm) ∧
    RanTo (exec (.vli d i) s) (VectorTo s · d d false (fun n => imm + BitVec.ofNat 32 n) .a)) ∧
  (∀ (s : State) (d a b : Reg) (l : Bool),
    let byte (x : Word) (i : Nat) : BitVec 8 := x.extractLsb' (8 * i) 8
    let nibble (x : Word) (i : Nat) : BitVec 4 := x.extractLsb' (4 * i) 4
    let bytes (x y z : Word) : Int :=
      z.toInt + (byte x 0).toInt * (byte y 0).toInt + (byte x 1).toInt * (byte y 1).toInt +
        (byte x 2).toInt * (byte y 2).toInt + (byte x 3).toInt * (byte y 3).toInt
    let ubytes (x y z : Word) : Int :=
      z.toInt + (byte x 0).toNat * (byte y 0).toInt + (byte x 1).toNat * (byte y 1).toInt +
        (byte x 2).toNat * (byte y 2).toInt + (byte x 3).toNat * (byte y 3).toInt
    let nibbles (x y z : Word) : Int :=
      (List.range 8).foldl (fun t i => t + (nibble x i).toInt * (nibble y i).toInt) z.toInt
    let wrap (t : Int) : Word := BitVec.ofInt 32 t
    let sat (t : Int) : Word := BitVec.ofInt 32 (min (max t (-2 ^ 31)) (2 ^ 31 - 1))
    let tag := s.tagU [a, b, d]
    RunsV3 s (.vdotb d a b l) d a b l tag (fun x y z => wrap (bytes x y z)) ∧
    RunsV3 s (.vdotbs d a b l) d a b l tag (fun x y z => sat (bytes x y z)) ∧
    RunsV3 s (.vdotub d a b l) d a b l tag (fun x y z => wrap (ubytes x y z)) ∧
    RunsV3 s (.vdotubs d a b l) d a b l tag (fun x y z => sat (ubytes x y z)) ∧
    RunsV3 s (.vdotn d a b l) d a b l tag (fun x y z => wrap (nibbles x y z)) ∧
    RunsV3 s (.vdotns d a b l) d a b l tag (fun x y z => sat (nibbles x y z)))

/-- R103 to R105: the floating words give in each active lane the result, the flags and the draws of one rounding of their
exact result, by the mode of ctl.round; VFTRC rounds toward zero.
R106: each half of a lane on its own, the low half drawing first, the flags of both in fl. -/
def Obligations.FloatingWordsRoundOnce : Prop :=
  (∀ (s : State) (d a b : Reg) (l : Bool),
    RunsF3 s (.vdoth d a b l) d a b l (fun r x y z => (dotExact .fp16 s.mode x y z).round .fp32 s.mode false r) ∧
    RunsF3 s (.vdotbf d a b l) d a b l (fun r x y z => (dotExact .bf16 s.mode x y z).round .fp32 s.mode false r) ∧
    RunsF2 s (.vfadd d a b l) d a b l
      (fun r x y => (addExact (FFmt.fp32.read x) (FFmt.fp32.read y) s.mode).round .fp32 s.mode false r) ∧
    RunsF2 s (.vfsub d a b l) d a b l
      (fun r x y => (addExact (FFmt.fp32.read x) (FFmt.fp32.read y).negate s.mode).round .fp32 s.mode false r) ∧
    RunsF2 s (.vfmul d a b l) d a b l
      (fun r x y => (mulExact (FFmt.fp32.read x) (FFmt.fp32.read y)).round .fp32 s.mode false r) ∧
    RunsF3 s (.vfma d a b l) d a b l (fun r x y z =>
      (fmaExact (FFmt.fp32.read x) (FFmt.fp32.read y) (FFmt.fp32.read z) false false s.mode).round .fp32 s.mode false r) ∧
    RunsF3 s (.vfms d a b l) d a b l (fun r x y z =>
      (fmaExact (FFmt.fp32.read x) (FFmt.fp32.read y) (FFmt.fp32.read z) false true s.mode).round .fp32 s.mode false r) ∧
    RunsF3 s (.vfnma d a b l) d a b l (fun r x y z =>
      (fmaExact (FFmt.fp32.read x) (FFmt.fp32.read y) (FFmt.fp32.read z) true false s.mode).round .fp32 s.mode false r) ∧
    RunsF1 s (.vfrnd d a l) d a l (roundLane s.mode) ∧
    RunsF1 s (.vftrc d a l) d a l (roundLane .rz)) ∧
  (∀ (s : State) (d a b : Reg) (l : Bool),
    let low (x : Word) : Word := x &&& 0xFFFF
    let high (x : Word) : Word := x >>> 16
    let lane (f : BitVec 16 → Word → Word → Word → FRes) (n : Nat) : LaneRes :=
      let x := laneOf (s.rdV a) n
      let y := laneOf (s.rdV b) n
      let z := laneOf (s.rdV d) n
      let lo := f (s.draw16 n 0) (low x) (low y) (low z)
      let hi := f (s.draw16 n (if lo.drew then 1 else 0)) (high x) (high y) (high z)
      ⟨(hi.v <<< 16) ||| (lo.v &&& 0xFFFF), lo.fl ||| hi.fl, (if lo.drew then 1 else 0) + (if hi.drew then 1 else 0)⟩
    let two (i : Instr) (f : BitVec 16 → Word → Word → FRes) : Prop :=
      RanTo (exec i s) (FloatTo s · d a l (lane (fun r x y _ => f r x y)) (s.tagU [a, b]))
    let three (i : Instr) (f : BitVec 16 → Word → Word → Word → FRes) : Prop :=
      RanTo (exec i s) (FloatTo s · d a l (lane f) (s.tagU [a, b, d]))
    two (.hadd d a b l) (fadd .fp16 s.mode) ∧ two (.hsub d a b l) (fsub .fp16 s.mode) ∧
    two (.hmul d a b l) (fmul .fp16 s.mode) ∧ three (.hfma d a b l) (fun r => ffma .fp16 s.mode r false false) ∧
    two (.hmin d a b l) (fun _ x y => ⟨minmax16 false x y, 0, false⟩) ∧
    two (.hmax d a b l) (fun _ x y => ⟨minmax16 true x y, 0, false⟩) ∧
    two (.badd d a b l) (fadd .bf16 s.mode) ∧ two (.bmul d a b l) (fmul .bf16 s.mode) ∧
    three (.bfma d a b l) (fun r => ffma .bf16 s.mode r false false))

/-- R105: the VF32 forms that move or order bits; a NaN pattern has bits [30:0] above 0x7F80_0000, and key32 orders the
rest. -/
def Obligations.FloatingSelectionsFollowKeys : Prop :=
  ∀ (s : State) (d a b : Reg) (l : Bool),
    let nan (x : Word) : Bool := decide (0x7F800000 < x.toNat % 2 ^ 31)
    let lesser (x y : Word) : Word := if (key32 y).toNat < (key32 x).toNat then y else x
    let greater (x y : Word) : Word := if (key32 x).toNat < (key32 y).toNat then y else x
    let u2 := s.tagU [a, b]
    let u1 := s.tagU [a]
    RunsV2 s (.vfmin d a b l) d a b l u2 (fun x y => if nan x || nan y then 0x7FC00000 else lesser x y) ∧
    RunsV2 s (.vfmax d a b l) d a b l u2 (fun x y => if nan x || nan y then 0x7FC00000 else greater x y) ∧
    RunsV2 s (.vfminn d a b l) d a b l u2 (fun x y =>
      if nan x && nan y then 0x7FC00000 else if nan x then y else if nan y then x else lesser x y) ∧
    RunsV2 s (.vfmaxn d a b l) d a b l u2 (fun x y =>
      if nan x && nan y then 0x7FC00000 else if nan x then y else if nan y then x else greater x y) ∧
    RunsV1 s (.vfabs d a l) d a l u1 (fun x => x &&& 0x7FFFFFFF) ∧
    RunsV1 s (.vfneg d a l) d a l u1 (fun x => x ^^^ 0x80000000) ∧
    RunsV2 s (.vfcps d a b l) d a b l u2 (fun x y => (x &&& 0x7FFFFFFF) ||| (y &&& 0x80000000)) ∧
    RunsV1 s (.vfclass d a l) d a l u1 (fun x =>
      let m := x.toNat % 2 ^ 31
      if nan x then (if x.getLsbD 22 then 0x200 else 0x100)
      else if m = 0x7F800000 then (if x.msb then 1 else 0x80)
      else if m = 0 then (if x.msb then 8 else 0x10)
      else if m < 0x800000 then (if x.msb then 4 else 0x20)
      else if x.msb then 2 else 0x40)

/-- R104: the special cases of FP32 sums and products come before any rounding. -/
def Obligations.FloatingSpecialCasesComeFirst : Prop :=
  ∀ (mode : RMode) (r : BitVec 16) (x y : Word),
    let a := FFmt.fp32.read x
    let b := FFmt.fp32.read y
    (a = .nan ∨ b = .nan → fadd .fp32 mode r x y = ⟨0x7FC00000, 0, false⟩ ∧ fmul .fp32 mode r x y = ⟨0x7FC00000, 0, false⟩) ∧
    (∀ n, a = .inf n → b = .inf (!n) → fadd .fp32 mode r x y = ⟨0x7FC00000, flNV, false⟩) ∧
    (∀ n m, a = .inf n → b = .zero m → fmul .fp32 mode r x y = ⟨0x7FC00000, flNV, false⟩) ∧
    (∀ n, a = .inf n → b.finite = true → fadd .fp32 mode r x y = ⟨if n then 0xFF800000 else 0x7F800000, 0, false⟩) ∧
    (∀ p q, a = .fin p → b = .fin q → p + q = 0 →
      fadd .fp32 mode r x y = ⟨if mode = .rd then 0x80000000 else 0, 0, false⟩) ∧
    (∀ n m, a = .zero n → b = .zero m → fadd .fp32 mode r x y =
      ⟨if (n && m) || (decide (mode = .rd) && (n != m)) then 0x80000000 else 0, 0, false⟩)

/-- R102: the comparisons write the triple at sD; VFCLT and VFCLE raise NV in the active lanes where an operand is NaN.
R129, R130: votes and flags. -/
def Obligations.ComparisonsAndVotesReadTheActiveLanes : Prop :=
  (∀ (s : State) (d a b : Reg) (l : Bool), d.toNat ≤ 61 →
    let nan (x : Word) : Bool := decide (0x7F800000 < x.toNat % 2 ^ 31)
    let key (x : Word) : Nat := (key32 x).toNat
    let raised := s.raise (fun n => flWhen (nan (laneOf (s.rdV a) n) || nan (laneOf (s.rdV b) n)) flNV)
    RunsCmp s (.vceq d a b l) d a b l (fun x y => x == y) ∧
    RunsCmp s (.vcne d a b l) d a b l (fun x y => x != y) ∧
    RunsCmp s (.vclt d a b l) d a b l (fun x y => decide (x.toInt < y.toInt)) ∧
    RunsCmp s (.vcle d a b l) d a b l (fun x y => decide (x.toInt ≤ y.toInt)) ∧
    RunsCmp s (.vcltu d a b l) d a b l (fun x y => decide (x.toNat < y.toNat)) ∧
    RunsCmp s (.vcleu d a b l) d a b l (fun x y => decide (x.toNat ≤ y.toNat)) ∧
    RunsCmp s (.vfceq d a b l) d a b l (fun x y => !nan x && !nan y && key x == key y) ∧
    RunsCmp s (.vfcne d a b l) d a b l (fun x y => nan x || nan y || key x != key y) ∧
    RunsCmp s (.vfcun d a b l) d a b l (fun x y => nan x || nan y) ∧
    RanTo (exec (.vfclt d a b l) s) (TripleTo raised · d
      (maskOf (fun n => s.active.getLsbD n && !nan (laneOf (s.rdV a) n) && !nan (laneOf (s.rdV b) n) &&
        decide (key (laneOf (s.rdV a) n) < key (laneOf (s.rdV b) n)))) (freesV0 l a)) ∧
    RanTo (exec (.vfcle d a b l) s) (TripleTo raised · d
      (maskOf (fun n => s.active.getLsbD n && !nan (laneOf (s.rdV a) n) && !nan (laneOf (s.rdV b) n) &&
        decide (key (laneOf (s.rdV a) n) ≤ key (laneOf (s.rdV b) n)))) (freesV0 l a))) ∧
  (∀ (s : State) (d a f : Reg) (l : Bool) (k : BitVec 5),
    let x := laneOf (s.rdV a)
    (d.toNat ≤ 61 → RanTo (exec (.wvote d a l) s)
      (TripleTo s · d (maskOf (fun n => s.active.getLsbD n && decide (x n ≠ 0))) (freesV0 l a))) ∧
    (d.toNat ≤ 61 → RanTo (exec (.wflg d f) s)
      (TripleTo s · d (maskOf (fun n => s.active.getLsbD n && (seesFl s n).getLsbD f.toNat)) none)) ∧
    (∃ v : Word, (v = 0 ∨ v = 1) ∧ (v = 1 ↔ ∃ n, n < 96 ∧ s.active.getLsbD n = true ∧ x n ≠ 0) ∧
      RanTo (exec (.wany d a l) s) (ScalarsTo s · (fun r => if r = d.toNat then some v else none) none (freesV0 l a))) ∧
    (∃ v : Word, (v = 0 ∨ v = 1) ∧ (v = 1 ↔ ∀ n, n < 96 → s.active.getLsbD n = true → x n ≠ 0) ∧
      RanTo (exec (.wall d a l) s) (ScalarsTo s · (fun r => if r = d.toNat then some v else none) none (freesV0 l a))) ∧
    RanTo (exec (.wflclr k) s) (fun t => t = { s with thr := { s.thr with fl := t.thr.fl } } ∧
      ∀ n, n < 96 → seesFl t n = if s.active.getLsbD n then seesFl s n &&& ~~~k else seesFl s n))

/-- R109, R112 to R116: the conversions, special functions and quantisations give each active lane the result, flags and
draws of their function.
R110: the XPACK forms place each element's bits; XUNPK4 writes a pair.
R117, R118: the next draw of a lane is word j mod 4 of the block of its counter; XRNGB and XRNGU take one, XRNGK none,
and XRNGJ moves j by vA + vB × 2^32. -/
def Obligations.ConversionWordsApplyTheirFunction : Prop :=
  (∀ (s : State) (d a b : Reg) (l : Bool),
    (∀ (sf df : BitVec 4) (rnd : BitVec 3) (sat : Bool),
      RunsF1 s (.xcvt d a sf df rnd sat) d a false (fun r x =>
        convert sf.toNat df.toNat (if rnd = 6 then s.mode else RMode.ofCode rnd.toNat) sat r x)) ∧
    RunsF1 s (.xrcp d a l) d a l (fun _ x => frcp32 x) ∧ RunsF1 s (.xrsq d a l) d a l (fun _ x => frsqrt32 x) ∧
    RunsF1 s (.xsqrt d a l) d a l (fun _ x => fsqrt32 x) ∧ RunsF1 s (.xexp2 d a l) d a l (fun _ x => xexp2Lane x) ∧
    RunsF1 s (.xlog2 d a l) d a l (fun _ x => xlog2Lane x) ∧ RunsF1 s (.xsin d a l) d a l (fun _ x => xsinLane x) ∧
    RunsF1 s (.xcos d a l) d a l (fun _ x => xcosLane x) ∧ RunsF1 s (.xtanh d a l) d a l (fun _ x => xtanhLane x) ∧
    RunsF2 s (.xdiv d a b l) d a b l (fun _ x y => fdiv32 x y) ∧
    RunsF2 s (.xqnt4 d a b l) d a b l (quantGroup 15 s.mode) ∧ RunsF2 s (.xqnt8 d a b l) d a b l (quantGroup 255 s.mode) ∧
    RunsV2 s (.xdqnt4 d a b l) d a b l (s.tagU [a, b]) (dequantGroup 4) ∧
    RunsV2 s (.xdqnt8 d a b l) d a b l (s.tagU [a, b]) (dequantGroup 8) ∧
    RunsF2 s (.xqmx d a b l) d a b l (quantBlock s.mode) ∧ RunsF2 s (.xdqmx d a b l) d a b l (dequantBlock s.mode) ∧
    RunsF2 s (.xamax d a b l) d a b l (fun _ x y => amaxScale x y)) ∧
  (∀ (s : State) (d a b : Reg) (l : Bool),
    let bits (x : Word) (lo n : Nat) : Nat := x.toNat / 2 ^ lo % 2 ^ n
    let four (f : Nat → Nat) (step : Nat) : Nat := f 0 + f 1 * 2 ^ step + f 2 * 2 ^ (2 * step) + f 3 * 2 ^ (3 * step)
    let u1 := s.tagU [a]
    let u2 := s.tagU [a, b]
    RunsV1 s (.xpack6 d a l) d a l u1 (fun x => BitVec.ofNat 32 (four (fun i => bits x (8 * i) 6) 6)) ∧
    RunsV1 s (.xunpk6 d a l) d a l u1 (fun x => BitVec.ofNat 32 (four (fun i => bits x (6 * i) 6) 8)) ∧
    RunsV2 s (.xpack4 d a b l) d a b l u2 (fun x y =>
      BitVec.ofNat 32 (four (fun i => bits x (8 * i) 4) 4 + four (fun i => bits y (8 * i) 4) 4 * 2 ^ 16)) ∧
    (d.toNat ≤ 62 → RanTo (exec (.xunpk4 d a l) s) (fun t => ∃ fv, (fv = none ∨ fv = freesV l a d) ∧
      LanesTo s t (fun r =>
        if r = d.toNat + 1 then
          some (fun n => BitVec.ofNat 32 (four (fun i => bits (laneOf (s.rdV a) n) (16 + 4 * i) 4) 8))
        else if r = d.toNat then some (fun n => BitVec.ofNat 32 (four (fun i => bits (laneOf (s.rdV a) n) (4 * i) 4) 8))
        else none) u1 fv (fun _ => 0) (fun _ => 0))) ∧
    RunsV2 s (.xpackh d a b l) d a b l u2 (fun x y => BitVec.ofNat 32 (bits y 0 16 * 2 ^ 16 + bits x 0 16)) ∧
    RunsV3 s (.xpackb d a b l) d a b l (s.tagU [a, b, d])
      (fun x y z => BitVec.ofNat 32 (bits z 0 16 * 2 ^ 16 + bits y 0 8 * 2 ^ 8 + bits x 0 8))) ∧
  (∀ (s : State) (d a b : Reg) (l : Bool),
    let draw (n : Nat) : Word := streamDraw (s.thr.lane n) (Quad.ofNat s.thr.env.key.toNat) (seesDraw s n)
    let only (f : Nat → Word) : Nat → Option (Nat → Word) := fun r => if r = d.toNat then some f else none
    RanTo (exec (.xrngb d) s) (LanesTo s · (only draw) .g none (fun _ => 0) (fun _ => 1)) ∧
    RanTo (exec (.xrngu d) s)
      (LanesTo s · (only (fun n => fp32Of (((draw n).toNat / 256 : Nat) * pow2 (-24)))) .g none (fun _ => 0) (fun _ => 1)) ∧
    RunsV2 s (.xrngk d a b l) d a b l (s.tagU [a, b])
      (fun x y => (block ⟨x, y, 0, 0xFFFFFFFF⟩ (Quad.ofNat s.thr.env.key.toNat)).x0) ∧
    RanTo (exec (.xrngj a b l) s) (LanesTo s · (fun _ => none) .g (freesV0 l a) (fun _ => 0)
      (fun n => (laneOf (s.rdV a) n).toNat + (laneOf (s.rdV b) n).toNat * 2 ^ 32)))

/-- R120, R123, R124: each active lane takes the value of its source lane, 0 from a lane that is absent; WCOMP packs the
selected values into the lowest active lanes; WBC gives every active lane sA. -/
def Obligations.LaneMovesReadTheirSourceLane : Prop :=
  ∀ (s : State) (d a b n : Reg) (l : Bool),
    RunsMove s (.wshf d a b l) d a l (fun i => (laneOf (s.rdV b) i).toNat) ∧
    RunsMove s (.wshfi d a n l) d a l (fun i => (i + n.toNat) % 96) ∧
    RunsMove s (.wxor d a n l) d a l (fun i => i ^^^ n.toNat) ∧
    RunsMove s (.wup d a n l) d a l (fun i => if i < n.toNat then 96 else i - n.toNat) ∧
    RunsMove s (.wdn d a n l) d a l (fun i => i + n.toNat) ∧
    RanTo (exec (.wcomp d a b l) s) (VectorTo s · d a l (fun i =>
      (((lanesIn s.active).filter (fun j => laneOf (s.rdV b) j ≠ 0))[(lanesBefore s i).length]?.map
        (laneOf (s.rdV a))).getD 0) .g) ∧
    RanTo (exec (.wbc d a false) s) (VectorTo s · d d false (fun _ => s.rdS a) .u) ∧
    RanTo (exec (.wbc d a true) s) (fun t => ∃ u, VectorTo s u d d false (fun _ => s.rdS a) .u ∧
      t = { u with thr := { u.thr with srel := t.thr.srel } } ∧
      (∀ r, r < 64 → r ≠ a.toNat → seesS t r = seesS u r) ∧
      (seesS t a.toNat = seesS u a.toNat ∨ seesS t a.toNat = 0))

/-- R125, R126: each active lane receives the combination of the active lanes up to itself, or before itself for WSCANX;
WSCANF adds from the lowest lane upward and raises the flags of every addition so far.
R127, R128: a reduction gives every active lane one value; WREDF combines by the fixed tree and raises the flags of all
its additions.
R131: WMAXI gives every active lane the pair (vA, vB) of an active lane, above which no active lane's pair lies. -/
def Obligations.ScansAndReductionsCombineTheLanes : Prop :=
  (∀ (s : State) (d a : Reg) (l : Bool),
    let x := laneOf (s.rdV a)
    let mode := if s.mode = .rs then RMode.rne else s.mode
    let scan (i : Instr) (f : Word → Word → Word) : Prop :=
      RanTo (exec i s) (VectorTo s · d a l (fun n => combined f ((lanesUpTo s n).map x)) .g)
    scan (.wscan d a l) (fun p q => p + q) ∧
    scan (.wscanmin d a l) (fun p q => if q.toInt < p.toInt then q else p) ∧
    scan (.wscanmax d a l) (fun p q => if p.toInt < q.toInt then q else p) ∧
    RanTo (exec (.wscanx d a l) s)
      (VectorTo s · d a l (fun n => combined (fun p q => p + q) ((lanesBefore s n).map x)) .g) ∧
    RanTo (exec (.wscanf d a l) s) (FloatTo s · d a l (fun n =>
      ⟨(summed mode ((lanesUpTo s n).map x)).1, (summed mode ((lanesUpTo s n).map x)).2, 0⟩) .g)) ∧
  (∀ (s : State) (d a : Reg) (l : Bool),
    let x := laneOf (s.rdV a)
    let mode := if s.mode = .rs then RMode.rne else s.mode
    let red (i : Instr) (f : Word → Word → Word) : Prop :=
      RanTo (exec i s) (VectorTo s · d a l (fun _ => combined f ((lanesIn s.active).map x)) (s.tagU [a]))
    let beat (b : Nat) : Option Word × Fl :=
      treeNode mode (fun i => if s.active.getLsbD (32 * b + i) then some (x (32 * b + i)) else none) 5 0
    let total := combF mode (combF mode (beat 0) (beat 1)) (beat 2)
    red (.wred d a l) (fun p q => p + q) ∧
    red (.wredmin d a l) (fun p q => if q.toInt < p.toInt then q else p) ∧
    red (.wredmax d a l) (fun p q => if p.toInt < q.toInt then q else p) ∧
    red (.wredand d a l) (fun p q => p &&& q) ∧ red (.wredor d a l) (fun p q => p ||| q) ∧
    RanTo (exec (.wredf d a l) s) (FloatTo s · d a l (fun _ => ⟨total.1.getD 0, total.2, 0⟩) (s.tagU [a]))) ∧
  (∀ (s : State) (d a b : Reg) (l : Bool), d.toNat ≤ 62 →
    let x := laneOf (s.rdV a)
    let y := laneOf (s.rdV b)
    (s.active = 0 → RanTo (exec (.wmaxi d a b l) s) (fun t => ∃ fv, (fv = none ∨ fv = freesV l a d) ∧
      LanesTo s t (fun _ => none) .g fv (fun _ => 0) (fun _ => 0))) ∧
    (s.active ≠ 0 → ∃ m, m < 96 ∧ s.active.getLsbD m = true ∧
      (∀ n, n < 96 → s.active.getLsbD n = true →
        (x n).toNat < (x m).toNat ∨ x n = x m ∧ (y n).toNat ≤ (y m).toNat) ∧
      RanTo (exec (.wmaxi d a b l) s) (fun t => ∃ fv, (fv = none ∨ fv = freesV l a d) ∧
        LanesTo s t (fun r => if r = d.toNat + 1 then some (fun _ => y m)
          else if r = d.toNat then some (fun _ => x m) else none) (s.tagU [a, b]) fv (fun _ => 0) (fun _ => 0))))

/-! ## Control flow -/

/-- R60, R61, R62: BR, CALL, BRU, RET and JMPR send the issuing split to word 0 of their target; CALL also writes
s59 := P + 1. A BRU whose condition fails changes nothing.
R64, R67: MJOIN pushes a join entry above the highest slot in use and makes it the split's frame. -/
def Obligations.ControlTransfersReachTheirTarget : Prop :=
  (∀ (s : State) (e : Split), s.split = some e →
    (∀ o, exec (.br o) s = .next (withSplit s (sentTo s e (reach s o)))) ∧
    (∀ o, ∃ u, ScalarsTo s u (fun r => if r = 59 then some (s.ctx.pc + 1) else none) none none ∧
      exec (.call o) s = .next (withSplit u (sentTo s e (reach s o)))) ∧
    (∀ c q o, exec (.bru c q o) s = .next (
      if (if q = 0 then s.rdS c = 0 else if q = 1 then s.rdS c ≠ 0 else if q = 2 then (s.rdS c).toInt < 0
        else 0 ≤ (s.rdS c).toInt) then withSplit s (sentTo s e (reach s o)) else s)) ∧
    exec .ret s = .next (withSplit s (sentTo s e (s.rdSn 59))) ∧
    (∀ n, exec (.jmpr n) s = .next (withSplit s (sentTo s e (s.rdS n))))) ∧
  (∀ (s : State) (e : Split) (o : BitVec 19) (n : BitVec 4), s.split = some e → (∀ k, n ≤ k → s.thr.level.entry? k = none) →
    (n ≠ 0 → s.thr.level.entry? (n - 1) ≠ none) →
    RanTo (exec (.mjoin o) s) (fun u =>
      u = { s with thr := { s.thr with level := u.thr.level } } ∧ u.split = some { e with frame := some n } ∧
      u.thr.level.entry? n = some (.join (reach s o) e.frame 0 0) ∧ u.thr.level.loops = s.thr.level.loops ∧
      (∀ k, k ≠ n → u.thr.level.entry? k = s.thr.level.entry? k) ∧
      (∀ k, k ≠ s.ctx.sp → u.thr.level.split? k = s.thr.level.split? k)))

/-- R65, R66: BRS by mode (0 split, 1 all, 2 any, 3 none) on t = Q and cur. In split mode with both sides populated, the
issuing entry keeps the other lanes and goes on at the next word, and a free entry takes the lanes of t to P + offset; with
no entry free, the other lanes are pushed as a pending entry and the issuing entry becomes the taken side. Results that are
outstanding for the issuing split, of words in flight or parked, are then outstanding for the other side too (R77). That BRS
decides on the mask its group found, and that the group's marker holds for both sides, is the model's reading (log entry
22). -/
def Obligations.SplitBranchesDivideTheLanes : Prop :=
  ∀ (s : State) (e : Split) (m : Reg) (o : BitVec 16), s.split = some e →
    let t := s.rdMask m &&& s.cur
    let go := withSplit s (sentTo s e (reach s o))
    let rest : Split := { e with cur := e.cur &&& ~~~t, owned := e.owned &&& ~~~t }
    let taken : Split := { e with cur := e.cur &&& t, owned := e.owned &&& t }
    let mine (x : BitVec 4) : Bool := x.getLsbD s.ctx.sp.toNat
    let words (g : ParkedWord → ParkedWord) (x : Split) : Split := { x with parked := x.parked.map g, also := x.also.map g }
    exec (.brs m 1 o) s = .next (if t = s.cur then go else s) ∧
    exec (.brs m 2 o) s = .next (if t ≠ 0 then go else s) ∧
    exec (.brs m 3 o) s = .next (if t = 0 then go else s) ∧
    (t = 0 → exec (.brs m 0 o) s = .next s) ∧
    (t ≠ 0 → t = s.cur → exec (.brs m 0 o) s = .next go) ∧
    (t ≠ 0 → t ≠ s.cur → ∀ i, s.thr.level.split? i = none → (∀ j, j < i → s.thr.level.split? j ≠ none) →
      RanTo (exec (.brs m 0 o) s) (fun u =>
        u = { s with thr := { s.thr with level := u.thr.level }, flights := u.flights } ∧
        let both (w : ParkedWord) : ParkedWord :=
          if mine w.splits = true then { w with splits := w.splits ||| ((1 : BitVec 4) <<< i.toNat) } else w
        u.split = some (words both rest) ∧ u.thr.level.stack = s.thr.level.stack ∧ u.thr.level.loops = s.thr.level.loops ∧
        (∃ x, u.thr.level.split? i = some x ∧ x.at_ = ⟨reach s o, 0⟩ ∧ x.cur = t ∧ x.owned = t ∧ x.frame = e.frame ∧
          x.parked = none ∧ x.wait = .none ∧ x.mark = false) ∧
        (∀ k, k ≠ i → k ≠ s.ctx.sp → u.thr.level.split? k = (s.thr.level.split? k).map (words both)) ∧
        (∀ f, f ∈ u.flights ↔ ∃ g ∈ s.flights, f =
          if g.key = s.thr.key ∧ g.inBase = false ∧ mine g.splits = true then
            { g with splits := g.splits ||| ((1 : BitVec 4) <<< i.toNat) } else g))) ∧
    (t ≠ 0 → t ≠ s.cur → (∀ j, s.thr.level.split? j ≠ none) → ∀ n : BitVec 4, s.thr.level.depth = n.toNat →
      RanTo (exec (.brs m 0 o) s) (fun u =>
        u = { s with thr := { s.thr with level := u.thr.level }, flights := u.flights } ∧
        let both (w : ParkedWord) : ParkedWord :=
          if mine w.splits = true then { w with pends := w.pends ||| ((1 : BitVec 16) <<< n.toNat) } else w
        u.split = some (words both (sentTo s taken (reach s o))) ∧ u.thr.level.loops = s.thr.level.loops ∧
        (∀ k, k ≠ s.ctx.sp → u.thr.level.split? k = (s.thr.level.split? k).map (words both)) ∧
        (∀ f, f ∈ u.flights ↔ ∃ g ∈ s.flights, f =
          if g.key = s.thr.key ∧ g.inBase = false ∧ mine g.splits = true then
            { g with pends := g.pends ||| ((1 : BitVec 16) <<< n.toNat) } else g) ∧
        u.thr.level.entry? n = some (.pending s.ctx.next (s.cur &&& ~~~t) (e.owned &&& ~~~t) e.frame) ∧
        (∀ k, k ≠ n → u.thr.level.entry? k = s.thr.level.entry? k)))

/-- R68: a split that arrives leaves its table entry and adds its masks to its frame's arrivals. The most recently pushed
pending entry with that frame, if there is one, becomes a live split in a free entry, for which the results owed to the
pending entry are now outstanding; else, once no split has the frame in its chain, the arrived splits merge at the frame's
target and the frame is freed. A trap that the split had still to take passes to the split that takes a trap meant for its
entry (log entry 119). That a pending entry whose split had no frame is never resumed is the model's reading (log entry 21).
R68, R69, R342: JOIN and EXIT wait for the split's results; EXIT is a hand-on point. JOIN then arrives with the split's
masks, EXIT with empty ones; a thread with no split and no pending entry left, and a wave that EXITs in trap mode, retires. JOIN_ARRIVE and SPLIT_LEAVE
do the same for a split that waited. -/
def Obligations.ArrivalsReleaseOrMerge : Prop :=
  (∀ (s : State) (sp : BitVec 2) (cur owned : Mask) (e : Split), s.thr.level.split? sp = some e →
    (∀ x, e.due = some x → s.arrive sp cur owned = (s.arriveAt sp cur owned).trapDue sp false x) ∧
    (e.due = none → s.arrive sp cur owned = s.arriveAt sp cur owned) ∧
    (e.frame = none → s.arriveAt sp cur owned = s.setLevel (s.thr.level.setSplit sp none)) ∧
    (∀ f target parent ac ao, e.frame = some f → s.thr.level.entry? f = some (.join target parent ac ao) →
      let l := (s.thr.level.setSplit sp none).setEntry f (some (.join target parent (ac ||| cur) (ao ||| owned)))
      (∀ j p c o, l.entry? j = some (.pending p c o (some f)) →
        (∀ k p c o, j < k → l.entry? k ≠ some (.pending p c o (some f))) →
        ∃ i, l.split? i = none ∧ (∀ k, k < i → l.split? k ≠ none) ∧
          let passed (x : BitVec 4) (y : BitVec 16) : BitVec 4 :=
            if y.getLsbD j.toNat = true then x ||| ((1 : BitVec 4) <<< i.toNat) else x
          let left (y : BitVec 16) : BitVec 16 := y &&& ~~~((1 : BitVec 16) <<< j.toNat)
          let opened := ((l.setEntry j none).setSplit i (some (Split.opened s p c o (some f)))).mapWords (fun w =>
            { w with splits := passed w.splits w.pends, pends := left w.pends })
          (p.slot ≠ 3 → s.arriveAt sp cur owned = { s with
            thr := { s.thr with level := opened }
            flights := s.flights.map (fun g => if g.key = s.thr.key ∧ g.inBase = false then
              { g with splits := passed g.splits g.pends, pends := left g.pends } else g) })) ∧
      ((∀ j p c o, l.entry? j ≠ some (.pending p c o (some f))) →
        (l.held f = true → s.arriveAt sp cur owned = s.setLevel l) ∧
        (l.held f = false → ∃ i, l.split? i = none ∧ (∀ k, k < i → l.split? k ≠ none) ∧
          s.arriveAt sp cur owned = s.setLevel ((l.setEntry f none).setSplit i
            (some (Split.opened s ⟨target, 0⟩ (ac ||| cur) (ao ||| owned) parent))))))) ∧
  ((∀ (s : State) (e : Split), s.split = some e →
    (e.frame ≠ none → s.pendingResults s.ctx.sp = true → exec .join s = .next (waitsAt s e .join)) ∧
    (e.frame ≠ none → s.pendingResults s.ctx.sp = false →
      exec .join s = .next (gone (s.arrive s.ctx.sp e.cur e.owned))) ∧
    let h := s.handOn s.thr.key s.thr.env.rcb
    (s.pendingResults s.ctx.sp = true ∨ h.mccBusy = true → exec .exit s = .next (waitsAt h e .exit)) ∧
    (s.pendingResults s.ctx.sp = false → h.mccBusy = false →
      let u := h.arrive s.ctx.sp 0 0
      (s.thr.base = none → u.thr.level.empty = false → exec .exit s = .next (gone u)) ∧
      (s.thr.base = none → u.thr.level.empty = true → RanTo (exec .exit s) (fun t => t.live = false ∧ t.threads.map Thread.key = s.threads.map Thread.key)) ∧
      (s.thr.base ≠ none → RanTo (exec .exit s) (fun t => t.live = false ∧ t.threads.map Thread.key = s.threads.map Thread.key)))) ∧
  (∀ (s u : State) (k : TKey) (sp : BitVec 2) (e : Split), s.focus k = some u → u.thr.level.split? sp = some e →
    u.pendingResults sp = false →
    (e.wait = .join → exec (.joinArrive k sp) s = .next (u.arrive sp e.cur e.owned)) ∧
    (e.wait = .exit → u.mccBusy = false → exec (.splitLeave k sp) s = .next (u.leave sp))))

/-- R71, R72, R73, R74: LOOP and LOOPI open a level or skip a body of count 0, LBRK closes the innermost level and leaves
the body, a write of a counter sets the iterations that remain.
R73: a split that falls through the last packet of the innermost body counts down: it goes to the body's start, or,
at zero, the level closes and it goes to the next packet. With several splits or a pending entry it goes on with a REJOIN
trap of cause 3 due. -/
def Obligations.LoopsCountTheirBodies : Prop :=
  (∀ (s : State) (e : Split), s.split = some e →
    let l := s.thr.level
    let loops (u : State) (lp : Loops) : State := { u with thr := { u.thr with level := { u.thr.level with loops := lp } } }
    let started (c : Word) (n : BitVec 7) : State :=
      if c = 0 then withSplit s (sentTo s e (s.ctx.pc + n.setWidth 32 + 1))
      else loops s
        { depth := l.loops.depth + 1
          len := l.loops.len.setIfInBounds l.loops.depth.toNat n
          lc := l.loops.lc.setIfInBounds l.loops.depth.toNat c
          start := l.loops.start.setIfInBounds l.loops.depth.toNat (s.ctx.pc + 1) }
    (l.liveCount ≤ 1 → l.hasPending = false → l.loops.depth ≠ 3 →
      (∀ c n, exec (.loop c n) s = .next (started (s.rdS c) n)) ∧
      (∀ t n, exec (.loopi t n) s =
        .next (started (match s.ctx.ext with | some p => p.setWidth 20 ++ t | none => t.setWidth 32) n))) ∧
    (l.liveCount ≤ 1 → l.hasPending = false → ∀ i : Fin 3, l.loops.depth.toNat = i.val + 1 →
      exec .lbrk s = .next (withSplit (loops s { l.loops with depth := l.loops.depth - 1 })
        (sentTo s e (l.loops.start[i] + (l.loops.len[i]).setWidth 32)))) ∧
    (∀ k x, exec (.loopCounterWrite k x) s = .next (loops s { l.loops with lc := l.loops.lc.setIfInBounds k.toNat x }))) ∧
  (∀ (s : State) (sp : BitVec 2) (p : Place) (e : Split) (i : Fin 3), s.thr.level.split? sp = some e →
    s.atPacketEnd s.thr p = true → s.thr.level.loops.depth.toNat = i.val + 1 →
    p.pc + 1 = s.thr.level.loops.start[i] + (s.thr.level.loops.len[i]).setWidth 32 →
    let l := s.thr.level
    let c := l.loops.lc[i] - 1
    let counted := { l.loops with lc := l.loops.lc.set i c }
    let lands (at_ : Place) (lp : Loops) (due : Option Trap) : State :=
      { s with thr := { s.thr with level :=
        { l.setSplit sp (some { e with at_ := at_, xfer := none, due := due }) with loops := lp } } }
    (l.loopBlocked = false → c ≠ 0 → s.settle sp p true = lands ⟨l.loops.start[i], 0⟩ counted e.due) ∧
    (l.loopBlocked = false → c = 0 →
      s.settle sp p true = lands ⟨p.pc + 1, 0⟩ { counted with depth := l.loops.depth - 1 } e.due) ∧
    (l.loopBlocked = true → e.due = none → s.settle sp p true = lands ⟨p.pc + 1, 0⟩ l.loops (some
      { cls := 11, cause := 3, pc := p.pc + 1, slot := 0, oslot := 0, replay := false, addr := 0, lanes := e.cur })))

/-- R65 to R74: when each word raises REJOIN, and with which cause of R70. That an LBRK outside a loop reports cause 5
before cause 3 is the model's reading (log entry 23). -/
def Obligations.RejoinTrapsHaveTheirCauses : Prop :=
  ∀ (s : State) (e : Split), CanTrap s e →
    let l := s.thr.level
    (∀ o, l.depth = 16 → TrapsAtGroup s (.mjoin o) 11 1) ∧
    (∀ m o, l.depth = 16 → (∀ j, l.split? j ≠ none) → s.rdMask m &&& s.cur ≠ 0 → s.rdMask m &&& s.cur ≠ s.cur →
      TrapsAtGroup s (.brs m 0 o) 11 1) ∧
    (e.frame = none → TrapsAtGroup s .join 11 2) ∧
    (1 < l.liveCount ∨ l.hasPending = true →
      (∀ c n, TrapsAtGroup s (.loop c n) 11 3) ∧ (∀ t n, TrapsAtGroup s (.loopi t n) 11 3) ∧
      (l.loops.depth ≠ 0 → TrapsAtGroup s .lbrk 11 3)) ∧
    (l.liveCount ≤ 1 → l.hasPending = false → l.loops.depth = 3 →
      (∀ c n, TrapsAtGroup s (.loop c n) 11 4) ∧ (∀ t n, TrapsAtGroup s (.loopi t n) 11 4)) ∧
    (l.loops.depth = 0 → TrapsAtGroup s .lbrk 11 5)

/-- R76: NOP does nothing; YIELD makes its split wait for n clocks, or, with n = 0, for the partition's other eligible
splits for at most 64 clocks; WAITX waits for the results of its classes, all four for mask 0, those of parked words among
them. A yield that is over makes the split eligible. CONST gives the word before it its payload (R23). Which splits a YIELD
0 waits for, the classes of words R76 does not name, and where the 4,096 clocks begin are the model's readings (log entries
29, 30).
R83, R282: an issuer tries the splits of its threads, and no others, in the order of their ranks. R336: an eligible split
of a wave of the lowest unfinished workgroup that has waited 4,096 clocks stands before every split that is not promoted. -/
def Obligations.WaitsHoldTheirSplit : Prop :=
  ((∀ (s : State) (e : Split), s.split = some e →
    exec .nop s = .next s ∧
    (∀ y : BitVec 19,
      let n := match s.ctx.ext with
        | some p => p.toNat * 2 ^ 19 + y.toNat
        | none => y.toNat
      exec (.yield y) s = .next (waitsAt s e
        (if n = 0 then .yieldSet s.eligibleOthers (s.clock + 64) else .yield (s.clock + n)))) ∧
    (∀ w : BitVec 4, s.live = true →
      let classes : BitVec 4 := if w = 0 then 15 else w
      let open_ := (∃ f ∈ s.flights, f.outstanding s.thr.key s.ctx.sp false = true ∧ classes.getLsbD f.cls = true) ∨
        (∃ i x p o, s.thr.level.split? i = some x ∧ p ∈ x.words ∧ p.splits.getLsbD s.ctx.sp.toNat = true ∧
          p.owed = some o ∧ classes.getLsbD o.cls = true) ∨ e.parked ≠ none
      (open_ → exec (.waitx w) s = .next (waitsAt s e (.results classes))) ∧
      (¬ open_ → exec (.waitx w) s = .next s)) ∧
    (∀ p, exec (.const p) s = .next { s with ctx := { s.ctx with ext := some p } })) ∧
  (∀ (s u : State) (k : TKey) (sp : BitVec 2) (e : Split), s.focus k = some u → u.thr.level.split? sp = some e →
    let free : State := { u with thr := { u.thr with level := u.thr.level.setSplit sp (some { e with wait := .none }) } }
    (∀ c, e.wait = .yield c → c ≤ u.clock → exec (.yieldExpiry k sp) s = .next free) ∧
    (∀ set c, e.wait = .yieldSet set c → (c ≤ u.clock ∨ ∀ x ∈ set, u.yieldHeld u.thr x = false) →
      exec (.yieldExpiry k sp) s = .next free))) ∧
  ((∀ (s : State) (p : Nat), (s.allThreads.map Thread.key).Nodup →
    (∀ k sp, (k, sp) ∈ issueOrder s p ↔ ∃ t, s.thread? k = some t ∧ t.issuer = p ∧ t.level.split? sp ≠ none) ∧
    (issueOrder s p).Pairwise (fun x y => ∀ t u e f, s.thread? x.1 = some t → t.level.split? x.2 = some e →
      s.thread? y.1 = some u → u.level.split? y.2 = some f → Rank.before (s.rankOf u f) (s.rankOf t e) = false)) ∧
  (∀ (s : State) (k : TKey) (sp : BitVec 2) (t : Thread) (e : Split), s.thread? k = some t → t.level.split? sp = some e →
    s.eligible t sp = true → s.lowestUnfinished t = true →
    (∀ i x, t.level.split? i = some x → s.eligible t i = true → x.since + 4096 ≤ s.clock) →
    RanTo (exec (.progressPromote k sp) s) (fun u =>
      u.thread? k = some { t with level := t.level.setSplit sp (some { e with promoted := true }) } ∧
      ∀ j, j ≠ k → u.thread? j = s.thread? j)) ∧
  (∀ (s : State) (t u : Thread) (e f : Split), t.mcc = false → u.mcc = false → e.promoted = true → f.promoted = false →
    Rank.before (s.rankOf t e) (s.rankOf u f) = true))

/-! ## Traps and control registers -/

/-- R364, R365, R367: a wave with a handler enters trap mode; a trap in trap mode, a trap with no handler, and any trap of
an MCC thread end the thread, with class DFAULT and the second class as its cause in the first case. That the record of a
BKPT names the place behind its group is the model's reading (log entry 26).
R355: TRAP and BKPT raise their class with n as the address, to resume after their group; a BKPT with no handler stops
every split of the wave and sends Trestle its record; Trestle resumes or ends a stopped wave.
R29, R397: a group that holds a non-instruction raises ILL, naming the word's slot; a split takes a POISON trap that is
due, to resume where it would go on. -/
def Obligations.TrapsEnterOrEnd : Prop :=
  (∀ (s : State) (sp : BitVec 2) (x : Trap),
    (s.thr.mcc = false → s.thr.base = none → s.thr.kern.handler ≠ none → s.thr.level.split? sp ≠ none →
      Entered s (s.takeTrap sp x) sp x) ∧
    (s.thr.mcc = false → s.thr.base ≠ none → Ended s (s.takeTrap sp x) 14 x.cls x.pc x.addr) ∧
    (s.thr.mcc = true ∨ s.thr.base = none ∧ s.thr.kern.handler = none → Ended s (s.takeTrap sp x) x.cls x.cause x.pc x.addr)) ∧
  ((∀ (s : State) (e : Split) (n : BitVec 16), s.split = some e →
    let u := s.settle s.ctx.sp s.ctx.next true
    ∃ q, u.split = some q ∧
      let x (cls : Nat) : Trap :=
        { cls := cls, cause := 0, pc := q.at_.pc, slot := q.at_.slot, oslot := s.ctx.slot, replay := false
          addr := n.setWidth 64, lanes := s.cur }
      (CanTrap s e → RanTo (exec (.trap n) s) (Entered u · s.ctx.sp (x 12)) ∧
        RanTo (exec (.bkpt n) s) (Entered u · s.ctx.sp (x 13))) ∧
      (s.thr.mcc = false → s.thr.base = none → s.thr.kern.handler = none →
        RanTo (exec (.trap n) s) (Ended u · 12 0 q.at_.pc (n.setWidth 64)) ∧
        exec (.bkpt n) s = .next { u with
          events := s.events ++ [u.waveRecord true 13 0 q.at_.pc (n.setWidth 64)]
          thr := { u.thr with bkpt := some (n.setWidth 32, q.at_.pc) }
          ctx := { s.ctx with out := .trap } })) ∧
  (∀ (s u : State) (k : TKey) (n pc : Word), s.focus k = some u → u.thr.bkpt = some (n, pc) →
    exec (.bkptResume k true) s = .next { u with thr := { u.thr with bkpt := none } } ∧
    RanTo (exec (.bkptResume k false) s) (Ended u · 13 0 pc (n.setWidth 64)))) ∧
  ((∀ (s : State) (e : Split) (slot : BitVec 2), CanTrap s e →
    RanTo (exec (.nonInstruction slot) s) (Entered { s with ctx := { s.ctx with slot := slot } } · s.ctx.sp
      { cls := 1, cause := 0, pc := s.ctx.pc, slot := s.ctx.gslot, oslot := slot, replay := false, addr := 0
        lanes := s.active })) ∧
  (∀ (s u : State) (k : TKey) (sp : BitVec 2) (e : Split) (x : Trap), s.focus k = some u →
    u.thr.level.split? sp = some e → e.due = some x → x.cls = 7 → u.running u.thr = true →
    u.thr.mcc = false → u.thr.base = none → u.thr.kern.handler ≠ none →
    RanTo (exec (.poisonTrapDeferred k sp) s) (fun t =>
      t.thr.ctl.eclass = 7 ∧ t.thr.ctl.epc = e.onward.pc ∧ t.thr.ctl.eaddr = x.addr ∧ t.thr.ctl.elanes = x.lanes ∧
        t.mem = s.mem ∧ t.thr.s = u.thr.s ∧ t.thr.v = u.thr.v)))

/-- R366: RTE, in trap mode with one live split, an empty stack and no loop, waits for the split's results; then, when no
split of the base level has a pending trap, it restores the base level, and the trapping split goes on at ctl.epc and RSLOT,
with REPLAY 1 to issue one word on ctl.elanes and then to go on behind that word's group. R366, R367: outside trap mode RTE
raises ILL; in trap mode with its conditions not met it ends the wave, cause 1. That the double fault of an RTE that is not
allowed has cause 1 is the model's reading (log entry 20). -/
def Obligations.TrapReturnRestoresTheBaseLevel : Prop :=
  ∀ (s : State) (e : Split), s.split = some e →
    (s.thr.base = none → s.thr.mcc = false → s.thr.kern.handler ≠ none → TrapsAtGroup s .rte 1 0) ∧
    (∀ b sp, s.thr.base = some (b, sp) → s.thr.mcc = false →
      let l := s.thr.level
      (¬ (l.liveCount = 1 ∧ (∀ j, l.entry? j = none) ∧ l.loops.depth = 0) →
        RanTo (exec .rte s) (Ended s · 14 1 s.ctx.pc 0)) ∧
      (l.liveCount = 1 → (∀ j, l.entry? j = none) → l.loops.depth = 0 →
        (s.pendingResults s.ctx.sp = true → exec .rte s = .next (waitsAt s e .rte)) ∧
        (s.pendingResults s.ctx.sp = false → ∀ x, b.split? sp = some x → (∀ i y, b.split? i = some y → y.pend = none) →
          RanTo (exec .rte s) (fun t =>
            t = { s with thr := { s.thr with level := t.thr.level, base := none }, flights := t.flights, rq := t.rq,
                         ctx := { s.ctx with out := .left } } ∧
            t.thr.level.stack = b.stack ∧ t.thr.level.loops = b.loops ∧
            (∀ i, i ≠ sp → t.thr.level.split? i = b.split? i) ∧
            ∃ y, t.thr.level.split? sp = some y ∧ y.at_ = ⟨s.thr.ctl.epc, s.thr.ctl.rslot⟩ ∧ y.cur = x.cur ∧
              y.owned = x.owned ∧ y.frame = x.frame ∧
              y.replay = (if s.thr.ctl.replay = true then some (x.cur &&& s.thr.ctl.elanes) else none) ∧
              (s.thr.ctl.replay = true → (x.at_ ≠ y.at_ → y.next = s.afterGroup s.thr y.at_ ∧ y.fell = true) ∧
                (x.at_ = y.at_ → x.next ≠ x.at_ → y.next = x.next ∧ y.fell = x.fell))))))

/-- R356: SCALL, once its thread's accesses are complete, writes its request and parks; Trestle's answer writes s8 to s15 (or
s8 := 0xFFFFFFFF) and resumes the split. -/
def Obligations.ScallAsksTrestle : Prop :=
  (∀ (s : State) (e : Split) (n : BitVec 16), s.split = some e →
    (s.released s.thr.key = true → exec (.scall n) s = .next (waitsAt { s with calls := s.calls ++
      [⟨s.thr.key, s.ctx.sp, n, s.thr.env.rcb, s.seqOf s.thr, s.thr.index,
        (List.range 8).map (fun i => s.thr.s[8 + i]?.getD 0)⟩] } e .scall)) ∧
    (s.released s.thr.key = false → exec (.scall n) s = .next (waitsAt s e (.scallRel n s.opId)))) ∧
  (∀ (s u : State) (k : TKey) (sp : BitVec 2) (e : Split) (ans : Option (List Word)), s.focus k = some u →
    u.thr.base = none → u.thr.level.split? sp = some e → e.wait = .scall →
    RanTo (exec (.scallAnswer k sp ans) s) (fun t => t.mem = s.mem ∧
      t.thr = { u.thr with level := t.thr.level, s := t.thr.s, srel := t.thr.srel } ∧
      t.thr.level = u.thr.level.setSplit sp (some { e with wait := .none }) ∧
      ∀ r, r < 64 → t.thr.s[r]?.getD 0 = match ans with
        | some vs => if 8 ≤ r ∧ r < 16 then vs[r - 8]?.getD 0 else u.thr.s[r]?.getD 0
        | none => if r = 8 then 0xFFFFFFFF else u.thr.s[r]?.getD 0))

/-- R359 to R361 with R71, R95, R146, R201, R224, R254, R283, R317, R348: what CTLR of each register gives.
R358: RDTIME writes the two words of the part's time. -/
def Obligations.ControlRegistersReadTheirFields : Prop :=
  (∀ (s : State) (d : Reg),
    let t := s.src
    let c := t.ctl
    let l := t.level.loops
    let bit (b : Bool) : BitVec 1 := if b then 1 else 0
    let busy (b : Nat) : Bool := s.groups.any (fun g => clusterOf g.core == clusterOf t.core && g.onBank b)
    let reads (r : Nat) (v : Word) : Prop := RanTo (exec (.ctlr d (BitVec.ofNat 12 r)) s) (ScalarTo s · d d false v)
    reads 0x000 (c.round.setWidth 32) ∧
    reads 0x001 ((0 : BitVec 9) ++ l.depth ++ l.len[2] ++ l.len[1] ++ l.len[0]) ∧
    (∀ k : Fin 3, reads (0x002 + k) l.lc[k] ∧ reads (0x005 + k) l.start[k] ∧
      reads (0x00A + k) (c.sstat.extractLsb' (32 * k) 32) ∧ reads (0x085 + k) (c.elanes.extractLsb' (32 * k) 32)) ∧
    reads 0x008 c.estdrop ∧ reads 0x009 (c.cslot.setWidth 32) ∧ reads 0x00D c.hbatch ∧
    reads 0x00E (bit c.herr ++ c.hcause ++ c.hbad) ∧
    reads 0x00F (c.shash.extractLsb' 0 32) ∧ reads 0x010 (c.shash.extractLsb' 32 32) ∧
    reads 0x011 c.mtouch ∧ reads 0x012 ((0 : BitVec 30) ++ bit c.mvpois ++ bit c.mpois) ∧
    (∀ (b : Fin 32) (k : Bank), (s.cluster (clusterOf t.core)).banks[b] = k →
      reads (0x020 + b) ((0 : BitVec 27) ++ bit k.launched ++ bit k.refused ++ bit (busy b) ++ k.mode)) ∧
    (∀ r : Fin 64, reads (0x040 + r) (match t.tag s.stamp r with | .u => 0 | .a => 1 | .g => 2)) ∧
    reads 0x080 (c.ecause ++ (0 : BitVec 8) ++ c.eclass) ∧ reads 0x081 c.epc ∧
    reads 0x082 ((0 : BitVec 27) ++ bit c.replay ++ c.oslot ++ c.rslot) ∧
    reads 0x083 (c.eaddr.extractLsb' 0 32) ∧ reads 0x084 (c.eaddr.extractLsb' 32 32) ∧
    reads 0x088 ((0 : BitVec 30) ++ bit c.shadow ++ bit t.base.isSome) ∧
    reads 0x089 (BitVec.ofNat 32 (if t.mcc then clusterOf t.core * 4 % 1024 else t.part.toNat * 1024 + t.core % 1024))) ∧
  (∀ (s : State) (d : Reg), d.toNat ≤ 62 → RanTo (exec (.rdtime d) s) (ScalarsTo s ·
    (fun r => if r = d.toNat then some (BitVec.ofNat 32 s.time)
      else if r = d.toNat + 1 then some (BitVec.ofNat 32 (s.time / 2 ^ 32)) else none) none none))

/-- R359 with the Access columns of R71, R95, R201, R224, R254, R283, R317, R361: what CTLW of each register changes; a write
of a read-only register, and of a ctl.e register outside trap mode, is ignored. The write-one-to-clear events act alike. -/
def Obligations.ControlRegistersTakeTheirWrites : Prop :=
  ∀ (s : State) (a : Reg),
    let x := s.rdS a
    let c := s.thr.ctl
    let l := s.thr.level
    let ctl (c : Ctl) : Out := .next { s with thr := { s.thr with ctl := c } }
    let writes (r : Nat) (o : Out) : Prop := exec (.ctlw (BitVec.ofNat 12 r) a) s = o
    let word (m : Mask) (k : Fin 3) (w : Word) : Mask := setMaskWord m k w
    writes 0x000 (if x.toNat % 8 < 6 then ctl { c with round := x.setWidth 3 } else .next s) ∧
    (∀ k : Fin 3,
      writes (0x002 + k) (.next { s with thr := { s.thr with level :=
        { l with loops := { l.loops with lc := l.loops.lc.set k x } } } }) ∧
      writes (0x00A + k) (ctl { c with sstat := word c.sstat k (c.sstat.extractLsb' (32 * k) 32 &&& ~~~x) }) ∧
      (∀ y, exec (.sstatClear (BitVec.ofNat 2 k) y) s =
        ctl { c with sstat := word c.sstat k (c.sstat.extractLsb' (32 * k) 32 &&& ~~~y) })) ∧
    writes 0x008 (ctl { c with estdrop := x }) ∧ writes 0x009 (ctl { c with cslot := x.setWidth 6 }) ∧
    (∀ y : Word,
      let hstat := if y.getLsbD 31 then { c with herr := false, hcause := 0, hbad := 0 } else c
      let mstat := { c with mpois := c.mpois && !y.getLsbD 0, mvpois := c.mvpois && !y.getLsbD 1 }
      exec (.hstatClear y) s = ctl hstat ∧ (x = y → writes 0x00E (ctl hstat)) ∧
      exec (.mstatClear y) s = ctl mstat ∧ (x = y → writes 0x012 (ctl mstat))) ∧
    (∀ r ∈ [0x001, 0x005, 0x006, 0x007, 0x00D, 0x00F, 0x010, 0x011, 0x080, 0x083, 0x084, 0x088, 0x089], writes r (.next s)) ∧
    (∀ r, 0x040 ≤ r → r < 0x080 → writes r (.next s)) ∧
    (s.thr.base = none → ∀ r ∈ [0x081, 0x082, 0x085, 0x086, 0x087],
      writes r (.next s) ∧ ∀ y, exec (.trapStateWrite (BitVec.ofNat 12 r) y) s = .next s) ∧
    (s.thr.base ≠ none → ∀ y : Word,
      let trap (r : Nat) (c : Ctl) : Prop :=
        exec (.trapStateWrite (BitVec.ofNat 12 r) y) s = ctl c ∧ (x = y → writes r (ctl c))
      trap 0x081 { c with epc := y } ∧
      trap 0x082 { c with replay := y.getLsbD 4, rslot := if y.setWidth 2 = 3 then 0 else y.setWidth 2 } ∧
      ∀ k : Fin 3, trap (0x085 + k) { c with elanes := word c.elanes k y })

/-- R146, R147, R149: a CTLW of ctl.clm.bank b without the region's grant raises PROT; REFUSED clears on 1; a MODE write of
0b11 changes nothing, one of another mode to a busy bank sets REFUSED, one of the current mode only clears LAUNCHED, and a
change of mode empties the bank's FIFO and, out of scratch mode, its bytes. That REFUSED clears before the MODE is looked
at, and that a byte of an emptied bank reads 0, are the model's choices (log entries 36, 5). -/
def Obligations.BankModesChangeWhenNotBusy : Prop :=
  ∀ (s : State) (b : Fin 32) (x : Word) (k : Bank) (c : Cluster), c = s.cluster s.myCluster → c.banks[b] = k →
    Memory.wf c.clm = true →
    let m : BitVec 2 := x.setWidth 2
    let busy := s.groups.any (fun g => clusterOf g.core == s.myCluster && g.onBank b)
    let leaves (i : Instr) (p : Cluster → Prop) : Prop := RanTo (exec i s) (fun t =>
      t = { s with clusters := t.clusters } ∧ (∀ o, o ≠ s.myCluster → t.cluster o = s.cluster o) ∧ p (t.cluster s.myCluster))
    let write : Instr := .clmBankModeWrite (BitVec.ofNat 5 b) x
    (∀ e a, CanTrap s e → s.thr.env.clmGrant = false → TrapsAtGroup s (.ctlw (BitVec.ofNat 12 (0x020 + b)) a) 5 3) ∧
    (∀ a, s.thr.env.clmGrant = true → s.rdS a = x → ∃ u, exec (.clmBankRefusedClear (BitVec.ofNat 5 b) x) s = .next u ∧
      exec (.ctlw (BitVec.ofNat 12 (0x020 + b)) a) s = exec write u) ∧
    (x.getLsbD 3 = false → exec (.clmBankRefusedClear (BitVec.ofNat 5 b) x) s = .next s) ∧
    (x.getLsbD 3 = true → leaves (.clmBankRefusedClear (BitVec.ofNat 5 b) x)
      (· = { c with banks := c.banks.set b { k with refused := false } })) ∧
    (m = 3 → exec write s = .next s) ∧
    (m ≠ 3 → m = k.mode → leaves write (· = { c with banks := c.banks.set b { k with launched := false } })) ∧
    (m ≠ 3 → m ≠ k.mode → busy = true → leaves write (· = { c with banks := c.banks.set b { k with refused := true } })) ∧
    (m ≠ 3 → m ≠ k.mode → busy = false → leaves write (fun u =>
      u = { c with banks := c.banks.set b { k with mode := m, launched := false }, fifos := u.fifos, l1 := u.l1
                   clm := u.clm, poison := u.poison } ∧
      u.fifo b = [] ∧ (∀ o, o ≠ b.val → u.fifo o = c.fifo o) ∧ (∀ y ∈ u.l1, y ∈ c.l1) ∧
      ∀ y, cellRead u.clm y = if k.mode = 1 ∧ y / 65536 = b.val then 0 else cellRead c.clm y))

/-! ## Memory -/

/-- R133, R134, R136, R138: a load word whose lanes pass R135 and are mapped sends one request for each active lane, at the
physical address of base + sext(vA), a scalar form one request, and changes nothing else: its registers are written when
the requests return.
R134, R137, R138, R151: a store word whose lanes pass R135 and are mapped enters its bytes in the write queue, as much as
its entries hold, the rest held; of two lanes that write one byte the higher's stays. No register and no byte of memory
changes; in a deterministic region the store enters the wave's hash (R347).
R139: an ATOM word whose lanes pass R135 and are mapped sends each active lane's data, from vD on, or, with D = 63, from
vA+1 on, to its home; memory and registers stay. -/
def Obligations.MemoryWordsSendTheirLanes : Prop :=
  (∀ (s : State) (d a : Reg) (p : BitVec 5) (h : BitVec 2) (pg : Nat → Page),
    let load (i : Instr) (n : Nat) (signed scalar : Bool) : Prop :=
      let lanes := if scalar then [96] else lanesIn s.active
      let va := if scalar then scaVa s a p else vecVa s a p
      Clear s .load n n false lanes va pg →
        exec i s = .next (inFlight s (.load n signed scalar) 0 scalar d (max 1 (n / 4)) h (requests s lanes va pg (fun _ => [])))
    load (.ldb d a p h) 1 true false ∧ load (.ldbu d a p h) 1 false false ∧
    load (.ldh d a p h) 2 true false ∧ load (.ldhu d a p h) 2 false false ∧
    load (.ldw d a p h) 4 false false ∧ load (.ldd d a p h) 8 false false ∧ load (.ldq d a p h) 16 false false ∧
    load (.sldw d a p h) 4 false true ∧ load (.sldd d a p h) 8 false true ∧ load (.sldq d a p h) 16 false true) ∧
  (∀ (s : State) (d a : Reg) (p : BitVec 5) (h : BitVec 2) (pg : Nat → Page),
    let store (i : Instr) (n : Nat) (scalar : Bool) : Prop :=
      let lanes := if scalar then [96] else lanesIn s.active
      let va := if scalar then scaVa s a p else vecVa s a p
      Clear s .store n n true lanes va pg → RanTo (exec i s) (fun t =>
        t = { s with nextId := t.nextId, wq := t.wq, hold := t.hold, cores := t.cores
                     thr := { s.thr with ctl := { s.thr.ctl with shash := t.thr.ctl.shash } } } ∧
        (s.thr.env.deterministic = false → t.thr = s.thr) ∧
        Queued s t n lanes pg (dataByte s d scalar))
    store (.stb d a p h) 1 false ∧ store (.sth d a p h) 2 false ∧ store (.stw d a p h) 4 false ∧
    store (.std d a p h) 8 false ∧ store (.stq d a p h) 16 false ∧ store (.st64 d a p h) 64 false ∧
    store (.sstw d a p h) 4 true ∧ store (.sstd d a p h) 8 true) ∧
  (∀ (s : State) (d a : Reg) (p : BitVec 5) (h : BitVec 2) (pg : Nat → Page),
    let lanes := lanesIn s.active
    let va := vecVa s a p
    let atom (i : Instr) (fn k : Nat) : Prop :=
      let n := if fn = 11 then 8 else 4
      let src := if d.toNat = 63 then a.toNat + 1 else d.toNat
      let count := if d.toNat = 63 then 0 else if fn = 11 then 2 else 1
      Clear s .atom n n true lanes va pg → (s.holdsLadle = true → ∀ l ∈ lanes, (pg l).rec_ = false) → RanTo (exec i s) (fun t =>
        t = { inFlight s (.atomic fn) 0 false d count h
                (requests s lanes va pg (fun l => (List.range k).map (fun j => laneOf (s.rdVn (src + j)) l)))
              with clusters := t.clusters } ∧
        ∀ c, t.cluster c = { s.cluster c with l1 := (t.cluster c).l1 })
    atom (.aadd d a p h) 0 1 ∧ atom (.amin d a p h) 1 1 ∧ atom (.amax d a p h) 2 1 ∧ atom (.aand d a p h) 3 1 ∧
    atom (.aor d a p h) 4 1 ∧ atom (.axor d a p h) 5 1 ∧ atom (.axch d a p h) 6 1 ∧ atom (.acas d a p h) 7 2 ∧
    atom (.afadd d a p h) 8 1 ∧ atom (.afmin d a p h) 9 1 ∧ atom (.afmax d a p h) 10 1 ∧ atom (.amxi d a p h) 11 2)

/-- R134, R136, R138, R151: the last lane of a load to return writes the bytes of its address, extended as its size says, to
its registers: from the youngest of its thread's queued writes that overlap it, where that covers it all, and with none from a
cache that holds them, else from memory. No other lane, no other register and no memory changes. A
write to s63 is discarded, and one to m0 to m2 of a wave changes the current mask of the word's split, within its owned set
(R24, R55).
R77, R79: a return of results that are known writes each of them to its register and lane, and no other; s63 keeps
reading zero, and m0 to m2 of a wave take theirs in the word's split (R55). -/
def Obligations.LoadsReturnTheirBytes : Prop :=
  (∀ (s : State) (f : Flight) (a : LaneAcc) (n : Nat) (signed evict : Bool) (lanes : Mask) (bs : List Byte),
    s.flight? f.id = some f → f.work = .load n signed f.scalar → n ∈ [1, 2, 4, 8, 16] → f.count = max 1 (n / 4) →
    f.dst + f.count ≤ 64 → f.inBase = false → f.todo = [a] → f.ready = [] → f.bad = [] →
    f.denied = [] → Ready s f a true → a.pa % n = 0 →
    (a.page.uncached = true → s.behindStore f a = false) → s.live = true → s.thr.key = f.key → lanes.getLsbD a.lane = true →
    ((a.page.uncached = true ∨ s.ownWrites f a.pa n = []) ∧ a.page.type ≠ .cmp ∧
        (heldCopy s f a n evict = some bs ∨
          heldCopy s f a n evict = none ∧ s.poisoned a.pa n = false ∧ bs = s.homeRead a.pa n) ∨
      a.page.uncached = false ∧ ∃ e, (s.ownWrites f a.pa n).getLast? = some e ∧ e.stage = .queued ∧ bs.length = n ∧
        ∀ i x, bs[i]? = some x → ∃ o, 32 * e.sector + o = a.pa + i ∧ e.bytes.find? (fun y => y.1 == o) = some (o, x)) →
    RanTo (exec (.loadReturn f.id lanes (-1) evict) s) (fun t => t.mem = s.mem ∧
      ((∀ u ∈ s.threads, u.key ≠ f.key) → t.threads = s.threads) ∧
      t.thr = { s.thr with s := t.thr.s, srel := t.thr.srel, v := t.thr.v, vtag := t.thr.vtag, vrel := t.thr.vrel
                           level := t.thr.level } ∧
      (∀ r, r < 64 → (r < 60 ∨ r = 63 ∨ s.thr.mcc = true) → seesS t r =
        if f.scalar = true ∧ r ≠ 63 ∧ f.dst ≤ r ∧ r < f.dst + f.count then loaded n signed bs (r - f.dst)
        else seesS s r) ∧
      (s.thr.level.split? f.sp = none ∨ s.thr.mcc = true → t.thr.level = s.thr.level) ∧
      (s.thr.mcc = false → ∀ e, s.thr.level.split? f.sp = some e → ∃ c : Mask,
        t.thr.level = s.thr.level.setSplit f.sp (some { e with cur := c }) ∧
        ∀ j, j < 3 → maskWord c j = if f.scalar = true ∧ f.dst ≤ 60 + j ∧ 60 + j < f.dst + f.count
          then loaded n signed bs (60 + j - f.dst) &&& maskWord e.owned j else maskWord e.cur j) ∧
      (∀ r i, r < 64 → i < 96 → seesV t r i =
        if f.scalar = false ∧ i = a.lane ∧ f.dst ≤ r ∧ r < f.dst + f.count then loaded n signed bs (r - f.dst)
        else seesV s r i) ∧
      ((∀ g ∈ s.flights, g.id = f.id → g = f) → t.flight? f.id = none))) ∧
  (∀ (s : State) (f : Flight), s.flight? f.id = some f → f.work = .result → f.inBase = false → f.todo = [] → f.bad = [] →
    f.denied = [] → (∀ x ∈ f.ready, x.1 < 96 ∧ x.2.1 < 8 ∧ f.dst + x.2.1 < 64) →
    (f.ready.map (fun x => (x.1, x.2.1))).Nodup → s.live = true → s.thr.key = f.key →
    RanTo (exec (.longLatencyReturn f.id allLanes (-1)) s) (fun t => t.mem = s.mem ∧
      (f.scalar = false → t.thr.s = s.thr.s ∧ t.thr.level = s.thr.level ∧ (∀ l r x, (l, r, x) ∈ f.ready → seesV t (f.dst + r) l = x) ∧
        (∀ r i, r < 64 → i < 96 → (∀ x ∈ f.ready, ¬ (x.1 = i ∧ f.dst + x.2.1 = r)) → seesV t r i = seesV s r i)) ∧
      (f.scalar = true → (∀ x ∈ f.ready, x.1 = 0) → t.thr.v = s.thr.v ∧
        (∀ r x, (0, r, x) ∈ f.ready → (f.dst + r < 60 ∨ s.thr.mcc = true ∧ f.dst + r < 63) → seesS t (f.dst + r) = x) ∧
        (∀ r, r < 64 → (r < 60 ∨ s.thr.mcc = true) → (∀ x ∈ f.ready, f.dst + x.2.1 ≠ r) → seesS t r = seesS s r) ∧
        seesS t 63 = 0 ∧
        (s.thr.mcc = false → ∀ e, s.thr.level.split? f.sp = some e → ∃ c : Mask,
          t.thr.level = s.thr.level.setSplit f.sp (some { e with cur := c }) ∧ ∀ j, j < 3 →
            (∀ r x, (0, r, x) ∈ f.ready → f.dst + r = 60 + j → maskWord c j = x &&& maskWord e.owned j) ∧
            ((∀ x ∈ f.ready, f.dst + x.2.1 ≠ 60 + j) → maskWord c j = maskWord e.cur j)))))

/-- R137, R142, R151, R166, R170, R172: a queued sector that may go (an ST64's two sectors together) writes its bytes at its
home and nothing else there, clears the poison of a sector it writes whole, makes its cluster the owner of its words and
sends revokes to the clusters that owned them; its check codes are made anew (R167). A line that the home's L2 replaces for
it leaves every L1, its words no longer owned (R154). A store to far memory goes while its port's link is up (R164).
R151, R164, R170: a held sector enters the queue when an entry is free; a revoke is answered, its cluster's words no
longer owned; a store whose revokes are answered, at an expander once acknowledged, leaves the queue. Memory stays. -/
def Obligations.StoresReachTheirHome : Prop :=
  (∀ (s : State) (e : WqEntry), s.wq.find? (fun x => x.core == e.core && x.id == e.id) = some e → e.stage = .queued →
    Memory.wf s.mem = true →
    let es := s.together e
    (es.map WqEntry.id).Nodup → (es.map WqEntry.sector).Nodup →
    (∀ x ∈ es, s.storeMayGo x = true ∧ (∀ y ∈ s.hold, y.id ≠ x.id) ∧ x.type ≠ .cmp ∧ x.core = e.core ∧
      (x.bytes.map Prod.fst).Nodup ∧ ∀ y ∈ x.bytes, y.1 < 32) →
    (e.type = .far → s.portUp (32 * e.sector) = true) →
    let word (x : WqEntry) (w : Nat) : Prop := ∃ y ∈ x.bytes, w = 8 * x.sector + y.1 / 4
    RanTo (exec (.storeReachHome e.core e.id) s) (fun t =>
      t = { s with mem := t.mem, poison := t.poison, codes := t.codes, stale := t.stale, l2 := t.l2, owners := t.owners
                   clusters := t.clusters, wq := t.wq } ∧
      (∀ x ∈ es, ∀ o b, (o, b) ∈ x.bytes → cellRead t.mem (32 * x.sector + o) = b) ∧
      (∀ z, (∀ x ∈ es, ∀ y ∈ x.bytes, z ≠ 32 * x.sector + y.1) → cellRead t.mem z = cellRead s.mem z) ∧
      (∀ z, z ∈ t.poison ↔ (z ∈ s.poison ∨ s.mismatch z = true ∧ ∃ x ∈ es, z = x.sector) ∧
        ∀ x ∈ es, z = x.sector → x.bytes.length < 32) ∧
      (∀ z, z ∈ t.codes ↔ z ∈ s.codes ∧ ∀ x ∈ es, z.1 ≠ x.sector) ∧
      (∀ w, (∃ x ∈ es, word x w) → t.owner w = some (portCluster e.core)) ∧
      (∃ gone : Nat → Bool, (∀ n, gone n = true → n ∉ t.l2.map L2Line.line) ∧
        (∀ w, (∀ x ∈ es, ¬ word x w) → t.owner w = if gone (w / 64) = true then none else s.owner w) ∧
        t.clusters = s.clusters.map (fun c => { c with l1 := c.l1.filter (fun l => !gone (l.line / 4)) })) ∧
      ∃ rs : Nat → List Nat,
        (∀ x ∈ es, ∀ c, c ∈ rs x.id ↔ c ≠ portCluster e.core ∧ ∃ w, word x w ∧ s.owner w = some c) ∧
        t.wq = s.wq.map (fun z => match es.find? (fun x => x.id == z.id) with
          | some x => { z with stage := .home (rs z.id), due := s.dueAt x.type (32 * x.sector) }
          | none => z))) ∧
  ((∀ (s : State) (core : Nat) (e : WqEntry), s.hold.find? (fun x => x.core == core) = some e →
    s.wq.countP (fun x => x.core == core) < 64 → exec (.writeQueueEnter core) s =
      .next { s with wq := s.wq ++ [e], hold := s.hold.filter (fun x => x.id != e.id) }) ∧
  (∀ (s : State) (e : WqEntry) (rs : List Nat), s.wq.find? (fun x => x.core == e.core && x.id == e.id) = some e →
    e.stage = .home rs →
    (∀ c, c ∈ rs → RanTo (exec (.revoke e.core e.id c) s) (fun t => t = { s with clusters := t.clusters, wq := t.wq } ∧
      t.wq = s.wq.map (fun x => if x.id = e.id then { x with stage := .home (rs.erase c) } else x) ∧
      (∀ l ∈ (t.cluster c).l1, ∀ w, l.line = w / 16 → (∃ y ∈ e.bytes, y.1 < 32 ∧ w = 8 * e.sector + y.1 / 4) →
        l.owned.getLsbD (w % 16) = false))) ∧
    (rs = [] → ∀ i, (i = .storeAck e.core e.id ∧ e.type ≠ .far ∨ i = .farStoreAck e.core e.id ∧ e.type = .far ∧
        e.stuck = false ∧ s.portUp (32 * e.sector) = true) →
      RanTo (exec i s) (fun t => t = { s with wq := t.wq, clusters := t.clusters, cores := t.cores } ∧
        t.wq = s.wq.filter (fun x => x.id != e.id)))))

/-- R140, R141, R142, R166: an atomic at its home writes the new value of its function there and nothing else, and its lane
receives the old value; on a poisoned sector it is not performed. Two lanes at one word come one after the other, the lower
first. An atomic waits for the earlier loads of its thread (R193). On a recorded page in replay mode the same comes about
when its gate's turn is its own (R346). -/
def Obligations.AtomicsReplaceOneValue : Prop :=
  ∀ (s : State) (f : Flight) (a : LaneAcc) (fn : Nat), s.flight? f.id = some f → f.work = .atomic fn → fn < 12 →
    Memory.wf s.mem = true →
    let n := if fn = 11 then 8 else 4
    a.pa % n = 0 →
    let m := BitVec.ofNat 32 (natOfBytes (s.homeRead a.pa 4))
    let m' := BitVec.ofNat 32 (natOfBytes (s.homeRead (a.pa + 4) 4))
    let made (m m' : Word) (data : List Word) : List Word :=
      let x := data[0]?.getD 0
      let y := data[1]?.getD 0
      let greater := decide (m'.toNat * 2 ^ 32 + m.toNat < x.toNat * 2 ^ 32 + y.toNat)
      if fn = 11 then (if greater then [y, x] else [m, m'])
      else [([m + x, if x.toInt < m.toInt then x else m, if m.toInt < x.toInt then x else m, m &&& x, m ||| x, m ^^^ x, x,
        if m = x then y else m, (fadd .fp32 .rne 0 m x).v, minmax32 false m x, minmax32 true m x] : List Word)[fn]?.getD 0]
    let new := made m m' a.data
    let old : List Word := if fn = 11 then [m', m] else [m]
    let given (l : Nat) (vals : List Word) : List (Nat × Nat × Word) :=
      if f.count = 0 then [] else ((List.range vals.length).zip vals).map (fun (r, w) => (l, r, w))
    let bytes (ws : List Word) : List Byte := ws.flatMap (fun w => bytesOfNat 4 w.toNat)
    let done (i : Instr) : Prop := RanTo (exec i s) (fun t =>
      BytesWritten s.mem t.mem a.pa (bytes new) ∧ t.thr = s.thr ∧ t.threads = s.threads ∧
      (f.todo.filter (fun b => b.lane != a.lane) ≠ [] ∨ f.count ≠ 0 → ∃ g, t.flight? f.id = some g ∧
        g.todo.map LaneAcc.lane = (f.todo.map LaneAcc.lane).filter (· != a.lane) ∧
        g.ready = f.ready ++ given a.lane old))
    (Ready s f a false → s.behindStore f a = false → s.loadsBefore f.key f.op = true →
      (∀ b ∈ f.todo, b.lane < a.lane → b.wait ≠ none) → (f.todo.map LaneAcc.lane).Nodup → a.page.rec_ = false →
      (∀ b, f.todo = [a, b] → (∀ g ∈ s.flights, g.id = f.id → g = f) → a.page.pa = a.pa → b.lane < 96 → a.lane < b.lane → b.pa = a.pa → b.page = a.page → b.wait = none → b.gated = none →
        s.poisoned a.pa n = false → RanTo (exec (.atomicApply f.id a.lane) s) (fun t =>
          let m2 := if fn = 11 then new[1]?.getD 0 else m'
          BytesWritten s.mem t.mem a.pa (bytes (made (new[0]?.getD 0) m2 b.data)) ∧ t.thr = s.thr ∧
          (f.count ≠ 0 → ∃ g, t.flight? f.id = some g ∧ g.todo = [] ∧
            g.ready = f.ready ++ given a.lane old ++ given b.lane (if fn = 11 then [m2, new[0]?.getD 0] else [new[0]?.getD 0])))) ∧
      ((∀ b ∈ f.todo, b.lane ≠ a.lane → b.pa / 32 ≠ a.pa / 32) → s.poisoned a.pa n = false → done (.atomicApply f.id a.lane)) ∧
      ((∀ b ∈ f.todo, b.lane ≠ a.lane → b.pa / 32 ≠ a.pa / 32) → s.poisoned a.pa n = true →
        RanTo (exec (.atomicApply f.id a.lane) s) (fun t => t.mem = s.mem ∧ t.thr = s.thr))) ∧
    (∀ g r gate, f.todo.find? (fun b => b.lane == a.lane) = some a → a.gated = some false → a.page.rec_ = true →
      a.page.ds = false → s.group? f.key.wg = some g → g.env.dmode = 3 → s.region? g.env.rcb = some r →
      s.poisoned a.pa n = false →
      s.gateTurn r a.va (s.sliceOf a.pa) (s.dispatchOf f.key).1 (s.dispatchOf f.key).2 = .now gate →
      done (.orderGateAdmit f.id a.lane))

/-- R135, R158, R187, R363: the checks of a memory word in their order. Where some lane fails a step that no lane failed
before, the word traps with that step's class, the cause and address of its lowest failing address, and the failing lanes:
ALIGN; PROT with cause 1 for an invalid address, 0 for a page that forbids the access; LOCKHIT with the entry's number. That
ctl.elanes holds every lane that failed the step is the model's reading (log entry 32). -/
def Obligations.AccessChecksTrapInOrder : Prop :=
  ∀ (s : State) (e : Split) (d a : Reg) (p : BitVec 5) (h : BitVec 2), CanTrap s e →
    let word (i : Instr) (k : Acc) (n : Nat) (writes : Bool) (scalar : Bool := false) : Prop :=
      let lanes := if scalar then [96] else lanesIn s.active
      let va := if scalar then scaVa s a p else vecVa s a p
      let mis (l : Nat) : Option Nat := if va l % n = 0 then none else some 0
      let bad (l : Nat) : Option Nat :=
        if 2 ^ 57 ≤ va l then some 1
        else match s.waveWalk s.thr.env.ptroot (va l) with
          | .page g => if g.permits k then none else some 0
          | .fault _ => none
      let lock (l : Nat) : Option Nat := s.lockHit false writes (va l) n
      let stop (cls : Nat) (f : Nat → Option Nat) : Prop := ∀ l c, l ∈ lanes → f l = some c →
        (∀ m ∈ lanes, f m ≠ none → va l ≤ va m) →
        TrapsAtGroup s i cls c (BitVec.ofNat 64 (va l))
          (if scalar then s.active else maskOf (fun m => decide (m ∈ lanes) && (f m).isSome))
      stop 8 mis ∧ ((∀ l ∈ lanes, mis l = none) → stop 5 bad) ∧
        ((∀ l ∈ lanes, mis l = none) → (∀ l ∈ lanes, bad l = none) → stop 3 lock)
    word (.ldb d a p h) .load 1 false ∧ word (.ldbu d a p h) .load 1 false ∧ word (.ldh d a p h) .load 2 false ∧
    word (.ldhu d a p h) .load 2 false ∧ word (.ldw d a p h) .load 4 false ∧ word (.ldd d a p h) .load 8 false ∧
    word (.ldq d a p h) .load 16 false ∧ word (.stb d a p h) .store 1 true ∧ word (.sth d a p h) .store 2 true ∧
    word (.stw d a p h) .store 4 true ∧ word (.std d a p h) .store 8 true ∧ word (.stq d a p h) .store 16 true ∧
    word (.st64 d a p h) .store 64 true ∧ word (.aadd d a p h) .atom 4 true ∧ word (.amin d a p h) .atom 4 true ∧
    word (.amax d a p h) .atom 4 true ∧ word (.aand d a p h) .atom 4 true ∧ word (.aor d a p h) .atom 4 true ∧
    word (.axor d a p h) .atom 4 true ∧ word (.axch d a p h) .atom 4 true ∧ word (.acas d a p h) .atom 4 true ∧
    word (.afadd d a p h) .atom 4 true ∧ word (.afmin d a p h) .atom 4 true ∧ word (.afmax d a p h) .atom 4 true ∧
    word (.amxi d a p h) .atom 8 true ∧ word (.sldw d a p h) .load 4 false true ∧ word (.sldd d a p h) .load 8 false true ∧
    word (.sldq d a p h) .load 16 false true ∧ word (.sstw d a p h) .store 4 true true ∧
    word (.sstd d a p h) .store 8 true true

/-- R159, R160, R162: what becomes of the lanes of a word that lie on unmapped pages. A load or atomic parks its split at the
word on those lanes, each with an open fault record of its 64 KiB block, and sends the requests of the others. A store goes
on: those lanes' bytes enter the replay queue, in one entry for each block, which waits for its record, and the other lanes'
the write queue; with no entry of the replay queue free its split parks at the word and nothing is done. -/
def Obligations.UnmappedLanesPark : Prop :=
  ∀ (s : State) (e : Split) (d a : Reg) (p : BitVec 5) (h : BitVec 2) (miss : Nat → Bool) (pg : Nat → Page),
    s.split = some e → e.parked = none → s.ctx.part = none →
    (∀ r ∈ s.faults, r.id < s.nextId) → (s.cluster s.myCluster).locks = [] →
    let lanesOf (scalar : Bool) : List Nat := if scalar then [96] else lanesIn s.active
    let vaOf (scalar : Bool) : Nat → Nat := if scalar then scaVa s a p else vecVa s a p
    let met (scalar : Bool) (k : Acc) (n : Nat) : Prop :=
      (∀ l ∈ lanesOf scalar, vaOf scalar l % n = 0 ∧ vaOf scalar l < 2 ^ 57) ∧
      (∀ l ∈ lanesOf scalar, miss l = true → ∃ c, s.waveWalk s.thr.env.ptroot (vaOf scalar l) = .fault c) ∧
      (∀ l ∈ lanesOf scalar, miss l = false →
        s.waveWalk s.thr.env.ptroot (vaOf scalar l) = .page (pg l) ∧ (pg l).permits k = true ∧
        (k ≠ .load → s.thr.env.deterministic = true → s.thr.mcc = false → (pg l).ds = false)) ∧
      (∃ l ∈ lanesOf scalar, miss l = true)
    let recorded (t : State) (va bit rec : Nat) : Prop :=
      ∃ r ∈ t.faults, r.id = rec ∧ r.va = va / 65536 * 65536 ∧ r.types.getLsbD bit = true
    let parks (i : Instr) (scalar : Bool) (k : Acc) (n bit : Nat) (work : Work) (count : Nat) (data : Nat → List Word) : Prop :=
      let lanes := lanesOf scalar
      let va := vaOf scalar
      met scalar k n → s.rq = [] →
        (k = .atom → s.holdsLadle = true → ∀ l ∈ lanes, miss l = false → (pg l).rec_ = false) →
        RanTo (exec i s) (fun t => t.mem = s.mem ∧ t.ctx.out = .stall ∧ t.wq = s.wq ∧ t.rq = [] ∧
          (∃ w, t.split = some { e with parked := some w } ∧ w.at_ = ⟨s.ctx.pc, s.ctx.slot⟩ ∧
            w.lanes = (if scalar then s.active else maskOf (fun l => decide (l ∈ lanes) && miss l)) ∧
            ∀ l ∈ lanes, miss l = true → ∃ x ∈ w.waits, recorded t (va l) bit x.1) ∧
          t.flights = (inFlight s work 0 scalar d count h
            (requests s (lanes.filter (fun l => !miss l)) va pg data)).flights)
    let queues (i : Instr) (scalar : Bool) (n : Nat) : Prop :=
      let lanes := lanesOf scalar
      let va := vaOf scalar
      let gone := lanes.filter miss
      met scalar .store n →
        (s.rq = [] → (gone.map (fun l => va l / 65536)).dedup.length ≤ 32 → RanTo (exec i s) (fun t =>
          t = { s with nextId := t.nextId, wq := t.wq, hold := t.hold, cores := t.cores, rq := t.rq, faults := t.faults
                       events := t.events, plat := t.plat
                       thr := { s.thr with ctl := { s.thr.ctl with shash := t.thr.ctl.shash } } } ∧
          Queued s t n (lanes.filter (fun l => !miss l)) pg (dataByte s d scalar) ∧
          (∀ x ∈ t.rq, x.key = s.thr.key ∧ x.core = s.port ∧ x.work = none ∧ x.op = s.nextId ∧ recorded t x.page 1 x.waits ∧
            ∀ y ∈ x.lanes, ∃ l ∈ gone, y = (l, va l, (List.range n).map (dataByte s d scalar l)) ∧
              x.page = va l / 65536 * 65536) ∧
          (∀ l ∈ gone, ∃ x ∈ t.rq, (l, va l, (List.range n).map (dataByte s d scalar l)) ∈ x.lanes) ∧
          (t.rq.map RqEntry.page).Nodup)) ∧
        (32 ≤ s.rq.countP (fun x => x.core == s.port) → ParksHere s e i)
    let load (i : Instr) (n : Nat) (signed scalar : Bool) : Prop :=
      parks i scalar .load n 0 (.load n signed scalar) (max 1 (n / 4)) (fun _ => [])
    let atom (i : Instr) (fn k : Nat) : Prop :=
      let src := if d.toNat = 63 then a.toNat + 1 else d.toNat
      parks i false .atom (if fn = 11 then 8 else 4) 2 (.atomic fn) (if d.toNat = 63 then 0 else if fn = 11 then 2 else 1)
        (fun l => (List.range k).map (fun j => laneOf (s.rdVn (src + j)) l))
    load (.ldb d a p h) 1 true false ∧ load (.ldbu d a p h) 1 false false ∧ load (.ldh d a p h) 2 true false ∧
    load (.ldhu d a p h) 2 false false ∧ load (.ldw d a p h) 4 false false ∧ load (.ldd d a p h) 8 false false ∧
    load (.ldq d a p h) 16 false false ∧ load (.sldw d a p h) 4 false true ∧ load (.sldd d a p h) 8 false true ∧
    load (.sldq d a p h) 16 false true ∧
    atom (.aadd d a p h) 0 1 ∧ atom (.amin d a p h) 1 1 ∧ atom (.amax d a p h) 2 1 ∧ atom (.aand d a p h) 3 1 ∧
    atom (.aor d a p h) 4 1 ∧ atom (.axor d a p h) 5 1 ∧ atom (.axch d a p h) 6 1 ∧ atom (.acas d a p h) 7 2 ∧
    atom (.afadd d a p h) 8 1 ∧ atom (.afmin d a p h) 9 1 ∧ atom (.afmax d a p h) 10 1 ∧ atom (.amxi d a p h) 11 2 ∧
    queues (.stb d a p h) false 1 ∧ queues (.sth d a p h) false 2 ∧ queues (.stw d a p h) false 4 ∧
    queues (.std d a p h) false 8 ∧ queues (.stq d a p h) false 16 ∧ queues (.st64 d a p h) false 64 ∧
    queues (.sstw d a p h) true 4 ∧ queues (.sstd d a p h) true 8

/-- R143, R144, R166: a scratch word whose lanes lie in the window, aligned, unlocked and not poisoned. A load's results are
the bytes at window + offset; a store writes them, the highest lane's where lanes meet; an atomic applies its lanes in
ascending order, each lane's result the value before its own. No virtual memory changes. That these words act when they
issue is the model's reading (log entry 47).
R145: LPUSH appends each active lane's word, in ascending order, while the FIFO holds fewer than 16,384, and answers 1
or 0; LPOP hands out the oldest entries in the same order, with 1, and 0 where none is left. A bank not in FIFO mode raises
PROT. (Entries here carry no poison.) That the PROT of a bank not in FIFO mode has cause 0 is the model's reading (log entry
48). -/
def Obligations.ClusterMemoryWordsReachTheirBytes : Prop :=
  (∀ (s : State) (d a : Reg) (p : BitVec 5),
    let c := s.cluster s.myCluster
    let lanes := lanesIn s.active
    let off (l : Nat) : Nat := (s.rdSn (2 * p.toNat) + laneOf (s.rdV a) l).toNat
    let at_ (l : Nat) : Nat := s.window s.thr.key.wg + off l
    let fits (n : Nat) (writes : Bool) : Prop := ∀ l ∈ lanes, off l % n = 0 ∧ off l + n ≤ s.thr.kern.clmBytes ∧
      lockFree s true writes (at_ l) n ∧ ∀ x ∈ c.poison, 32 * x + 32 ≤ at_ l ∨ at_ l + n ≤ 32 * x
    let word (m : List Host.Cell) (x : Nat) : Word := BitVec.ofNat 32 (natOfBytes (cellsRead m x 4))
    let flies (u : State) (count : Nat) (ready : List (Nat × Nat × Word)) : State :=
      u.fly (u.newFlight .result 0 false d.toNat count 0 [] ready)
    let load (i : Instr) (k : Nat) : Prop := fits (4 * k) false → exec i s =
      .next (flies s k (lanes.flatMap (fun l => (List.range k).map (fun r => (l, r, word c.clm (at_ l + 4 * r))))))
    let store (i : Instr) (k : Nat) : Prop := fits (4 * k) true → Memory.wf c.clm = true → RanTo (exec i s) (fun t =>
      t = { s with clusters := t.clusters } ∧ (∀ o, o ≠ s.myCluster → t.cluster o = s.cluster o) ∧
      (∀ x, (∀ l ∈ lanes, x < at_ l ∨ at_ l + 4 * k ≤ x) → cellRead (t.cluster s.myCluster).clm x = cellRead c.clm x) ∧
      (∀ l ∈ lanes, ∀ j, j < 4 * k → (∀ m ∈ lanes, l < m → at_ l + j < at_ m ∨ at_ m + 4 * k ≤ at_ l + j) →
        cellRead (t.cluster s.myCluster).clm (at_ l + j) = dataByte s d false l j))
    let atom (i : Instr) (f : Word → Word → Word) : Prop := fits 4 true → Memory.wf c.clm = true → (s.window s.thr.key.wg) % 4 = 0 →
      let upTo (x : Nat) (q : Nat → Bool) : Word :=
        (lanes.filter (fun l => q l && at_ l == x)).foldl (fun w l => f w (laneOf (s.rdV d) l)) (word c.clm x)
      RanTo (exec i s) (fun t => ∃ u, t = flies u 1 (lanes.map (fun l => (l, 0, upTo (at_ l) (fun m => decide (m < l))))) ∧
        u = { s with clusters := u.clusters } ∧ (∀ o, o ≠ s.myCluster → u.cluster o = s.cluster o) ∧
        (∀ l ∈ lanes, word (u.cluster s.myCluster).clm (at_ l) = upTo (at_ l) (fun _ => true)) ∧
        ∀ x, (∀ l ∈ lanes, x < at_ l ∨ at_ l + 4 ≤ x) → cellRead (u.cluster s.myCluster).clm x = cellRead c.clm x)
    load (.lldw d a p) 1 ∧ load (.lldq d a p) 4 ∧ store (.lstw d a p) 1 ∧ store (.lstq d a p) 4 ∧
    atom (.laadd d a p) (fun m x => m + x) ∧ atom (.lamin d a p) (fun m x => if x.toInt < m.toInt then x else m) ∧
    atom (.lamax d a p) (fun m x => if m.toInt < x.toInt then x else m) ∧ atom (.laxch d a p) (fun _ x => x)) ∧
  (∀ (s : State) (d a : Reg) (p : BitVec 5),
    let c := s.cluster s.myCluster
    let b := (s.rdSn (2 * p.toNat)).toNat % 32
    let q := c.fifo b
    let lanes := lanesIn s.active
    let flies (u : State) (r : Reg) (ready : List (Nat × Nat × Word)) : State :=
      u.fly (u.newFlight .result 0 false r.toNat 1 0 [] ready)
    (∀ e, CanTrap s e → ((c.banks[b]?.map Bank.mode).getD 0) ≠ 2 →
      TrapsAtGroup s (.lpush d a p) 5 0 ∧ TrapsAtGroup s (.lpop d a p) 5 0) ∧
    ((c.banks[b]?.map Bank.mode).getD 0 = 2 → lockFree s true true (65536 * b) 65536 →
      let pushed := lanes.take (16384 - q.length)
      exec (.lpush d a p) s = .next (flies
        (s.setCluster (c.setFifo b (q ++ pushed.map (fun l => (laneOf (s.rdV d) l, false)))))
        a (lanes.map (fun l => (l, 0, if l ∈ pushed then 1 else 0)))) ∧
      ((∀ x ∈ q, x.2 = false) →
        let served := lanes.zip (q.map Prod.fst)
        let u := s.setCluster (c.setFifo b (q.drop lanes.length))
        let v := if d = a then u else flies u d (served.map (fun (l, x) => (l, 0, x)))
        exec (.lpop d a p) s = .next (flies v a (lanes.map (fun l => (l, 0, if l ∈ served.map Prod.fst then 1 else 0)))))))

/-- R175: what the waits of REL and ACQ mean. For REL no earlier access of the wave waits to be performed, none of its earlier
stores is queued, held or in the replay queue, and every discarded update has been acknowledged. For ACQ every earlier load and
atomic has returned its value, to its registers.
R174, R175, R176: REL, ACQ, ACQREL, FSMP and FBVH park their split until the wave's earlier accesses have completed;
then REL completes, ACQ and ACQREL acquire, FSMP empties the core's sampler and decoder-table caches, FBVH takes the
region's nodes out of the node caches. That "has returned its value" asks more than "has been read", and that a word whose home
has taken a store without acknowledging it counts as not owned, are the model's readings (log entries 116, 44). -/
def Obligations.FencesWaitThenAct : Prop :=
  (∀ (s : State) (t : Thread), s.thread? t.key = some t →
    (s.loadsDone t.key = true →
      (∀ f ∈ s.flights, f.key = t.key → f.op < s.opId →
        ((∃ n b c, f.work = .load n b c) ∨ (∃ fn, f.work = .atomic fn) ∨ (∃ b, f.work = .estLoad b) ∨ f.work = .cmpLoad ∨
          f.work = .crep ∨ f.work = .result) → f.todo = [] ∧ f.ready = []) ∧
      ∀ e ∈ t.allSplits, ∀ w ∈ e.words, w.id < s.opId → w.reads = false) ∧
    (s.released t.key = true →
    (∀ f ∈ s.flights, f.key = t.key → f.op < s.opId → f.todo ≠ [] → (∃ fn p d, f.work = .ray fn p d) ∨ f.work = .format ∨ f.work = .result) ∧
    (∀ x ∈ s.wq ++ s.hold, x.key = t.key → s.opId ≤ x.op) ∧ (∀ x ∈ s.rq, x.key = t.key → s.opId ≤ x.op) ∧ t.drops = 0 ∧
    ∀ e ∈ t.allSplits, ∀ w ∈ e.words, w.id < s.opId → w.reads = false ∧ w.writes = false)) ∧
  (∀ (s : State) (e : Split), s.split = some e → e.parked = none →
    let k := s.thr.key
    (s.released k = false → ∀ i ∈ [Instr.rel, .acqrel, .fsmp, .fbvh], ParksInOrder s e i) ∧
    (s.loadsDone k = false → ParksInOrder s e .acq) ∧
    (s.loadsDone k = true → RanTo (exec .acq s) (Acquired s)) ∧
    (s.released k = true → exec .rel s = .next s ∧ RanTo (exec .acqrel s) (Acquired s) ∧
      RanTo (exec .fsmp s) (fun t => t = { s with cores := t.cores } ∧ (t.coreOf s.thr.core).sampler = [] ∧
        (t.coreOf s.thr.core).tables = [] ∧ (t.coreOf s.thr.core).scalar = (s.coreOf s.thr.core).scalar ∧
        ∀ c, c ≠ s.thr.core → t.coreOf c = s.coreOf c) ∧
      exec .fbvh s = .next { s with nodeCache := s.nodeCache.filter (fun n => n.1 != s.thr.env.rcb) }))

/-- R173, R177, R178: the ranged words act on n + 1 lines of 256 bytes from the line of the base, which a word that waits
keeps. PREF brings the mapped lines whose memory answers into the L2, the last of them for certain and, where no set and no
budget of ways can run full (R155), all. FFAR, once the wave's far stores are acknowledged, takes the far lines of the range
out of the L2 and the L1s; INVL, once the wave's reads have returned, makes the cluster's unowned words in the range
invalid. An address of 2^57 or above in the range of FFAR or INVL raises PROT with cause 1 and nothing is invalidated. What
PREF does beside the lines it brings in, what INVL waits for, and which words count as owned, are the model's readings (log
entries 57, 116, 44). -/
def Obligations.RangedWordsCoverTheirLines : Prop :=
  ∀ (s : State) (e : Split) (h : BitVec 2) (p : BitVec 5) (n : BitVec 8), s.split = some e → e.parked = none →
    let base : BitVec 64 := (s.ctx.part.bind ParkedWord.base).getD (s.rdSn (2 * p.toNat + 1) ++ s.rdSn (2 * p.toNat))
    let line (i : Nat) : Nat := (base.toNat / 256 * 256 + 256 * i) % 2 ^ 64
    let covers (q : Page → Prop) (l : Nat) : Prop := ∃ i g, i ≤ n.toNat ∧ line i < 2 ^ 57 ∧
      s.walk s.thr.env.ptroot (line i) = .page g ∧ q g ∧ l = g.pa / 256
    let waits (i : Instr) : Prop := ParksInOrder s e i ∧ RanTo (exec i s) (fun t => ∃ w, (t.split.bind Split.parked) = some w ∧
      w.base = some base)
    let answers (g : Page) : Prop := s.linked g = true
    RanTo (exec (.pref h p n) s) (fun t => t = { s with l2 := t.l2, owners := t.owners, stale := t.stale, clusters := t.clusters } ∧
      (∀ x ∈ t.l2, (∃ y ∈ s.l2, y.line = x.line) ∨ covers answers x.line) ∧
      (∀ g, line n.toNat < 2 ^ 57 → s.walk s.thr.env.ptroot (line n.toNat) = .page g → answers g →
        ∃ x ∈ t.l2, x.line = g.pa / 256) ∧
      (s.l2.length + n.toNat + 1 ≤ 16 → s.l2.length + n.toNat + 1 ≤ s.thr.env.l2ways →
        t = { s with l2 := t.l2 } ∧ ∀ l, (∃ x ∈ t.l2, x.line = l) ↔ (∃ x ∈ s.l2, x.line = l) ∨ covers answers l)) ∧
    (CanTrap s e → ∀ j, j ≤ n.toNat → 2 ^ 57 ≤ line j → (∀ i, i ≤ n.toNat → 2 ^ 57 ≤ line i → line j ≤ line i) →
      TrapsAtGroup s (.ffar p n) 5 1 (BitVec.ofNat 64 (line j)) ∧ TrapsAtGroup s (.invl p n) 5 1 (BitVec.ofNat 64 (line j))) ∧
    ((∀ i, i ≤ n.toNat → line i < 2 ^ 57) →
      let far := covers (fun g => g.type = .far)
      (s.farStoresBefore s.thr.key s.opId = false → waits (.ffar p n)) ∧
      (s.farStoresBefore s.thr.key s.opId = true → RanTo (exec (.ffar p n) s) (fun t =>
        t = { s with l2 := t.l2, owners := t.owners, stale := t.stale, clusters := t.clusters } ∧
        (∀ x, x ∈ t.l2 ↔ x ∈ s.l2 ∧ ¬ far x.line) ∧ (∀ x, x ∈ t.stale ↔ x ∈ s.stale ∧ ¬ far (x.1 / 256)) ∧
        ∀ c x, x ∈ (t.cluster c).l1 ↔ x ∈ (s.cluster c).l1 ∧ ¬ far (x.line / 4))) ∧
      (s.loadsDone s.thr.key = false → waits (.invl p n)) ∧
      (s.loadsDone s.thr.key = true → RanTo (exec (.invl p n) s) (fun t =>
        t = { s with clusters := t.clusters, cores := t.cores } ∧
        (∃ m : Nat → BitVec 16, (∀ l i, i < 16 → ((m l).getLsbD i = true ↔ Unsettled s l i)) ∧
          ∀ x, x ∈ (t.cluster s.myCluster).l1 ↔ ∃ y ∈ (s.cluster s.myCluster).l1,
            (covers (fun _ => True) (y.line / 4) ∧ x = { y with valid := y.valid &&& y.owned &&& ~~~m y.line } ∨
              ¬ covers (fun _ => True) (y.line / 4) ∧ x = y)) ∧
        ∀ x ∈ (t.coreOf s.thr.core).scalar, ¬ covers (fun _ => True) (x.line / 4))))

/-- R174, R180 to R184, R342: BARA, released, sets the wave's bit in the barrier's mask; the phase rises and the mask clears
when every participant has arrived and the counter is zero. BAR then goes on to acquire if its phase is over, else it parks
with that phase. BARW goes on to acquire unless the wave's latest arrival is in the phase that still runs; the acquire part
waits for the wave's earlier reads, then leaves no word of the cluster's L1 valid that is not owned. BARX adds sN. A second
arrival in one phase, and a wave that is not released, wait. A wait for a phase does not hold back the wave's other splits.
An arrival, BARW and BARX are hand-on points for a holder of the Ladle. Which part of a barrier word is an ordering word,
and what its acquire part waits for, are the model's readings (log entries 115, 116). -/
def Obligations.BarrierWordsArriveAndWait : Prop :=
  ∀ (s : State) (e : Split) (b : BitVec 4) (n : Reg) (g : Workgroup) (x : Barrier), s.split = some e → e.parked = none →
    s.stage = 0 → s.group? s.thr.key.wg = some g → g.bars[b.toNat]? = some x → s.thr.key.ix < 17 →
    (∀ h ∈ s.groups, h.id = s.thr.key.wg → h = g) →
    let me : BitVec 17 := (1 : BitVec 17) <<< s.thr.key.ix
    let full := (List.range 17).countP (fun i => (x.arrived ||| me).getLsbD i) = x.expect ∧ x.counter = 0
    let bar (t : State) : Option Barrier := (t.group? s.thr.key.wg).bind (fun g => g.bars[b.toNat]?)
    let others (t : State) : Prop := t.thr.s = s.thr.s ∧ t.thr.v = s.thr.v ∧ t.flights = s.flights ∧ t.wq = s.wq
    (s.released s.thr.key = false → ParksInOrder s e (.bar b) ∧ ParksInOrder s e (.bara b)) ∧
    (s.released s.thr.key = true → x.arrived.getLsbD s.thr.key.ix = true →
      ParksInOrder s e (.bar b) false ∧ ParksInOrder s e (.bara b) false) ∧
    (s.released s.thr.key = true → x.arrived.getLsbD s.thr.key.ix = false →
      (∀ i ∈ [Instr.bar b, .bara b], RanTo (exec i s) (fun t => others t ∧
        (full → bar t = some { x with phase := x.phase + 1, arrived := 0 }) ∧
        (¬ full → bar t = some { x with arrived := x.arrived ||| me }) ∧
        t.thr.arrived[b.toNat]? = some (some x.phase))) ∧
      (¬ full → RanTo (exec (.bar b) s) (fun t => t.ctx.out = .stall ∧ ∃ w, (t.split.bind Split.parked) = some w ∧
        w.phase = x.phase ∧ w.order = true ∧ w.ordering = false)) ∧
      (full → s.loadsDone s.thr.key = true → RanTo (exec (.bar b) s) (fun t => t.ctx.out = s.ctx.out ∧
        ∀ l ∈ (t.cluster s.myCluster).l1, l.valid &&& ~~~l.owned = 0)) ∧
      (full → s.loadsDone s.thr.key = false → RanTo (exec (.bar b) s) (fun t => t.ctx.out = .stall ∧
        ∃ w, (t.split.bind Split.parked) = some w ∧ w.order = true ∧ w.ordering = true))) ∧
    (s.holdsLadle = true →
      let leaves (i : Instr) : Prop := RanTo (exec i s) (fun t => ∃ r, t.region? s.thr.env.rcb = some r ∧ r.ladle.leaving = true)
      leaves (.barw b) ∧ leaves (.barx b n) ∧
      (s.released s.thr.key = true → x.arrived.getLsbD s.thr.key.ix = false → leaves (.bar b) ∧ leaves (.bara b))) ∧
    let s' := s.handOn s.thr.key s.thr.env.rcb
    exec (.barw b) s = exec (.barw b) s' ∧
    (s.thr.arrived[b.toNat]? ≠ some (some x.phase) →
      (s.loadsDone s.thr.key = true → RanTo (exec (.barw b) s') (Acquired s')) ∧
      (s.loadsDone s.thr.key = false → ParksInOrder s' e (.barw b))) ∧
    (s.thr.arrived[b.toNat]? = some (some x.phase) → ParksInOrder s' e (.barw b) false) ∧
    RanTo (exec (.barx b n) s) (fun t =>
      let ends := (List.range 17).countP (fun i => x.arrived.getLsbD i) = x.expect ∧ x.expect ≠ 0 ∧ x.counter + s.rdS n = 0
      others t ∧ (¬ ends → bar t = some { x with counter := x.counter + s.rdS n }) ∧
        (ends → bar t = some { x with phase := x.phase + 1, arrived := 0, counter := 0 }))

/-- R339, R340: OAPP answers the channel's counter and adds sN to it once every lower workgroup has claimed, declined or
retired, and parks until then; a second claim answers 0xFFFFFFFF; ODECL declines. That a parked OAPP keeps the operand it
issued with, and returns as a result of the memory class, are the model's readings (log entries 27, 29).
R340: a parked OAPP claims, in the name of the word that parked, once every lower workgroup is settled. -/
def Obligations.OrderedAppendKeepsWorkgroupOrder : Prop :=
  (∀ (s : State) (d n : Reg) (c : BitVec 4) (ds : Dispatch) (ch : Channel), s.dispatch? s.thr.disp = some ds →
    ds.chans[c.toNat]? = some ch → s.stage = 0 → s.holdsLadle = false → (∀ x ∈ s.dispatches, x.id = ds.id → x = ds) →
    let ix := s.thr.index.toNat
    let settled (i : Nat) : Prop := i ∈ ch.claimed ∨ i ∈ ch.declined
    let mayClaim : Prop := ∀ i, i < ix → settled i ∨ i ∈ ds.retired
    let chan (t : State) : Option Channel := (t.dispatch? s.thr.disp).bind (fun x => x.chans[c.toNat]?)
    (settled ix → Answers s (.oapp d n c) 0 true d 1 [(0, 0, 0xFFFFFFFF)] Alone) ∧
    (¬ settled ix → mayClaim → Answers s (.oapp d n c) 0 true d 1 [(0, 0, ch.counter)] (fun s u =>
      u = { s with dispatches := u.dispatches } ∧
      chan u = some { ch with counter := ch.counter + s.rdS n, claimed := ix :: ch.claimed })) ∧
    (¬ settled ix → ¬ mayClaim → ∀ e, s.split = some e → e.parked = none → RanTo (exec (.oapp d n c) s) (fun t =>
      t.ctx.out = .stall ∧ t.dispatches = s.dispatches ∧ ∃ w, t.split = some { e with parked := some w } ∧ w.stage = 7)) ∧
    RanTo (exec (.odecl c) s) (fun t => t = { s with dispatches := t.dispatches } ∧
      (settled ix → chan t = some ch) ∧ (¬ settled ix → chan t = some { ch with declined := ix :: ch.declined }))) ∧
  (∀ (s : State) (e : Split) (w : ParkedWord) (sp : BitVec 2) (ds : Dispatch) (ch : Channel) (c : BitVec 4) (n d : Reg),
    s.live = true → s.thr.level.split? sp = some e → e.parked = some w → e.also = none → w.stage = 7 →
    w.phase = c ++ n ++ d → s.running s.thr = true → s.dispatch? s.thr.disp = some ds → ds.chans[c.toNat]? = some ch →
    (∀ x ∈ s.dispatches, x.id = ds.id → x = ds) → s.thr.index.toNat ∉ ch.claimed → s.thr.index.toNat ∉ ch.declined →
    (∀ i, i < s.thr.index.toNat → i ∈ ch.claimed ∨ i ∈ ch.declined ∨ i ∈ ds.retired) →
    RanTo (exec (.oappGrant s.thr.key sp) s) (fun t => t.mem = s.mem ∧
      ((t.dispatch? s.thr.disp).bind (fun x => x.chans[c.toNat]?)).map Channel.counter =
        some (ch.counter + s.thr.rdS sp s.stamp n.toNat) ∧
      (∃ f ∈ t.flights, f.dst = d.toNat ∧ f.scalar = true ∧ f.ready = [(0, 0, ch.counter)]) ∧
      ∀ x, t.thr.level.split? sp = some x → x.parked = none))

/-- R341 to R344: in a region that is not deterministic LGET and LPASS do nothing. The holder's LGET opens its visit, another
wave's parks, and so does the holder's own once its visit is over, which that LGET ends; LPASS makes the holder leave (in replay mode with its visit's count met). A visit that is over ends: with no
wave waiting the Ladle has no holder, and under record-mode rules a waiting wave becomes its holder. A holder idle for
2^20 clocks in record mode leaves.
R346: a gate with an atomic waiting and no admission for REPTMO microseconds, or one whose expected workgroup has retired,
falls back to arrival order, the region diverges with cause 3, and the lanes that found the slice's queue full try again; else it
waits on. -/
def Obligations.LadleAndGatesOrderTheirWaves : Prop :=
  ((∀ (s : State), s.thr.mcc = false →
    (s.thr.env.deterministic = false → exec .lget s = .next s) ∧
    (s.holdsLadle = false → exec .lpass s = .next s) ∧
    (∀ r, s.region? s.thr.env.rcb = some r → (∀ x ∈ s.regions, x.rcb = r.rcb → x = r) → s.thr.env.deterministic = true →
      let ladle (l : Ladle) (t : State) : Prop := t = { s with regions := t.regions } ∧
        t.region? s.thr.env.rcb = some { r with ladle := l }
      (r.ladle.holder = some s.thr.key → r.ladle.leaving = false →
        (s.visitOver r s.thr.key = false ∨ (∃ p, s.ctx.part = some p ∧ p.ds = true ∧ p.stage = 0) →
          RanTo (exec .lget s) (ladle { r.ladle with opened := true })) ∧
        (r.env.dmode ≠ 3 ∨ r.ladle.fallback = true ∨ r.ladle.want ≤ r.ladle.count →
          RanTo (exec .lpass s) (ladle { r.ladle with leaving := true }))) ∧
      (r.ladle.holder = some s.thr.key → s.visitOver r s.thr.key = true → s.ctx.part = none →
        ∀ e, s.split = some e → e.parked = none → RanTo (exec .lget s) (fun t => t.ctx.out = .stall ∧
          (∃ w, t.split = some { e with parked := some w } ∧ w.ds = true ∧ w.phase = 1) ∧
          ∃ q, t.region? s.thr.env.rcb = some q ∧ q.ladle.holder = none)) ∧
      (r.ladle.holder ≠ some s.thr.key → ∀ e, s.split = some e → e.parked = none → RanTo (exec .lget s) (fun t =>
        t.ctx.out = .stall ∧ ∃ w, t.split = some { e with parked := some w } ∧ w.ds = true ∧ w.phase = 1)))) ∧
  (∀ (s : State) (r : Region) (k : TKey), s.region? r.rcb = some r → (∀ x ∈ s.regions, x.rcb = r.rcb → x = r) →
    r.env.deterministic = true → r.ladle.holder = some k → (∀ x ∈ s.rq, x.ladle = false) →
    (s.visitOver r k = true → s.ladleWaiters r.rcb = [] →
      RanTo (exec (.ladleHandon r.rcb) s) (fun t => t.thr = s.thr ∧ ∃ q, t.region? r.rcb = some q ∧
        q.ladle = { r.ladle with holder := none, opened := false, leaving := false })) ∧
    (s.visitOver r k = true → r.env.dmode = 2 ∨ r.ladle.fallback = true → ∀ w, s.ladleWaiters r.rcb = [w] →
      RanTo (exec (.ladleHandon r.rcb) s) (fun t => t.thr = s.thr ∧ ∃ q, t.region? r.rcb = some q ∧
        q.ladle.holder = some w.key ∧ q.ladle.count = 0 ∧ q.ladle.leaving = false ∧ q.ladle.last = some (s.logical w))) ∧
    (r.env.dmode = 2 → r.ladle.leaving = false → r.ladle.since + 2 ^ 20 ≤ s.clock →
      RanTo (exec (.ladleVisitTimeout r.rcb) s) (fun t => t = { s with regions := t.regions } ∧
        t.region? r.rcb = some { r with ladle := { r.ladle with leaving := true } })))) ∧
  (∀ (s : State) (r : Region) (g : Gate), s.region? r.rcb = some r → (∀ x ∈ s.regions, x.rcb = r.rcb → x = r) →
    r.gate? g.addr = some g → s.gateWaits r.rcb g.addr = true → g.fallback = false →
    let stuck := g.since + 1000 * r.env.reptmo ≤ s.time ∨ s.gateDead r g = true
    (¬ stuck → exec (.orderGateTimeout r.rcb g.addr) s = .next s) ∧
    (stuck → RanTo (exec (.orderGateTimeout r.rcb g.addr) s) (fun t => t.thr = s.thr ∧
      t.flights = s.flights.map (fun f => { f with todo := f.todo.map (fun b =>
        if b.gated = some true ∧ s.sliceOf b.pa = g.slice then { b with gated := none } else b) }) ∧
      (∃ q h, t.region? r.rcb = some q ∧ q.gate? g.addr = some h ∧ h.fallback = true ∧ h.chain = []) ∧
      ∃ q i, t.events = s.events ++ [.diverge r.rcb r.env.fdomain 3 q i])))

/-- R161, R162: Map writes the page-table entries and answers the record: its waiters no longer wait, and the replay-queue
entries of the record that are mapped now go on to the write queue, each byte as it was stored.
R161, R162, R363, R368: Deny raises PAGE for a word parked on the record, with its unfinished lanes and the lowest failing
address, to be replayed by RTE; the record is answered. Its replay-queue entries are discarded, and the split that issued their
word has a PAGE trap due, of cause 2, with the block and the lanes that were lost. -/
def Obligations.FaultAnswersReachTheirWaiters : Prop :=
  (∀ (s : State) (r : FaultRec) (ents : List (Nat × BitVec 64)), s.record? r.id 1 = some r → s.plat.dutyReqs = [] →
    (∀ x ∈ s.rq, x.ladle = false) → Memory.wf s.mem = true → (ents.map Prod.fst).Pairwise (fun a b => a + 8 ≤ b ∨ b + 8 ≤ a) →
    ((∀ x ∈ s.rq, x.waits ≠ r.id) → RanTo (exec (.faultMap r.id ents) s) (fun t => AnsweredRec s t r.id ∧
      (∀ a v, (a, v) ∈ ents → ∀ i, i < 8 → cellRead t.mem (a + i) = v.extractLsb' (8 * i) 8) ∧
      (∀ x, (∀ y ∈ ents, x < y.1 ∨ y.1 + 8 ≤ x) → cellRead t.mem x = cellRead s.mem x) ∧
      ∀ sp e w, s.thr.level.split? sp = some e → e.parked = some w → ∃ e' w', t.thr.level.split? sp = some e' ∧
        e'.parked = some w' ∧ w'.lanes = w.lanes ∧ w'.at_ = w.at_ ∧ (∀ x ∈ w'.waits, x.1 ≠ r.id) ∧
        ((∃ x ∈ w.waits, x.1 = r.id) → w'.go = true))) ∧
    (∀ x lane va bs pg, s.rq = [x] → x.waits = r.id → x.work = none → x.lanes = [(lane, va, bs)] → bs ≠ [] → ents = [] →
      va < 2 ^ 57 → s.group? x.key.wg = none → (∀ th, s.thread? x.key = some th → s.waveWalk th.env.ptroot va = .page pg) →
      s.thread? x.key ≠ none → pg.ro = false → pg.ds = false → RanTo (exec (.faultMap r.id []) s) (fun t => t.rq = [] ∧ t.mem = s.mem ∧
        ∀ j, j < bs.length → ∃ y ∈ t.wq ++ t.hold, y.key = x.key ∧ y.op = x.op ∧
          ∃ o, (o, bs[j]?.getD 0) ∈ y.bytes ∧ 32 * y.sector + o = pg.pa + j))) ∧
  (∀ (s : State) (r : FaultRec) (sp : BitVec 2) (e : Split), s.record? r.id 1 = some r →
    s.live = true → s.threads = [] → s.thr.mcc = false → s.thr.base = none → s.thr.kern.handler ≠ none →
    s.swappedOut s.thr = false → (∀ x ∈ s.rq, x.ladle = false) → s.thr.level.split? sp = some e →
    (∀ w va, (∀ x ∈ s.rq, x.waits ≠ r.id) → e.parked = some w → e.also = none → w.waits = [(r.id, va)] →
      (∀ k x, k ≠ sp → s.thr.level.split? k = some x → x.parked = none ∧ x.also = none ∧ x.wait = .none) →
      RanTo (exec (.faultDeny r.id) s) (fun t => t.faults = s.faults.filter (fun f => f.id != r.id) ∧ t.mem = s.mem ∧
        t.thr.s = s.thr.s ∧ t.thr.v = s.thr.v ∧ t.thr.base ≠ none ∧ t.thr.ctl.eclass = 4 ∧
        t.thr.ctl.ecause = BitVec.ofNat 16 r.cause ∧ t.thr.ctl.epc = w.at_.pc ∧ t.thr.ctl.rslot = w.at_.slot ∧
        t.thr.ctl.replay = true ∧ t.thr.ctl.eaddr = BitVec.ofNat 64 va ∧ t.thr.ctl.elanes = w.lanes)) ∧
    (∀ x, s.rq = [x] → x.waits = r.id → x.key = s.thr.key → x.split = sp → x.inBase = false → e.due = none →
      (∀ k y, s.thr.level.split? k = some y → y.words = [] ∧ y.wait = .none) →
      RanTo (exec (.faultDeny r.id) s) (fun t => t.faults = s.faults.filter (fun f => f.id != r.id) ∧ t.mem = s.mem ∧
        t.rq = [] ∧ t.thr.s = s.thr.s ∧ t.thr.v = s.thr.v ∧ t.thr.base = none ∧
        ∃ y, t.thr.level.split? sp = some { e with due := some y } ∧ y.cls = 4 ∧ y.cause = 2 ∧
          y.addr = BitVec.ofNat 64 x.page ∧
          y.lanes = if ∃ z ∈ x.lanes, z.1 = 96 then e.cur else maskOf (fun l => x.lanes.any (fun z => z.1 == l)))))

/-- R164, R165, R391: a FAR record is answered by Poison, which poisons the sectors of its unfinished lanes and of its
replay-queue entries and discards those, or by Retry. A request to an expander that has waited for the time of its port waits for
a record of CLASS FAR and CAUSE 2, a store in a replay-queue entry, which it enters when one is free; before that time it
waits on. So do all requests of a port whose link is lost; the link falls and DOWN rises.
R166, R387: an uncorrectable error poisons its sector of memory, or of a cluster's scratch memory, and changes no byte; an
address that the part does not have is the one place where the machine stops. -/
def Obligations.FarFaultsAndSoftErrorsPoison : Prop :=
  ((∀ (s : State) (r : FaultRec), s.record? r.id 2 = some r → (∀ x ∈ s.rq, x.ladle = false) →
    RanTo (exec (.faultPoison r.id) s) (fun t => AnsweredRec s t r.id ∧ t.mem = s.mem ∧
      (∀ x, x ∈ t.poison ↔ x ∈ s.poison ∨ x ∈ s.farSectors r.id) ∧
      (∀ f ∈ s.flights, ∀ a ∈ f.todo, a.wait = some r.id → a.pa / 32 ∈ t.poison) ∧
      (∀ x ∈ s.rq, x.waits = r.id → ∀ g, s.group? x.key.wg = some g → ∀ l va bs pg, (l, va, bs) ∈ x.lanes →
        s.pageAt g.env.ptroot va = some pg → ∀ j, j < bs.length → (pg.pa + j) / 32 ∈ t.poison) ∧
      t.rq = s.rq.filter (fun x => x.waits != r.id) ∧ ∀ f ∈ t.flights, ∀ a ∈ f.todo, a.wait ≠ some r.id) ∧
    ((∀ x ∈ s.rq, x.waits ≠ r.id) → RanTo (exec (.faultRetry r.id) s) (fun t => AnsweredRec s t r.id ∧ t.mem = s.mem ∧
      t.poison = s.poison ∧ ∀ f ∈ t.flights, ∀ a ∈ f.todo, a.wait ≠ some r.id))) ∧
  (∀ (s : State) (e : WqEntry), s.wq.find? (fun x => x.core == e.core && x.id == e.id) = some e → e.type = .far →
    e.stage ≠ .queued → e.stuck = false →
    let joins (x : RqEntry) : Bool := x.key == e.key && x.op == e.op && x.page == blockOf e.va && x.far && x.work.isNone
    let lanes := e.bytes.map (fun y => (0, e.va + y.1, [y.2]))
    let full := 32 ≤ s.rq.countP (fun x => x.core == e.core)
    (s.time < e.due → exec (.farTimeout true e.core e.id) s = .next s) ∧
    (e.due ≤ s.time → RanTo (exec (.farTimeout true e.core e.id) s) (fun t => t.mem = s.mem ∧
      (s.rq.find? joins = none → ¬ full → t.wq = s.wq.filter (fun x => x.id != e.id) ∧
        ∃ x r, t.rq = s.rq ++ [x] ∧ r ∈ t.faults ∧ x.waits = r.id ∧ r.cls = 2 ∧ x.key = e.key ∧ x.op = e.op ∧ x.far = true ∧
          x.lanes = lanes) ∧
      (∀ x, s.rq.find? joins = some x → t.wq = s.wq.filter (fun y => y.id != e.id) ∧ t.faults = s.faults ∧
        t.rq = s.rq.map (fun y => if y.id = x.id then { y with lanes := y.lanes ++ lanes } else y)) ∧
      (s.rq.find? joins = none → full → t = { s with wq := s.wq.map (fun x =>
        if x.id = e.id then { x with stuck := true } else x) })))) ∧
  (∀ (s : State) (f : Flight) (a : LaneAcc) (core : Nat), s.flight? f.id = some f → f.todo = [a] → a.page.type = .far →
    a.wait = none → (f.work.readsOnly = false ∨ ∀ l ∈ s.l2, l.line ≠ a.pa / 256) →
    (s.time < a.due → exec (.farTimeout false core f.id) s = .next s) ∧
    (a.due ≤ s.time → RanTo (exec (.farTimeout false core f.id) s) (fun t => t.mem = s.mem ∧ t.thr = s.thr ∧
      ∃ r ∈ t.faults, r.cls = 2 ∧ r.va = a.va / 65536 * 65536 ∧
        (t.flight? f.id).map Flight.todo = some [{ a with wait := some r.id }]))) ∧
  (∀ (s : State) (port : Bool), (s.flights.map Flight.id).Nodup → RanTo (exec (.cxlLinkLoss port) s) (fun t => t.mem = s.mem ∧
    (∀ e ∈ t.wq, e.type = .far → e.stage ≠ .queued → e.stuck = false → cxlPort (32 * e.sector) ≠ port) ∧
    (∀ f ∈ t.flights, ∀ a ∈ f.todo, a.page.type = .far → cxlPort a.pa = port →
      a.wait ≠ none ∨ f.work.readsOnly = true ∧ ∃ l ∈ s.l2, l.line = a.pa / 256) ∧
    (port = false → t.plat.cxl0 = { s.plat.cxl0 with link := false, down := true } ∧ t.plat.cxl1 = s.plat.cxl1) ∧
    (port = true → t.plat.cxl1 = { s.plat.cxl1 with link := false, down := true } ∧ t.plat.cxl0 = s.plat.cxl0)))) ∧
  (∀ (s : State) (a : Nat),
    (inMap s.plat.win.toNat a = true → RanTo (exec (.softError none a) s) (fun t => t.mem = s.mem ∧ t.thr = s.thr ∧
      ∀ x, x ∈ t.poison ↔ x ∈ s.poison ∨ x = a / 32)) ∧
    (inMap s.plat.win.toNat a = false → exec (.softError none a) s = .fault .physicalHole) ∧
    (∀ c, c < 160 → a < 2 ^ 21 → RanTo (exec (.softError (some c) a) s) (fun t =>
      t = { s with clusters := t.clusters } ∧ (t.cluster c).clm = (s.cluster c).clm ∧
      (((s.cluster c).banks[a / 65536]?.map Bank.mode).getD 0 ≠ 2 →
        ∀ x, x ∈ (t.cluster c).poison ↔ x ∈ (s.cluster c).poison ∨ x = a / 32))) ∧
    (∀ c, ¬ (c < 160 ∧ a < 2 ^ 21) → exec (.softError (some c) a) s = .fault .physicalHole))

/-! ## Accumulators, the sampler, rays, draws -/

/-- R199, R202, R203, R204, R205, R206: the EST words whose lanes pass R135 and are mapped send their updates, or their reads,
to the home slices, EGEN one run of words for each 256-byte line of its range; memory and registers stay.
R226, R231 to R233, R235: the CMP words whose lanes pass R135 and are mapped send their terms, flushes, clearings and
replays, or their reads, to the home slices; memory and registers stay. -/
def Obligations.AccumulatorWordsSendTheirLanes : Prop :=
  (∀ (s : State) (d a : Reg) (p : BitVec 5) (h : BitVec 2) (pg : Nat → Page),
    let lanes := lanesIn s.active
    let va := vecVa s a p
    let regs (k l : Nat) : List Word := (List.range k).map (fun j => laneOf (s.rdVn (d.toNat + j)) l)
    let send (i : Instr) (work : Work) (data : Nat → List Word) : Prop := Clear s .estAdd 16 16 true lanes va pg →
      RanTo (exec i s) (fun t => t = { inFlight s work 0 false 0 0 h (requests s lanes va pg data) with nextId := s.nextId + 1 })
    let read (i : Instr) (raw : Bool) : Prop := Clear s .estRead 16 16 false lanes va pg →
      exec i s = .next (inFlight s (.estLoad raw) 0 false d 4 h (requests s lanes va pg (fun _ => [])))
    send (.esta d a p h) (.estAdd 0) (regs 1) ∧ send (.estw d a p h) (.estAdd 1) (regs 2) ∧
    send (.estg d a p h) (.estAdd 2) (regs 3) ∧ send (.emrg d a p h) .estMerge (regs 4) ∧
    (let n (l : Nat) : Nat := (laneOf (s.rdV d) l).toNat / 65536 + 1
      let run (l i : Nat) : LaneAcc :=
        let lo := max (pg l).pa (256 * ((pg l).pa / 256 + i))
        let hi := min ((pg l).pa + 16 * n l) (256 * ((pg l).pa / 256 + i) + 256)
        ⟨l % 96, va l + (lo - (pg l).pa), lo, pg l, [laneOf (s.rdV d) l &&& 0xFFF, BitVec.ofNat 32 ((hi - lo) / 16)], none, none,
          s.dueAt (pg l).type (pg l).pa⟩
      Clear s .estAdd 16 16 true lanes va pg → (∀ l ∈ lanes, lockFree s false true (va l) (16 * n l)) →
        (∀ l ∈ lanes, va l % (pg l).size + 16 * n l ≤ (pg l).size) →
        RanTo (exec (.egen d a p h) s) (fun t => t = { inFlight s .estGen 0 false 0 0 h (lanes.flatMap (fun l =>
          (List.range (((pg l).pa % 256 + 16 * n l + 255) / 256)).map (run l))) with nextId := s.nextId + 1 })) ∧
    read (.eld d a p h) false ∧ read (.eldr d a p h) true) ∧
  (∀ (s : State) (d a : Reg) (p : BitVec 5) (h : BitVec 2) (pg : Nat → Page),
    let lanes := lanesIn s.active
    let va := vecVa s a p
    let regs (k l : Nat) : List Word := (List.range k).map (fun j => laneOf (s.rdVn (d.toNat + j)) l)
    let send (i : Instr) (work : Work) (data : Nat → List Word) : Prop := Clear s .cmpAdd 32 32 true lanes va pg →
      RanTo (exec i s) (fun t => t = { inFlight s work 0 false 0 0 h (requests s lanes va pg data) with nextId := s.nextId + 1 })
    send (.cmpt d a p h) .cmpTerm (regs 5) ∧ send (.cflush a p h) .cmpFlush (fun _ => []) ∧
    send (.cclr a p h) (.cmpClear s.src.ctl.cslot) (fun _ => []) ∧
    (Clear s .cmpRead 32 32 false lanes va pg →
      exec (.clda d a p h) s = .next (inFlight s .cmpLoad 0 false d 5 h (requests s lanes va pg (fun _ => [])))) ∧
    (Clear s .store 64 64 true lanes va pg → (∀ l ∈ lanes, (pg l).type = .normal) → RanTo (exec (.crep d a p h) s) (fun t =>
      t = { inFlight s .crep 0 false d 5 h (requests s lanes va pg (regs 4)) with clusters := t.clusters } ∧
      ∀ c, t.cluster c = { s.cluster c with l1 := (t.cluster c).l1 })))

/-- R200: what a contribution does to a word. A sample or weight that is not finite, or a negative weight, is discarded; the
count rises and saturates; a weight of zero only counts; else the weighted mean and second moment are updated, each step
rounded on its own. A newer generation ages the word first, an older one ages the weight. -/
def Obligations.ContributionsFollowTheirSteps : Prop :=
  ∀ (e : EstWord) (x w : Word) (g : Nat), g < 4096 → e.gen < 4096 → e.dec < 16 →
    let newer := (g + 4096 - e.gen) % 4096
    (notFinite32 x = true ∨ notFinite32 w = true ∨ below0 w = true → e.contribute x w g = none) ∧
    (notFinite32 x = false → notFinite32 w = false → below0 w = false →
      (1 ≤ newer → newer ≤ 2047 → e.contribute x w g =
        ({ e with w := age e.w (e.dec * newer), m2 := age e.m2 (e.dec * newer), gen := g } : EstWord).contribute x w g) ∧
      (newer = 0 ∨ 2048 ≤ newer →
        let v := if newer = 0 then w else age w (e.dec * (4096 - newer))
        (isZero32 v = true → e.contribute x w g = some { e with n := min (e.n + 1) 65535 }) ∧
        (isZero32 v = false →
          let w1 := add32 e.w v
          let delta := sub32 x e.mean
          let m1 := add32 e.mean (mul32 (div32 v w1) delta)
          e.contribute x w g = some { e with
            w := w1, mean := m1, m2 := add32 e.m2 (mul32 (mul32 v delta) (sub32 x m1)), n := min (e.n + 1) 65535 })))

/-- R198, R200 to R203, R207, R208: an update at its home replaces its word by what the contribution, merge or ageing makes of
it, the lanes of one word in ascending order; a discarded update changes nothing and is counted when its acknowledgement
returns, saturating. Nothing else in memory changes. An update waits while an earlier one of its wave at the same home slice
has not been applied. -/
def Obligations.EstimatorUpdatesReplaceOneWord : Prop :=
  (∀ (s : State) (f : Flight) (a : LaneAcc) (i : Instr), s.flight? f.id = some f → f.todo = [a] → a.lane < 96 →
    s.estReady f a = true → a.pa % 16 = 0 → Memory.wf s.mem = true →
    let old := EstWord.ofBytes (s.homeRead a.pa 16)
    let x (n : Nat) : Word := a.data[n]?.getD 0
    let gone (t : State) : Prop := t.mem = s.mem
    let new (e : EstWord) (t : State) : Prop := BytesWritten s.mem t.mem a.pa e.bytes
    let step (o : Option EstWord) : Prop := s.poisoned a.pa 16 = false →
      RanTo (exec i s) (fun t => t.thr.s = s.thr.s ∧ t.thr.v = s.thr.v ∧ match o with
        | some e => new e t
        | none => gone t)
    (i = .estContributeApply f.id a.lane → f.work = .estAdd 0 → step (old.contribute (x 0) 0x3F800000 old.gen)) ∧
    (i = .estContributeApply f.id a.lane → f.work = .estAdd 1 → step (old.contribute (x 0) (x 1) old.gen)) ∧
    (i = .estContributeApply f.id a.lane → f.work = .estAdd 2 →
      step (old.contribute (x 0) (x 1) ((x 2).toNat % 4096))) ∧
    (i = .estMergeApply f.id a.lane → f.work = .estMerge →
      step (old.merge (EstWord.ofBytes (a.data.flatMap (fun w => bytesOfNat 4 w.toNat))))) ∧
    (i = .estGenApply f.id a.lane → f.work = .estGen → step (some (old.ageTo (x 0).toNat))) ∧
    (s.poisoned a.pa 16 = true → i = .estContributeApply f.id a.lane → f.work = .estAdd 0 →
      RanTo (exec i s) (fun t => t.mem = s.mem ∧
        (s.live = true → s.thr.key = f.key → t.thr = { s.thr with drops := s.thr.drops + 1 })))) ∧
  (∀ (s : State) (f : Flight) (a : LaneAcc) (as : List LaneAcc) (i : Instr) (upd : List Word → EstWord → Option EstWord),
    s.flight? f.id = some f → f.todo = a :: as → (∀ b ∈ as, b.pa = a.pa) → (f.todo.map LaneAcc.lane).Pairwise (· < ·) →
    (∀ b ∈ f.todo, b.lane < 96) → s.estReady f a = true → a.pa % 16 = 0 → s.stale = [] → s.poisoned a.pa 16 = false →
    Memory.wf s.mem = true → s.live = true → s.thr.key = f.key →
    (i = .estContributeApply f.id a.lane ∧
      (f.work = .estAdd 0 ∧ (∀ ws e, upd ws e = e.contribute (ws[0]?.getD 0) 0x3F800000 e.gen) ∨
        f.work = .estAdd 1 ∧ (∀ ws e, upd ws e = e.contribute (ws[0]?.getD 0) (ws[1]?.getD 0) e.gen) ∨
        f.work = .estAdd 2 ∧ ∀ ws e, upd ws e = e.contribute (ws[0]?.getD 0) (ws[1]?.getD 0) ((ws[2]?.getD 0).toNat % 4096)) ∨
      i = .estMergeApply f.id a.lane ∧ f.work = .estMerge ∧
        ∀ ws e, upd ws e = e.merge (EstWord.ofBytes (ws.flatMap (fun w => bytesOfNat 4 w.toNat)))) →
    let run := f.todo.foldl (fun (r : EstWord × Nat) b => match upd b.data r.1 with
      | some e => (e, r.2)
      | none => (r.1, r.2 + 1)) (EstWord.ofBytes (s.homeRead a.pa 16), 0)
    RanTo (exec i s) (fun t => BytesWritten s.mem t.mem a.pa run.1.bytes ∧ t.thr = { s.thr with drops := s.thr.drops + run.2 })) ∧
  (∀ (s : State) (f g : Flight) (a b : LaneAcc), s.flight? f.id = some f → f.todo = [a] → g ∈ s.flights → g.key = f.key →
    g.op < f.op → b ∈ g.todo → g.work ∈ [.estAdd 0, .estAdd 1, .estAdd 2, .estMerge, .estLoad false, .estLoad true] →
    s.sliceOf b.pa = s.sliceOf a.pa →
    (f.work = .estAdd 0 ∨ f.work = .estAdd 1 ∨ f.work = .estAdd 2 → exec (.estContributeApply f.id a.lane) s = .next s) ∧
    (f.work = .estMerge → exec (.estMergeApply f.id a.lane) s = .next s)) ∧
  (∀ (s : State), s.live = true → s.thr.drops ≠ 0 → RanTo (exec (.estdropAck s.thr.key) s) (fun t => t.mem = s.mem ∧
    t.thr = { s.thr with drops := s.thr.drops - 1, ctl := { s.thr.ctl with
      estdrop := if s.thr.ctl.estdrop = 0xFFFFFFFF then 0xFFFFFFFF else s.thr.ctl.estdrop + 1 } }))

/-- R226 to R229, R232, R233, R237: an update of a CMP word arrives while no entry of its slice is due. A term with a NaN input
and a term behind a closed word only set their flag; on a DS page of a slot that keeps no log a term folds at once; else it
enters its word's insertion buffer behind the entries that are as near or nearer, while there is room. CFLUSH folds the
entries nearest first, CCLR discards them and clears the word. The terms of one word's lanes arrive in lane order, in
consecutive clocks: on a DS page they fold one after the other, else the buffer holds them in depth order, at one depth by
lane. An entry whose hold window is over folds, and the one behind it does not fold in that clock. Nothing else in memory
changes. That a word's lanes take one clock each and a fold by age one clock is the model's reading (log entry 63). -/
def Obligations.CompositingTermsFoldInDepthOrder : Prop :=
  (∀ (s : State) (f : Flight) (a : LaneAcc), s.flight? f.id = some f → f.todo = [a] → a.lane < 96 → s.behind f a = false →
    s.behindStore f a = false → Memory.wf s.mem = true → s.stale = [] → s.poisoned a.pa 32 = false →
    (∀ c ∈ s.crucible, s.sliceOf c.1 = s.sliceOf a.pa → s.holdOver c.1 = false) →
    let old := CmpWord.ofBytes (s.homeRead a.pa 32)
    let x := termOf a.data
    let es := s.buffered a.pa
    let slot := s.slotOf old.slot
    let here := s.crucible.filter (fun c => s.sliceOf c.1 == s.sliceOf a.pa)
    let arrives (p : State → Prop) : Prop := RanTo (exec (.cmpTermArrive f.id a.lane) s) (fun t => t.thr = s.thr ∧ p t)
    let sets (flag : BitVec 16) : Prop := arrives (fun t => t.crucible = s.crucible ∧
      BytesWritten s.mem t.mem a.pa { old with flg := old.flg ||| flag }.bytes)
    (f.work = .cmpTerm → x.nan = true → sets 0x20) ∧
    (f.work = .cmpTerm → x.nan = false → old.flg.getLsbD 0 = true → (key32 old.df).toNat ≤ (key32 x.z).toNat → sets 0x10) ∧
    (f.work = .cmpTerm → x.nan = false → old.flg.getLsbD 0 = false →
      let y : Term := { x with a := clampAlpha x.a }
      (a.page.ds = true → slot.lflags.getLsbD 0 = false → arrives (fun t => t.crucible = s.crucible ∧
        BytesWritten s.mem t.mem a.pa (old.fold slot.tau y false).1.bytes)) ∧
      (a.page.ds = false → es ≠ [] ∨ here.length < 512 → (here.map (fun c => c.2.length)).sum < 4096 → es.length < 8 →
        arrives (fun t => t.mem = s.mem ∧ ∃ nearer behind e, es = nearer ++ behind ∧ t.buffered a.pa = nearer ++ [e] ++ behind ∧
          e.term = y ∧ e.clock = s.clock ∧ (∀ q ∈ nearer, (key32 q.depth).toNat ≤ (key32 y.z).toNat) ∧
          ∀ q, behind.head? = some q → (key32 y.z).toNat < (key32 q.depth).toNat))) ∧
    (f.work = .cmpFlush → slot.lflags.getLsbD 0 = false → arrives (fun t => t.buffered a.pa = [] ∧
      BytesWritten s.mem t.mem a.pa (es.foldl (fun w e => (w.fold slot.tau e.term false).1) old).bytes)) ∧
    (∀ k, f.work = .cmpClear k → arrives (fun t => t.buffered a.pa = [] ∧
      BytesWritten s.mem t.mem a.pa (bytesOfNat 16 (0x3F800000 * 2 ^ 96) ++
        bytesOfNat 16 (0x7F800000 + 0xFF800000 * 2 ^ 32 + k.toNat * 2 ^ 86 + 0xFFFFFFFF * 2 ^ 96))))) ∧
  (∀ (s : State) (f : Flight) (a : LaneAcc) (as : List LaneAcc), s.flight? f.id = some f → f.work = .cmpTerm →
    f.todo = a :: as → (∀ b ∈ as, b.pa = a.pa ∧ b.page.ds = a.page.ds) → (f.todo.map LaneAcc.lane).Pairwise (· < ·) →
    (∀ b ∈ f.todo, b.lane < 96 ∧ (termOf b.data).nan = false) → s.behind f a = false → s.behindStore f a = false →
    Memory.wf s.mem = true → s.stale = [] → s.poisoned a.pa 32 = false →
    (∀ c ∈ s.crucible, s.sliceOf c.1 ≠ s.sliceOf a.pa) →
    let old := CmpWord.ofBytes (s.homeRead a.pa 32)
    let slot := s.slotOf old.slot
    let y (b : LaneAcc) : Term := { termOf b.data with a := clampAlpha (termOf b.data).a }
    let arrives (p : State → Prop) : Prop := RanTo (exec (.cmpTermArrive f.id a.lane) s) (fun t => t.thr = s.thr ∧ p t)
    (a.page.ds = true → slot.lflags.getLsbD 0 = false → arrives (fun t => t.crucible = s.crucible ∧
      BytesWritten s.mem t.mem a.pa (f.todo.foldl (fun w b => (w.fold slot.tau (y b) false).1) old).bytes)) ∧
    (a.page.ds = false → old.flg.getLsbD 0 = false → f.todo.length ≤ min 8 (max 1 slot.hold) → arrives (fun t =>
      t.mem = s.mem ∧
      (t.buffered a.pa).Perm ((f.todo.zip (List.range f.todo.length)).map (fun p =>
        ⟨(y p.1).z, (y p.1).a, (y p.1).c0, (y p.1).c1, (y p.1).c2, s.clock + p.2⟩)) ∧
      (t.buffered a.pa).Pairwise (fun p q => (key32 p.depth).toNat < (key32 q.depth).toNat ∨
        (key32 p.depth).toNat = (key32 q.depth).toNat ∧ p.clock < q.clock)))) ∧
  (∀ (s : State) (pa : Nat) (e : CrucEntry) (es : List CrucEntry), s.buffered pa = e :: es → s.poisoned pa 32 = false →
    Memory.wf s.mem = true → s.stale = [] → pa % 32 = 0 →
    (∀ c ∈ s.crucible, c.1 % 32 = 0 ∧ (s.sliceOf c.1 = s.sliceOf pa → c.1 ≠ pa → s.holdOver c.1 = false)) →
    let old := CmpWord.ofBytes (s.homeRead pa 32)
    let slot := s.slotOf old.slot
    (e.clock + max 1 slot.hold = s.clock → slot.lflags.getLsbD 0 = false →
      RanTo (exec (.crucibleHoldExpire pa) s) (fun t => t.thr = s.thr ∧ (t.buffered pa).map CrucEntry.term = es.map CrucEntry.term ∧
        BytesWritten s.mem t.mem pa (old.fold slot.tau e.term false).1.bytes)) ∧
    (s.clock < e.clock + max 1 slot.hold → exec (.crucibleHoldExpire pa) s = .next s))

/-- R223, R250, R212, R215: what CBIND, DTBIND, DTUNB, DTQRY, EWATCH and EUNW answer, and what they change. Without the
region's grant CBIND, DTBIND and DTUNB raise PROT with cause 3. A watch whose time has come sweeps its next tile (R213). The
order of EWATCH's refusals, the node it names, tiles that cannot be swept, the lowest free handle, a slot that is new at
CBIND's issue and the root of its log are the model's readings (log entries 29, 41, 51, 52, 64, 121). -/
def Obligations.SlotAndWatchWordsAnswerTheirCodes : Prop :=
  (∀ (s : State) (e : Split) (d a : Reg) (p : BitVec 5),
    (CanTrap s e → s.thr.env.cmpGrant = false → TrapsAtGroup s (.cbind d a p) 5 3) ∧
    (CanTrap s e → s.thr.env.dtGrant = false → TrapsAtGroup s (.dtbind d p) 5 3 ∧ TrapsAtGroup s (.dtunb d) 5 3) ∧
    (s.thr.env.cmpGrant = true → 63 < (s.rdS d).toNat → Codes s (.cbind d a p) 0 d 0x80000005) ∧
    (s.thr.env.dtGrant = true → 255 < (s.rdS d).toNat →
      Codes s (.dtbind d p) 0 d 0x80000005 ∧ Codes s (.dtunb d) 0 d 0x80000005) ∧
    (255 < (s.rdS d).toNat → Codes s (.dtqry d) 0 d 0xFFFFFFFF)) ∧
  (∀ (s : State) (d a : Reg) (p : BitVec 5) (pg : Page) (k : Fin 64), s.thr.env.cmpGrant = true →
    s.rdS d = BitVec.ofNat 32 k → Reads s (scaVa s a p 0) 64 64 pg →
    let b := s.homeRead pg.pa 64
    (slotOk b = false → Codes s (.cbind d a p) 0 d 0x80000002) ∧
    (slotOk b = true → Codes s (.cbind d a p) 0 d 0 (fun s u =>
      u = { s with slots := u.slots, thr := { s.thr with ctl := { s.thr.ctl with cslot := BitVec.ofNat 6 k } } } ∧
      (∀ j : Fin 64, j ≠ k → u.slots[j] = s.slots[j]) ∧
      u.slots[k] = { tau := wordAt b 0, hold := fieldAt b 4 4, logBase := fieldAt b 8 8, segLog := fieldAt b 16 4
                     lflags := BitVec.ofNat 8 (fieldAt b 20 4), root := s.thr.env.ptroot, cursors := [] }))) ∧
  (∀ (s : State) (e : Split) (d : Reg) (p : BitVec 5) (pg : Page) (k : Fin 256), s.thr.env.dtGrant = true →
    s.rdS d = BitVec.ofNat 32 k → s.split = some e → e.parked = none →
    let x := s.tables[k]
    let slotIs (y : DtSlot) (s u : State) : Prop := u = { s with tables := u.tables, cores := u.cores } ∧
      (∀ j : Fin 256, j ≠ k → u.tables[j] = s.tables[j]) ∧ u.tables[k] = y ∧ (y.gen ≠ 0 → u.cores = s.cores)
    (s.released s.thr.key = false → ParksHere s e (.dtbind d p) ∧ ParksHere s e (.dtunb d)) ∧
    (s.released s.thr.key = true →
      (Reads s (s.base p).toNat 2048 64 pg → pg.type = .normal →
        (headerOk (s.homeRead pg.pa 64) = false → Codes s (.dtbind d p) 0 d 0x80000002) ∧
        (headerOk (s.homeRead pg.pa 64) = true → Codes s (.dtbind d p) 0 d ((x.gen + 1).zeroExtend 32)
          (slotIs ⟨true, (s.base p).toNat, x.gen + 1⟩))) ∧
      (x.bound = false → Codes s (.dtunb d) 0 d 0x80000003) ∧
      (x.bound = true → Codes s (.dtunb d) 0 d ((x.gen + 1).zeroExtend 32) (slotIs ⟨false, 0, x.gen + 1⟩))) ∧
    Codes s (.dtqry d) 0 d ((if x.bound then 0x80000000 else 0) ||| x.gen.zeroExtend 32)) ∧
  (∀ (s : State) (d a : Reg) (p : BitVec 5) (pg : Page), Reads s (scaVa s a p 0) 64 64 pg →
    let b := s.homeRead pg.pa 64
    ((∀ h, h < 256 → ∃ w ∈ s.watches, w.handle = h) → Codes s (.ewatch d a p) 0 d 0x80000001) ∧
    (∀ h, h < 256 → (∀ w ∈ s.watches, w.handle ≠ h) → (∀ i, i < h → ∃ w ∈ s.watches, w.handle = i) →
      let node := s.imageNode s.thr.kern (fieldAt b 20 4)
      let fits := ∃ q, s.node? s.thr.env.rcb node = some q ∧ q.recBytes = 16
      let ok := watchOk b = true ∧ s.allNormal s.thr.env.ptroot (fieldAt b 32 8) (fieldAt b 8 4 / 512 + 1) = true
      (¬ ok → Codes s (.ewatch d a p) 0 d 0x80000002) ∧
      (ok → ¬ fits → Codes s (.ewatch d a p) 0 d 0x80000003) ∧
      (ok → fits → Codes s (.ewatch d a p) 0 d (BitVec.ofNat 32 h) (fun s u =>
        ∃ w, u = { s with watches := s.watches ++ [w] } ∧ w.handle = h ∧ w.env = s.thr.env ∧ w.base = fieldAt b 0 8 ∧
          w.count = fieldAt b 8 4 ∧ w.tse = wordAt b 12 ∧ w.tn = wordAt b 16 ∧ w.outmap = fieldAt b 32 8 ∧
          w.period = fieldAt b 24 4 ∧ w.node = node ∧ w.started = s.time ∧ w.sweep = 0 ∧ w.tile = 0 ∧ w.raised = 0 ∧
          w.running = false ∧ w.skipped = false)))) ∧
  (∀ (s : State) (d a : Reg),
    let mine (w : Watch) : Bool := w.handle == (s.rdS a).toNat && w.env.rcb == s.thr.env.rcb
    (s.watches.find? mine = none → Codes s (.eunw d a) 0 d 0xFFFFFFFF) ∧
    (∀ w, s.watches.find? mine = some w →
      Codes s (.eunw d a) 0 d (BitVec.ofNat 32 (min w.raised 0x7FFFFFFE + if w.skipped then 2 ^ 31 else 0))
        (fun s u => u = { s with watches := s.watches.filter (fun v => v.handle != w.handle) }))) ∧
  (∀ (s : State) (w : Watch), s.watches.find? (fun v => v.handle == w.handle) = some w →
    let due := w.running = true ∨ w.started + 1000 * w.period * (w.sweep + 1) ≤ s.time
    (due → RanTo (exec (.watchSweep w.handle) s) (fun t => t.thr = s.thr ∧
      ∃ v, t.watches.find? (fun x => x.handle == w.handle) = some v ∧
        (w.tile + 1 < w.count / 64 → v.tile = w.tile + 1 ∧ v.sweep = w.sweep ∧ v.running = true) ∧
        (w.count / 64 ≤ w.tile + 1 → v.tile = 0 ∧ v.sweep = w.sweep + 1 ∧ v.running = false) ∧
        (s.tileWords w.env (w.base + 1024 * w.tile) = none → v.skipped = true ∧ t.mem = s.mem))) ∧
    (¬ due → exec (.watchSweep w.handle) s = .next s))

/-- R244, R245, R248, R252, R253: a sampling word whose descriptor meets R242 gives each active lane the four values that
its filter makes of the texels it reads; a LATENT texture's are decoded through the table bound to its slot, whole for SFET.
It traps on a misaligned or invalid descriptor address, on a descriptor that breaks R242 and, unless the texture is soft, on
an unbound slot; a soft texture then reads zeros and the lanes enter ctl.sstat. That texels are read at the word's issue is
the model's reading (log entry 53). -/
def Obligations.SamplingWordsReturnTheirTexels : Prop :=
  ∀ (s : State) (d a : Reg) (p : BitVec 5) (h : BitVec 2) (dp tp : Page) (pg : Nat → Page),
    let lanes := lanesIn s.active
    let kept (u : State) : Prop := u = { s with l2 := u.l2, owners := u.owners, clusters := u.clusters, cores := u.cores }
    let word (i : Instr) (fn n : Nat) : Prop :=
      let op (l : Nat) : List Word := (List.range n).map (fun j => laneOf (s.rdVn (a.toNat + j)) l)
      let traps (cause : Nat) : Prop := ∀ e, CanTrap s e → RanTo (exec i s) (fun t => ∃ u, kept u ∧ Entered u t s.ctx.sp
        { cls := 9, cause := cause, pc := s.ctx.pc, slot := s.ctx.gslot, oslot := s.ctx.slot, replay := false
          addr := 0, lanes := s.active })
      (∀ e, CanTrap s e → (s.base p).toNat % 64 ≠ 0 → TrapsAtGroup s i 8 0 (s.base p)) ∧
      (∀ e, CanTrap s e → (s.base p).toNat % 64 = 0 → 2 ^ 57 ≤ (s.base p).toNat → TrapsAtGroup s i 5 1 (s.base p)) ∧
      (Described s p dp → Tex.ofBytes (s.homeRead dp.pa 64) = none → traps 1) ∧
      (Described s p dp → s.active ≠ 0 → ∀ t, Tex.ofBytes (s.homeRead dp.pa 64) = some t →
        let latent := t.fmt = 4 ∧ fn ≠ 5 ∧ fn ≠ 7
        let slot := s.tables[t.dslot]?
        let tb := s.homeRead tp.pa 2048
        let gives (tb : List Byte) : Prop := TapsRead s t fn op pg → Answers s i 1 false d 4
          (lanes.flatMap (fun l => ((List.range 4).zip
            (t.combine fn (op l) ((t.taps fn (op l)).map (texelOf s t (fn == 5) tb pg)))).map (fun (j, x) => (l, j, x))))
          (fun _ u => kept u)
        (¬ latent → gives []) ∧
        (latent → ∀ x, slot = some x → x.bound = true → x.addr < 2 ^ 57 → s.waveWalk s.thr.env.ptroot x.addr = .page tp →
          tp.type = .normal → s.poisoned tp.pa 2048 = false →
          (∀ c ∈ (s.coreOf s.thr.core).tables, c.1 = t.dslot → c.2.1 = x.gen.toNat → c.2.2 = tb) → gives tb) ∧
        (latent → ∀ x, slot = some x → x.bound = false →
          (t.soft = false → traps 2) ∧
          (t.soft = true → Answers s i 1 false d 4 (lanes.flatMap (fun l => (List.range 4).map (fun j => (l, j, 0))))
            (fun _ u => u = { s with l2 := u.l2, owners := u.owners, clusters := u.clusters, cores := u.cores
                                     thr := { s.thr with ctl := { s.thr.ctl with sstat := s.thr.ctl.sstat ||| s.active } } }))))
    word (.smpp d a p h) 0 3 ∧ word (.smpb d a p h) 1 3 ∧ word (.smpt d a p h) 2 3 ∧ word (.smpa d a p h) 3 5 ∧
    word (.smpg d a p h) 4 4 ∧ word (.sfet d a p h) 5 3 ∧ word (.slat d a p h) 6 3 ∧ word (.sqry d a p h) 7 1

/-- R269, R272, R273: a RAY word with a well-formed scene descriptor sends its active lanes' words to the traversal unit and
parks; TCALL, once released, if its payload and spill sizes pass. TRRES gives the lanes what their latest traversal left.
What becomes of a lane that hits nothing is the model's reading (log entry 67).
R266, R268 to R270: a lane's traversal ends with the values of its best hit, or of a miss; a ray that is not valid ends
with status 4 and a TCALL too deep with status 3, without a visit. Between two visits the traversal may stand still while
stores land (R274). R271: a lane that meets a node on an unmapped page keeps where it stopped and waits for a fault record
with TYPES bit 7; a traversal goes on from where it stopped. When every lane of a word has finished, its results are written
at once, the lanes' visits, leaf and face are kept, and its split goes on. Where a traversal goes on, and when a denied or
poisoned node traps, are the model's readings (log entries 65, 66). -/
def Obligations.RaysSendTheirLanesAndReturn : Prop :=
  ((∀ (s : State) (e : Split) (d a : Reg) (p : BitVec 5) (pg : Page), s.split = some e → e.parked = none → s.active ≠ 0 →
    Described s p pg → Scene.ofBytes (s.homeRead pg.pa 64) ≠ none →
    let regs (b k l : Nat) : List Word := (List.range k).map (fun j => laneOf (s.rdVn (b + j)) l)
    let sends (i : Instr) (fn k dst count : Nat) (data : Nat → List Word) : Prop := RanTo (exec i s) (fun t =>
      t.ctx.out = .stall ∧ t = { s with
        l2 := t.l2, owners := t.owners, clusters := t.clusters, cores := t.cores, flights := t.flights, nextId := t.nextId, ctx := t.ctx
        thr := { s.thr with level := t.thr.level } } ∧
      ∃ f w, t.flights = s.flights ++ [f] ∧ f.work = .ray fn k (s.homeRead pg.pa 64) ∧ f.key = s.thr.key ∧ f.cls = 2 ∧
        f.dst = dst ∧ f.count = count ∧ f.ready = [] ∧
        f.todo.map (fun x => (x.lane, x.data)) = (lanesIn s.active).map (fun l => (l, data l)) ∧
        t.split = some { e with parked := some w } ∧ w.stage = 1 ∧ w.id = f.op)
    let size (l : Nat) : Nat := (laneOf (s.rdVn (a.toNat + 8)) l).toNat / 2 ^ 16 % 2 ^ 11
    sends (.trace d a p) 0 0 d.toNat 6 (regs a.toNat 8) ∧ sends (.tracea d a p) 1 0 d.toNat 6 (regs a.toNat 8) ∧
    (a.toNat ≤ 53 → s.released s.thr.key = true → d.toNat ≤ s.thr.kern.payregs →
      (∀ l ∈ lanesIn s.active, size l ≤ s.thr.kern.spill ∧ size l % 16 = 0) →
      sends (.tcall d a p) 2 d.toNat (a.toNat + 8) 1 (fun l => regs a.toNat 11 l ++ regs 0 d.toNat l)) ∧
    (s.released s.thr.key = false → d.toNat ≤ s.thr.kern.payregs →
      (∀ l ∈ lanesIn s.active, size l ≤ s.thr.kern.spill ∧ size l % 16 = 0) →
      RanTo (exec (.tcall d a p) s) (fun t => t.flights = s.flights ∧ t.ctx.out = .stall))) ∧
  (∀ (s : State) (d : Reg), d.toNat ≤ 61 →
    let r (n : Nat) : RayResult := s.src.ray[n]?.getD ⟨0, 0xFFFFFFFF, false⟩
    RanTo (exec (.trres d) s) (LanesTo s · (fun x =>
      if x = d.toNat + 2 then some (fun n => if (r n).back then 1 else 0)
      else if x = d.toNat + 1 then some (fun n => (r n).leaf)
      else if x = d.toNat then some (fun n => (r n).visits) else none) .g none (fun _ => 0) (fun _ => 0)))) ∧
  ((∀ (s : State) (f : Flight) (a : LaneAcc) (fn k visits : Nat) (desc : List Byte) (sc : Scene) (u : Thread),
    s.flight? f.id = some f → f.work = .ray fn k desc → Scene.ofBytes desc = some sc → s.thread? f.key = some u →
    f.todo.find? (fun b => b.lane == a.lane) = some a → a.wait = none → (∀ x ∈ f.ready, x.1 ≠ a.lane) →
    let depth := (a.data[8]?.getD 0).toNat % 64
    let ends (vals : List Word) : Prop := RanTo (exec (.traceLaneFinish f.id ⟨a.lane, visits⟩) s) (fun t => t.mem = s.mem ∧
      t.thr = s.thr ∧ ∃ g, t.flight? f.id = some g ∧ g.todo = f.todo.filter (fun b => b.lane != a.lane) ∧
      ∀ i, i < 11 → g.rayVal a.lane i = vals[i]?.getD 0)
    (fn = 2 → u.kern.depth < depth + 1 → ends [0x7F800000, 0xFFFFFFFF, 0xFFFFFFFF, 0, 0, 3, 0, 0xFFFFFFFF, 0, BitVec.ofNat 32 sc.miss, 0]) ∧
    (fn ≠ 2 ∨ depth + 1 ≤ u.kern.depth →
      (Ray.ofWords (a.data.take 8) = none →
        ends [0x7F800000, 0xFFFFFFFF, 0xFFFFFFFF, 0, 0, 4, 0, 0xFFFFFFFF, 0, BitVec.ofNat 32 sc.miss, 0]) ∧
      (∀ v st n, s.traverse u.env (decide (portCluster (s.portOf f.key) % 2 = 1)) sc (fn == 1) (a.data.take 8) (f.stop? a.lane) visits =
          (v, .done st none n) → (st = 0 ∨ st = 2) →
        ends [0x7F800000, 0xFFFFFFFF, 0xFFFFFFFF, 0, 0, BitVec.ofNat 32 st, BitVec.ofNat 32 n, 0xFFFFFFFF, 0,
          BitVec.ofNat 32 sc.miss, 1]) ∧
      (∀ v st h n, s.traverse u.env (decide (portCluster (s.portOf f.key) % 2 = 1)) sc (fn == 1) (a.data.take 8) (f.stop? a.lane) visits =
          (v, .done st (some h) n) →
        ends [fp32Of h.t, BitVec.ofNat 32 h.prim, BitVec.ofNat 32 h.inst, fp32Of h.b1, fp32Of h.b2, BitVec.ofNat 32 st,
          BitVec.ofNat 32 n, BitVec.ofNat 32 h.leaf, if h.back then 1 else 0, h.node,
          if h.node = 0xFFFFFFFF then 0 else 1]) ∧
      (∀ v va c stop, s.traverse u.env (decide (portCluster (s.portOf f.key) % 2 = 1)) sc (fn == 1) (a.data.take 8) (f.stop? a.lane) visits =
          (v, .absent va c stop) →
        RanTo (exec (.traceLaneFinish f.id ⟨a.lane, visits⟩) s) (fun t => t.mem = s.mem ∧ t.thr = s.thr ∧ ∃ g rec, t.flight? f.id = some g ∧
          g.stop? a.lane = some stop ∧ (∃ b ∈ g.todo, b.lane = a.lane ∧ b.wait = some rec) ∧
          ∃ x ∈ t.faults, x.id = rec ∧ x.va = blockOf va ∧ x.cls = 1 ∧ x.types.getLsbD 7 = true)) ∧
      (∀ v stop, s.traverse u.env (decide (portCluster (s.portOf f.key) % 2 = 1)) sc (fn == 1) (a.data.take 8) (f.stop? a.lane) visits =
          (v, .paused stop) →
        RanTo (exec (.traceLaneFinish f.id ⟨a.lane, visits⟩) s) (fun t => t.mem = s.mem ∧ t.thr = s.thr ∧ ∃ g, t.flight? f.id = some g ∧
          g.stop? a.lane = some stop ∧ g.todo = f.todo ∧ g.ready = f.ready)))) ∧
  (∀ (s : State) (f : Flight) (fn k : Nat) (desc : List Byte), s.flight? f.id = some f → f.work = .ray fn k desc → fn ≠ 2 →
    f.todo = [] → f.bad = [] → f.denied = [] → s.live = true → s.thr.key = f.key → f.dst + f.count ≤ 64 → f.count ≤ 6 →
    (∀ x ∈ f.ready, x.1 < 96) →
    RanTo (exec (.traceComplete f.id) s) (fun t => t.mem = s.mem ∧ t.thr.s = s.thr.s ∧
      t.flights = s.flights.filter (fun x => x.id != f.id) ∧
      (∀ r l, r < 64 → l < 96 → seesV t r l =
        if f.dst ≤ r ∧ r < f.dst + f.count ∧ (∃ x ∈ f.ready, x.1 = l) then f.rayVal l (r - f.dst) else seesV s r l) ∧
      (∀ l, l < 96 → (∃ x ∈ f.ready, x.1 = l) →
        t.thr.ray[l]?.getD ⟨0, 0, false⟩ = ⟨f.rayVal l 6, f.rayVal l 7, f.rayVal l 8 == 1⟩) ∧
      ∀ sp e w, s.thr.level.split? sp = some e → e.parked = some w → w.id = f.op →
        ∃ e' w', t.thr.level.split? sp = some e' ∧ e'.parked = some w' ∧ w'.stage = 2 ∧ w'.go = true)))

/-- R267: trihit finds exactly the point where the ray's line meets the triangle: o + t·d = v0 + b1·e1 + b2·e2, on or inside
its edges and the ray's interval, and not from behind where the scene culls; BACK says that it is met from behind. A
triangle parallel to the ray is not hit. -/
def Obligations.TriangleHitsAreExact : Prop :=
  ∀ (r : Ray) (cull : Bool) (k : Nat) (l : Leaf) (v0 v1 v2 : Vec3), l.tri = some (v0, v1, v2) →
    let e1 := v1.sub v0
    let e2 := v2.sub v0
    let side := r.d.dot (e1.cross e2)
    let meets (t b1 b2 : Rat) : Prop :=
      r.o.x + t * r.d.x = v0.x + b1 * e1.x + b2 * e2.x ∧ r.o.y + t * r.d.y = v0.y + b1 * e1.y + b2 * e2.y ∧
      r.o.z + t * r.d.z = v0.z + b1 * e1.z + b2 * e2.z ∧ 0 ≤ b1 ∧ 0 ≤ b2 ∧ b1 + b2 ≤ 1 ∧ r.tmin ≤ t ∧
      (∀ m, r.tmax = some m → t ≤ m) ∧ (cull = true → side ≤ 0)
    (side = 0 → r.trihit cull k l = none) ∧
    (side ≠ 0 → ∀ h, r.trihit cull k l = some h ↔
      h = ⟨h.t, h.b1, h.b2, k, l.prim, l.inst, l.node, decide (0 < side)⟩ ∧ meets h.t h.b1 h.b2)

/-- R275, R277, R278: RDRAW, once released, starts a draw or answers why not; RWAIT answers an ended draw's result and parks
before. The pipeline clears the buffer, passes each triangle once and writes the pixels that it covers, counts the pixels of
each tile, then passes each tile: one with pixels appends its record of 16 bytes, which a full queue holds. The draw ends
with the last tile. That the descriptor is read and checked at issue is the model's reading (log entries 29, 69, 70). -/
def Obligations.DrawsRunToTheirEnd : Prop :=
  (∀ (s : State) (e : Split) (d : Reg) (p : BitVec 5) (pg : Page), s.split = some e → e.parked = none →
    let b := s.homeRead pg.pa 64
    let ticket := ((s.region? s.thr.env.rcb).map Region.ticket).getD 0
    let open_ := s.draws.countP (fun x => x.env.rcb == s.thr.env.rcb && !x.ended)
    (s.released s.thr.key = false → ParksHere s e (.rdraw d p)) ∧
    (s.released s.thr.key = true → Reads s (s.base p).toNat 64 64 pg → pg.type = .normal →
      (16 ≤ open_ → Codes s (.rdraw d p) 2 d 0x80000001) ∧
      (open_ < 16 → s.drawOk b = false → Codes s (.rdraw d p) 2 d 0x80000002) ∧
      (open_ < 16 → s.drawOk b = true → Codes s (.rdraw d p) 2 d ticket (fun s u =>
        u = { s with nextId := u.nextId, draws := u.draws, regions := u.regions } ∧
        (∀ r, u.region? s.thr.env.rcb = some r → r.ticket = (ticket + 1) &&& 0x7FFFFFFF) ∧
        ∃ x, u.draws = s.draws ++ [x] ∧ x.env = s.thr.env ∧ x.ticket = ticket ∧ x.desc = b ∧ x.next = 0 ∧ x.counts = [] ∧ x.tiles = [] ∧
          x.ended = false))) ∧
    (∀ y, s.draws.reverse.find? (fun x => x.env.rcb == s.thr.env.rcb && x.ticket == s.rdS d) = y →
      (y = none → Codes s (.rwait d) 2 d 0xFFFFFFFF) ∧
      (∀ x, y = some x → x.ended = true →
        Codes s (.rwait d) 2 d (if x.denied then 0x80000004 else if x.bad then 1 else 0)) ∧
      (∀ x, y = some x → x.ended = false → ParksHere s e (.rwait d)))) ∧
  (∀ (s : State) (d : Draw), s.draws.find? (fun x => x.id == d.id) = some d → d.ended = false → d.denied = false →
    let goes (i : Instr) (f : State → Draw) (p : State → Prop) : Prop := RanTo (exec i s) (fun t => t.thr = s.thr ∧
      t.draws = s.draws.map (fun x => if x.id = d.id then f t else x) ∧ p t)
    let passed (bad : Bool) (t : State) : Draw :=
      { d with next := d.next + 1, bad := bad, counts := if d.ntri < d.next + 1 then t.tileCounts d else d.counts }
    (d.waits = [] → (∀ x ∈ s.draws, x.full = false ∧ (x.id < d.id → x.ended = true ∨ x.ntri < x.next)) →
      (d.next = 0 → (∀ va ∈ blocksOf (d.f 24 8) d.visBytes, s.pageAt d.env.ptroot va ≠ none) →
        goes (.rasterTriangle d.id) (fun _ => { d with next := 1 }) (fun t => t.mem = ((List.range (d.width * d.height)).foldl
          (fun (u : State) i => u.writeVirt d.env.ptroot (d.f 24 8 + 16 * i) (bytesOfNat 16 (0x7F800000 * 2 ^ 96 + 0xFFFFFFFF))) s).mem)) ∧
      (1 ≤ d.next → d.next ≤ d.ntri →
        (s.fetchTriangle d (d.next - 1) = .discard → goes (.rasterTriangle d.id) (passed d.bad) (fun t => t.mem = s.mem)) ∧
        (s.fetchTriangle d (d.next - 1) = .poison → goes (.rasterTriangle d.id) (passed true) (fun t => t.mem = s.mem)) ∧
        (∀ a b c, s.fetchTriangle d (d.next - 1) = .vertices a b c →
          goes (.rasterTriangle d.id) (passed d.bad) (fun t => t.mem = ((spanOf a.y b.y c.y d.height).foldl (fun (u : State) y =>
            (spanOf a.x b.x c.x d.width).foldl (fun (u : State) x => match fragAt a b c x y with
              | some f => u.putPixel d (d.next - 1) x y f
              | none => u) u) s).mem)))) ∧
    (∀ tile, d.ntri < d.next → tile < d.tileCount → tile ∉ d.tiles →
      (∀ x ∈ s.draws, x.id < d.id → x.tilesLeft (d.die tile) = false) →
      let sent : Draw := { d with tiles := tile :: d.tiles, full := false, ended := decide (d.tiles.length + 1 = d.tileCount) }
      ((∀ c ∈ d.counts, c.1 ≠ tile) → goes (.rasterTileRecord d.id tile) (fun _ => sent) (fun t => t.mem = s.mem)) ∧
      (∀ n q p, d.counts.find? (fun c => c.1 == tile) = some (tile, n) → n ≠ 0 → s.region? d.env.rcb ≠ none →
        s.node? d.env.rcb d.node = some q → (q.hasRoom = false →
          goes (.rasterTileRecord d.id tile) (fun _ => { d with full := true }) (fun t => t.mem = s.mem)) ∧
        (q.hasRoom = true → q.slotVa q.appended % 16 = 0 → (∀ r, s.region? d.env.rcb = some r →
            s.pageAt r.env.ptroot (q.slotVa q.appended) = some p) → p.ro = false → Memory.wf s.mem = true →
          goes (.rasterTileRecord d.id tile) (fun _ => sent) (fun t => BytesWritten s.mem t.mem p.pa
            (bytesOfNat 2 (tile % d.cols) ++ bytesOfNat 2 (tile / d.cols) ++ bytesOfNat 4 d.ticket.toNat ++ bytesOfNat 4 n ++
              bytesOfNat 4 0)))))) ∧
  (∀ (a b c : WinVertex) (x y w h : Nat) (f : Word × Word × Word), fragAt a b c x y = some f → x < w → y < h →
    x ∈ spanOf a.x b.x c.x w ∧ y ∈ spanOf a.y b.y c.y h) ∧
  (∀ (s : State) (root va : Nat) (bs : List Byte) (p : Page), s.pageAt root va = some p → va % 16 = 0 → bs.length = 16 →
    Memory.wf s.mem = true → (p.ro = false → BytesWritten s.mem (s.writeVirt root va bs).mem p.pa bs) ∧
    (p.ro = true → (s.writeVirt root va bs).mem = s.mem)) ∧
  (∀ (s : State) (d : Draw) (i x y : Nat) (z b1 b2 : Word) (p : Page) (q : Rat), Memory.wf s.mem = true →
    s.pageAt d.env.ptroot (d.f 24 8 + 16 * (y * d.width + x)) = some p → p.ro = false →
    (d.f 24 8 + 16 * (y * d.width + x)) % 16 = 0 → FFmt.fp32.read (wordAt (s.homeRead p.pa 16) 12) = .fin q →
    let nearer := rat32 z < q ∨ rat32 z = q ∧ i < fieldAt (s.homeRead p.pa 16) 0 4
    (nearer → BytesWritten s.mem (s.putPixel d i x y (z, b1, b2)).mem p.pa
      (bytesOfNat 16 (i % 2 ^ 32 + b1.toNat * 2 ^ 32 + b2.toNat * 2 ^ 64 + z.toNat * 2 ^ 96))) ∧
    (¬ nearer → s.putPixel d i x y (z, b1, b2) = s))

/-! ## Work, engines, the platform -/

/-- R46, R328, R329, R331 to R334: LAUNCH, once released, starts a dispatch and answers its sequence number, or answers why
not; a kernel with a region template runs under the copy made for the launching region, and its launch waits for that copy.
That LAUNCH reads its block at issue, counts with the memory class and refuses in this order are the model's readings (log
entries 29, 77). WGENQ appends each active lane's record in ascending order, or answers 1 (full), 2 (no node), 3 (record too
long). WGFIN releases the records of the active lanes. A node's waiting records fire as a group when its timer is over.
R330, R335: the launcher starts the next workgroup of the first dispatch in its order that fits: its waves stand at
the kernel's entry with all lanes, s0 and s1 hold the arguments, s2 the index, s3 the wave, s4 the dispatch's number, and
every other register is zero. In a part that does not compute (R13, R380) none starts.
R163, R185, R329, R340: a workgroup whose threads have retired and whose work is done is gone; it declines the channels
it has not claimed, and with the last of its dispatch 1 is written to DONE and the dispatch is over. What retirement waits
for beside R163, R185 and R340 is the model's reading (log entry 84). -/
def Obligations.LaunchedWorkgroupsRunAndRetire : Prop :=
  ((∀ (s : State) (e : Split) (d : Reg) (p : BitVec 5) (pg : Page), s.split = some e → e.parked = none →
    (s.released s.thr.key = false → ParksHere s e (.launch d p)) ∧
    (s.released s.thr.key = true → Reads s (s.base p).toNat 32 32 pg →
      let b := s.homeRead pg.pa 32
      let kern := s.findKern s.thr.env.ptroot (fieldAt b 0 8)
      (∀ i k x, kern = some (i, k) → k.template = some x → i.copyFor x s.thr.env.rcb = none → ParksHere s e (.launch d p)) ∧
      (∀ rcb, kern = none ∧ rcb = s.thr.env.rcb ∨ (∃ i k, kern = some (i, k) ∧ k.template = none ∧ rcb = s.thr.env.rcb) ∨
          (∃ i k x, kern = some (i, k) ∧ k.template = some x ∧ i.copyFor x s.thr.env.rcb = some rcb) →
        let seq := ((s.region? rcb).map Region.nextSeq).getD 0
        let open_ := s.dispatches.countP (fun x => x.env.rcb == rcb && x.node.isNone)
        (256 ≤ open_ → Codes s (.launch d p) 0 d 0x80000001) ∧
        (open_ < 256 → ∀ env, s.resolveEnv rcb = some env → env.rcb = rcb →
          let bad := fieldAt b 16 4 = 0 ∨ fieldAt b 20 4 ≠ 0 ∨ s.doneOk env.ptroot (fieldAt b 24 8) = false
          (bad → Codes s (.launch d p) 0 d 0x80000002) ∧
          (kern = none → ¬ bad → Codes s (.launch d p) 0 d 0x80000003) ∧
          (∀ i k, kern = some (i, k) → ¬ bad →
            (k.input ≠ none → Codes s (.launch d p) 0 d 0x80000003) ∧
            (k.input = none → Codes s (.launch d p) 0 d (BitVec.ofNat 32 seq) (fun s u =>
              u = { s with nextId := u.nextId, dispatches := u.dispatches, regions := u.regions } ∧
              (∀ r, u.region? rcb = some r → r.nextSeq = (seq + 1) % 2 ^ 31) ∧
              ∃ x, u.dispatches = s.dispatches ++ [x] ∧ x.env = env ∧ x.kern = k ∧ x.seq = BitVec.ofNat 32 seq ∧ x.next = 0 ∧
                x.node = none ∧ x.count = fieldAt b 16 4 ∧ x.args = BitVec.ofNat 64 (fieldAt b 8 8) ∧
                x.done = BitVec.ofNat 64 (fieldAt b 24 8) ∧ x.retired = []))))))) ∧
  (∀ (s : State) (d n a : Reg), s.active ≠ 0 →
    let rcb := s.thr.env.rcb
    let node := (s.rdS n).toNat
    let lanes := lanesIn s.active
    (s.released s.thr.key = false → RanTo (exec (.wgenq d n a) s) (fun t => t.ctx.out = .stall ∧ t.regions = s.regions)) ∧
    (s.released s.thr.key = true → s.thr.env.deterministic = false →
      (s.node? rcb node = none → Answers s (.wgenq d n a) 0 false d 1 (lanes.map (fun l => (l, 0, 2))) Alone) ∧
      (∀ q, s.node? rcb node = some q →
        let last := a.toNat + q.recBytes / 4 - 1
        (63 < last ∨ s.thr.kern.vregs ≤ last → Answers s (.wgenq d n a) 0 false d 1 (lanes.map (fun l => (l, 0, 3))) Alone) ∧
        (last ≤ 63 → last < s.thr.kern.vregs →
          (q.cap ≤ q.appended - q.freed → Answers s (.wgenq d n a) 0 false d 1 (lanes.map (fun l => (l, 0, 1))) Alone) ∧
          (q.appended - q.freed + lanes.length ≤ q.cap →
            Answers s (.wgenq d n a) 0 false d 1 (lanes.map (fun l => (l, 0, 0))) (fun s u => u.thr = s.thr ∧
              ∃ q', u.node? rcb node = some q' ∧ q'.appended = q.appended + lanes.length ∧ q'.freed = q.freed)))))) ∧
  (∀ (s : State), RanTo (exec .wgfin s) (fun t =>
    t = { s with regions := t.regions, thr := { s.thr with recs := t.thr.recs } } ∧
    (∀ l : Fin 96, t.thr.recs[l] = if s.active.getLsbD l then (s.thr.recs[l]).map (fun x => { x with released := true })
      else s.thr.recs[l]) ∧
    ∀ l x r q, l < 96 → s.active.getLsbD l = true → (s.thr.recs[l]?).join = some x → x.released = false →
      (∀ m y, m < 96 → (s.thr.recs[m]?).join = some y → y.rcb = x.rcb → y.node = x.node → y.slot = x.slot →
        y.released = true ∨ s.active.getLsbD m = true) →
      t.region? x.rcb = some r → r.nodes[x.node]? = some q → x.slot < q.freed ∨ x.slot ∈ q.released)) ∧
  (∀ (s : State) (rcb n : Nat) (q : NodeQueue), s.node? rcb n = some q → q.taken < q.appended →
    (q.ages.headD 0 + q.timer ≤ s.time → 0 < q.kern.waves → s.streamReplays rcb q = false → s.plat.duty.getLsbD 4 = false →
      RanTo (exec (.nodeGroupTimer rcb n) s) (fun t => t.thr = s.thr ∧ t.mem = s.mem ∧ ∃ q' d, t.node? rcb n = some q' ∧
        q.taken < q'.taken ∧ q'.taken ≤ q.appended ∧ q'.ages = q.ages.drop (q'.taken - q.taken) ∧ q'.stream = some d)) ∧
    (s.time < q.ages.headD 0 + q.timer → q.full = false → exec (.nodeGroupTimer rcb n) s = .next s))) ∧
  (∀ (s : State), (∀ r ∈ s.regions, r.replays = false) →
    ((∀ x ∈ s.dispatches, ∀ y ∈ s.dispatches, x.id = y.id → x = y) → ∀ d p, s.nextPlacement = some (.fresh d, p) → d ∈ s.dispatches → d.node = none → d.kern.waves ≤ 16 →
      RanTo (exec .workgroupPlace s) (fun t => t.thr = s.thr ∧
        (∃ g, t.groups = s.groups ++ [g] ∧ g.id = s.nextId ∧ g.disp = d.id ∧ g.index = BitVec.ofNat 32 d.next ∧ g.core = p.core ∧
          g.kern = d.kern ∧ g.env = d.env ∧ g.window = p.window ∧ g.left = 0) ∧
        (∃ d', t.dispatch? d.id = some d' ∧ d'.next = d.next + 1 ∧ d'.count = d.count) ∧
        ∀ ix, ix < d.kern.waves → ∃ u ∈ t.threads, u.key = ⟨s.nextId, ix⟩ ∧ u.mcc = false ∧ u.core = p.core ∧ u.kern = d.kern ∧
          u.env = d.env ∧ u.base = none ∧
          (∀ r, r < 64 → u.s[r]?.getD 0 = match r with
            | 0 => d.args.extractLsb' 0 32
            | 1 => d.args.extractLsb' 32 32
            | 2 => BitVec.ofNat 32 d.next
            | 3 => BitVec.ofNat 32 ix
            | 4 => d.seq
            | _ => 0) ∧
          (∀ r i, r < 64 → i < 96 → laneOf (u.rdV t.stamp r) i = 0) ∧
          ∃ e, u.level.split? 0 = some e ∧ e.at_ = ⟨d.kern.entry, 0⟩ ∧ e.cur = allLanes ∧ e.owned = allLanes ∧ e.frame = none)) ∧
    (s.plat.computes = false → exec .workgroupPlace s = .next s)) ∧
  (∀ (s : State) (g : Workgroup) (d : Dispatch), s.group? g.id = some g → g.placed = true → s.dispatch? g.disp = some d →
    (∀ x ∈ s.dispatches, x.id = d.id → x = d) → d.node = none → g.env.deterministic = false → g.bank = false → g.window = none →
    (g.allLeft = false ∨ s.groupBusy g = true → exec (.workgroupRetire g.id) s = .next s) ∧
    (g.allLeft = true → s.groupBusy g = false → RanTo (exec (.workgroupRetire g.id) s) (fun t => t.thr = s.thr ∧
      t.groups = s.groups.filter (fun x => x.id != g.id) ∧
      (d.retired.length + 1 ≠ d.count → t.mem = s.mem ∧ ∃ d', t.dispatch? d.id = some d' ∧
        d'.retired = d.retired ++ [g.index.toNat] ∧ ∀ c : Fin 16, d'.chans[c].claimed = d.chans[c].claimed ∧
          d'.chans[c].counter = d.chans[c].counter ∧
          (g.index.toNat ∈ d'.chans[c].claimed ∨ g.index.toNat ∈ d'.chans[c].declined)) ∧
      (d.retired.length + 1 = d.count → t.dispatch? d.id = none ∧ (d.done = 0 → t.mem = s.mem) ∧
        ∀ pg, d.done.toNat % 4 = 0 → d.done ≠ 0 → Memory.wf s.mem = true → s.pageAt d.env.ptroot d.done.toNat = some pg →
          pg.ro = false → BytesWritten s.mem t.mem pg.pa [1, 0, 0, 0]))))

/-- R337, R368 to R373: a shadow swap freezes a core's resident workgroups and starts another in its bank; when the lowest
unfinished has been frozen for 4,096 clocks the shadow workgroup is saved. A workgroup that may be pre-empted begins to be
saved; drained, it is written to its context area and is on no core; placed again, its barriers, scalar registers, flags and
draw indices are those of the area. RUN_END clears a region's run. What RUN_END leaves, how a save goes on, and what the
part keeps of a saved workgroup beside its area, are the model's choices (log entries 85, 88, 89, 123). -/
def Obligations.PreemptionKeepsTheContext : Prop :=
  (∀ (s : State) (d : Dispatch) (p : Spot) (core : Nat), core < 640 → s.plat.computes = true → s.startRule d = .free →
    s.dispatches.find? (fun x => x.env.rcb == d.env.rcb && x.seq.toNat == d.seq.toNat && x.ready) = some d →
    s.shadowSpot d core = some p → RanTo (exec (.shadowSwap core d.env.rcb d.seq.toNat) s) (fun t => t.thr = s.thr ∧
      ∃ g, t.groups = s.groups.map (fun x => if x.core = core ∧ x.status = .resident
        then { x with status := .frozen, frozenAt := s.clock } else x) ++ [g] ∧
      g.id = s.nextId ∧ g.status = .shadow ∧ g.bank = true ∧ g.core = core ∧ g.disp = d.id ∧ g.kern = d.kern)) ∧
  (∀ (s : State) (core area : Nat) (g x : Workgroup), s.groups.find? (fun g => g.core == core && g.status == .shadow) = some g →
    x ∈ s.groups → x.core = core → x.status = .frozen → s.isLowest x = true → x.frozenAt + 4096 ≤ s.clock →
    area % 256 = 0 → inHbm s.plat.win.toNat area = true → s.keepsResident g = false → (∀ y ∈ s.groups, y.id = g.id → y = g) →
    RanTo (exec (.shadowSaveTimeout core area) s) (fun t => t.mem = s.mem ∧ t.group? g.id = some { g with status := .saving area })) ∧
  (∀ (s : State) (g : Workgroup) (area : Nat), s.group? g.id = some g → (∀ y ∈ s.groups, y.id = g.id → y = g) →
    (g.status = .resident → s.plat.computes = true → area % 256 = 0 → inHbm s.plat.win.toNat area = true →
      s.mayPreempt g = true →
      RanTo (exec (.fullSave g.id area) s) (fun t => t.mem = s.mem ∧ t.group? g.id = some { g with status := .saving area })) ∧
    (∀ a any, g.status = .saving a → s.drained g.id = false → exec (.fullSave g.id any) s = .next s) ∧
    (∀ a any, g.status = .saving a → s.drained g.id = true → g.window = none → g.bank = false → Memory.wf s.mem = true →
      s.live = false → RanTo (exec (.fullSave g.id any) s) (fun t => t.threads = s.threads.filter (fun u => u.key.wg != g.id) ∧
        t.flights = s.flights.filter (fun f => f.key.wg != g.id) ∧
        (∃ g', t.group? g.id = some g' ∧ g'.status = .saved a ∧
          g'.saved.map (fun u => (u.key, u.s, u.v, u.ctl, u.ray, u.draw)) =
            (s.threads.filter (fun u => u.key.wg == g.id)).map (fun u => (u.key, u.s, u.v, u.ctl, u.ray, u.draw))) ∧
        natOfBytes (t.homeRead a 4) = 1 ∧ natOfBytes (t.homeRead (a + 8) 8) = g.env.rcb % 2 ^ 64 ∧
        natOfBytes (t.homeRead (a + 20) 4) = g.index.toNat))) ∧
  (∀ (s : State) (g : Workgroup) (area : Nat) (p : Spot), s.nextPlacement = some (.saved g, p) → g.status = .saved area →
    g.queue = [] → s.group? g.id = some g →
    RanTo (exec (.restore g.id) s) (fun t => t.thr = s.thr ∧ t.mem = s.mem ∧
      (∃ g', t.group? g.id = some g' ∧ g'.core = p.core ∧ g'.window = p.window ∧ (g'.status = .resident ∨ g'.status = .frozen) ∧
        ∀ b : Fin 16, g'.bars[b] = { phase := BitVec.ofNat 16 (natOfBytes (s.homeRead (area + 256 + 16 * b) 2))
                                     expect := natOfBytes (s.homeRead (area + 256 + 16 * b + 2) 1)
                                     arrived := BitVec.ofNat 17 (natOfBytes (s.homeRead (area + 256 + 16 * b + 4) 4))
                                     counter := BitVec.ofNat 32 (natOfBytes (s.homeRead (area + 256 + 16 * b + 8) 4)) }) ∧
      (∀ u ∈ (s.loadArea g area).saved, ∃ u' ∈ t.threads,
        u' = { u with core := p.core, part := u'.part, ctl := { u.ctl with shadow := false } }) ∧
      ∀ u ∈ g.saved, u.mcc = false →
        let o := area + natOfBytes (s.homeRead (area + 64 + 8 * u.key.ix) 8)
        u.key.ix < 16 → 4480 ≤ natOfBytes (s.homeRead o 4) → ∃ u' ∈ t.threads, u'.key = u.key ∧ u'.core = p.core ∧
          (∀ r, r < 64 → u'.s[r]?.getD 0 = BitVec.ofNat 32 (natOfBytes (s.homeRead (o + 16 + 4 * r) 4))) ∧
          (∀ l, l < 96 → u'.fl[l]?.getD 0 = BitVec.ofNat 5 (natOfBytes (s.homeRead (o + 336 + l) 1))) ∧
          ∀ l, l < 96 → u'.draw[l]?.getD 0 = BitVec.ofNat 64 (natOfBytes (s.homeRead (o + 2560 + 8 * l) 8)))) ∧
  (∀ (s : State) (r : Region), s.region? r.rcb = some r → (∀ x ∈ s.regions, x.rcb = r.rcb → x = r) → r.env.dmode = 2 →
    Memory.wf s.mem = true → RanTo (exec (.runEnd r.rcb) s) (fun t => t.thr = s.thr ∧ t.rcbWord r.rcb 76 = 0 ∧
      t.rcbWord r.rcb 92 = 0 ∧ t.rcbWord r.rcb 108 = 0 ∧ t.region? r.rcb = some { r with
        traceStop := false, wgCursor := 0, visitCursor := 0, wgFallback := false, logStop := false, gates := [], runFrom := r.nextSeq
        ladle := { r.ladle with fallback := false } }))

/-- R290, R294, R295, R300, R394: MLDF loads a format set or answers that it is malformed. A MAT word whose ranges lie aligned
in the window registers them and posts its operation; MMA and MMAZ wait for it. MWAIT and MVWAIT wait while an operation is
in the tables. MVNB starts, or answers its code.
R186, R292, R296, R297, R300: the array takes the eligible entry of the highest class, the oldest among equals; a
granted pass, drain or fill that completes has written its tile or image, its ranges are free and its entry is gone; an MVNB
that completes has written y, each row one accumulation. A lock that is released early lands its operation first. That an
operation moves its data in one step, and that MVNB captures its translations at issue, are the model's readings (log
entries 71, 72). -/
def Obligations.MatrixOperationsComplete : Prop :=
  ((∀ (s : State) (d n : Reg), s.mldfBusy = false →
    let o := (s.rdS n).toNat
    let answer (x : Word) (f : MFormat) : Prop := RanTo (exec (.mldf d n) s) (fun t => ∃ f', t = { s with
      nextId := s.nextId + 1, flights := s.flights ++ [f'], thr := { s.thr with mfmt := f } } ∧ f'.id = s.nextId ∧
      f'.work = .format ∧ f'.cls = 3 ∧ f'.scalar = true ∧ f'.dst = d.toNat ∧ f'.count = 1 ∧ f'.ready = [(0, 0, x)] ∧ f'.todo = [])
    ReadsClm s o 32 32 →
    let b := cellsRead (s.cluster s.myCluster).clm (s.window s.thr.key.wg + o) 32
    (MFormat.ofBytes b = none → answer 0x80000002 s.thr.mfmt) ∧ (∀ f, MFormat.ofBytes b = some f → answer 0 f)) ∧
  (∀ (s : State) (e : Split) (d a b : Reg) (t5 : BitVec 5) (z : Bool), s.split = some e → e.parked = none → s.ctx.part = none →
    s.mldfBusy = false →
    let c := s.cluster s.myCluster
    let post (i : Instr) (fn tile : Nat) (zero : Bool) (offB ctl : Word) (touch wait : Bool) : Prop :=
      let r : Resv :=
        { id := s.nextId, key := s.thr.key, fn := fn, tile := tile, zero := zero, offA := s.rdS a, offB := offB, ctl := ctl
          fmt := s.thr.mfmt, cls := s.thr.env.prio, win := s.window s.thr.key.wg, granted := false, landed := false }
      (s.rdS a).toNat % 256 = 0 → (fn ≤ 3 → offB.toNat % 256 = 0) → (∀ x ∈ r.ranges, x.1 + x.2.1 ≤ s.thr.kern.clmBytes) →
      c.lockRoom r.locks = true → c.resv.length < 16 → RanTo (exec i s) (fun t =>
        t = { s with
          clusters := t.clusters, nextId := t.nextId, ctx := t.ctx
          thr := { s.thr with
            level := t.thr.level
            ctl := { s.thr.ctl with mtouch := if touch then s.thr.ctl.mtouch ||| ((1 : Word) <<< tile) else s.thr.ctl.mtouch } } } ∧
        t.cluster s.myCluster = { c with resv := c.resv ++ [r], locks := (t.cluster s.myCluster).locks } ∧
        (∀ l ∈ r.locks, ∃ n, (n, l) ∈ (t.cluster s.myCluster).locks) ∧
        (wait = false → t.thr.level = s.thr.level) ∧
        (wait = true → t.ctx.out = .stall ∧ ∃ w, t.split = some { e with parked := some w } ∧ w.stage = 1 + 2 * r.id))
    post (.mma d a b) 1 d.toNat false (s.rdS b) 0 true true ∧ post (.mmaz d a b) 2 d.toNat true (s.rdS b) 0 true true ∧
    post (.mpost z t5 a b) 3 t5.toNat z (s.rdS b) 0 true false ∧
    (drainCtlOk (s.rdS b) = true → post (.mdrain d a b) 5 d.toNat false 0 (s.rdS b) ((s.rdS b).getLsbD 9) false) ∧
    (fillCtlOk (s.rdS b) = true → post (.mfill d a b) 6 d.toNat false 0 (s.rdS b) true false) ∧
    ((∀ r ∈ c.resv, r.key = s.thr.key → z = false ∧ r.tile ≠ t5.toNat) → exec (.mwait z t5) s = .next s) ∧
    (∀ r ∈ c.resv, r.key = s.thr.key → z = true ∨ r.tile = t5.toNat → ParksHere s e (.mwait z t5)) ∧
    ((∀ m ∈ c.mvnb, m.key ≠ s.thr.key) → exec .mvwait s = .next s) ∧
    (∀ m ∈ c.mvnb, m.key = s.thr.key → ParksHere s e .mvwait)) ∧
  (∀ (s : State) (d a : Reg), s.mldfBusy = false → s.ctx.part = none → ReadsClm s (s.rdS a).toNat 64 64 →
    let win := s.window s.thr.key.wg
    let c := s.cluster s.myCluster
    let b := cellsRead c.clm (win + (s.rdS a).toNat) 64
    (mvnbOk b = false → Codes s (.mvnb d a) 3 d 0x80000002) ∧
    (mvnbOk b = true → ∀ pg : Nat → Page,
      (∀ x ∈ mvRanges b, ∀ va ∈ rangeBlocks x.1 x.2, va < 2 ^ 57 ∧ s.waveWalk s.thr.env.ptroot va = .page (pg va) ∧
        (pg va).type = .normal) → (∀ x ∈ mvWindow b, x.1 + x.2.1 ≤ s.thr.kern.clmBytes) →
      let home (h : Nat) : Prop := ∀ x ∈ mvRanges b, ∀ va ∈ rangeBlocks x.1 x.2,
        inWindow s.plat.win.toNat (pg va).pa = true ∧ stackOf (pg va).pa = h
      ((∀ h, ¬ home h) → Codes s (.mvnb d a) 3 d 0x80000006) ∧
      (∀ h, home h → c.mvnb.length < 4 → c.lockRoom (mvLocks s.nextId win b) = true →
        (∀ x ∈ mvRanges b, s.ownAhead s.thr.key s.nextId x.1 (x.1 + x.2 - 1) = false) →
        Codes s (.mvnb d a) 3 d 0 (fun s u => u = { s with nextId := s.nextId + 1, l2 := u.l2, clusters := u.clusters } ∧
          ∃ m, m.id = s.nextId ∧ m.key = s.thr.key ∧ m.desc = b ∧ m.win = win ∧ m.landed = false ∧
            (u.cluster s.myCluster).mvnb = c.mvnb ++ [m]))))) ∧
  ((∀ (s : State) (cl : Nat) (port : Bool), cl < 160 →
    let c := s.cluster cl
    let mine (r : Resv) : Prop := decide (r.fn ≤ 3) != port
    let ready (r : Resv) : Prop := r ∈ c.resv ∧ mine r ∧ c.resvReady r = true
    ((∃ r ∈ c.resv, mine r ∧ r.granted = true) → exec (.matGrant cl port) s = .next s) ∧
    ((∀ r ∈ c.resv, mine r → r.granted = false) → (c.resv.map Resv.id).Nodup → (∃ r, ready r) →
      RanTo (exec (.matGrant cl port) s) (fun t => t = { s with clusters := t.clusters } ∧ ∃ r, ready r ∧
        (t.cluster cl).resv = c.resv.map (fun x => if x.id = r.id then { x with granted := true } else x) ∧
        (∀ x : Resv, ready x → x.cls ≤ r.cls) ∧
        ∀ (x : Resv) (i j : Nat), ready x → x.cls = r.cls → c.resv[i]? = some r → c.resv[j]? = some x → i ≤ j))) ∧
  (∀ (s : State) (cl : Nat) (r : Resv), cl < 160 → (s.cluster cl).resv.find? (fun x => x.id == r.id) = some r →
    let c := s.cluster cl
    (r.granted = false → exec (.matEntryComplete cl r.id) s = .next s) ∧
    (r.granted = true → r.landed = false → (r.fn = 5 → r.ctl.getLsbD 10 = false) → Memory.wf c.clm = true →
      RanTo (exec (.matEntryComplete cl r.id) s) (fun t => t.mem = s.mem ∧ t.thr.s = s.thr.s ∧
        (t.cluster cl).resv = c.resv.filter (fun x => x.id != r.id) ∧
        (t.cluster cl).locks = c.locks.filter (fun x => x.2.op != r.id) ∧
        (∀ o, o ≠ r.tile → (t.cluster cl).tile o = c.tile o) ∧
        (r.fn ≤ 3 → (t.cluster cl).clm = c.clm ∧ (t.cluster cl).tile r.tile = (c.runPass r).1) ∧
        (r.fn = 6 → (t.cluster cl).clm = c.clm ∧ (t.cluster cl).tile r.tile = (c.fillTile r).1) ∧
        (r.fn = 5 → BytesWritten c.clm (t.cluster cl).clm (r.win + r.offA.toNat) (drainImage r.ctl (c.tile r.tile)) ∧
          (t.cluster cl).tile r.tile = if r.ctl.getLsbD 9 then List.replicate 4096 0 else c.tile r.tile)))) ∧
  (∀ (s : State) (cl : Nat) (m : Mvnb), cl < 160 → (s.cluster cl).mvnb.find? (fun x => x.id == m.id) = some m →
    m.landed = false → fieldAt m.desc 48 4 / 2 % 2 = 0 → Memory.wf (s.cluster cl).clm = true →
    let c := s.cluster cl
    let xz := mvX m.desc
    let xa := m.win + fieldAt m.desc 40 4
    let x := (List.range (fieldAt m.desc 28 4)).map (fun i =>
      (FFmt.ofCode (fieldAt m.desc 39 1)).read (BitVec.ofNat 32 (natOfBytes (cellsRead c.clm (xa + xz * i) xz))))
    let y := (List.range (fieldAt m.desc 24 4)).flatMap (fun n =>
      bytesOfNat 4 (s.mvRowValue c m x (c.clmPoisoned xa (xz * fieldAt m.desc 28 4)) n).1.toNat)
    RanTo (exec (.mvnbComplete cl m.id) s) (fun t => t.mem = s.mem ∧ t.thr.s = s.thr.s ∧
      (t.cluster cl).mvnb = c.mvnb.filter (fun z => z.id != m.id) ∧
      BytesWritten c.clm (t.cluster cl).clm (m.win + fieldAt m.desc 44 4) y)) ∧
  (∀ (s : State) (cl n : Nat) (l : Lock) (r : Resv), cl < 160 → (s.cluster cl).locks.find? (fun x => x.1 == n) = some (n, l) →
    (s.cluster cl).resv.find? (fun x => x.id == l.op) = some r →
    (r.granted = false → exec (.rangeLockRelease cl n) s = .next s) ∧
    (r.granted = true → RanTo (exec (.rangeLockRelease cl n) s) (fun t => t.mem = s.mem ∧
      (t.cluster cl).locks = (s.cluster cl).locks.filter (fun x => x.1 != n) ∧
      (r.landed = false → ∀ x ∈ (t.cluster cl).resv, x.id = r.id → x.landed = true)))))

/-- R309, R313, R314, R315: HLOAD, HSTORE and HMCAST with a descriptor and a command that meet R304 and R305 wait as an
operation of the cluster; HPREF touches the box's lines and answers 0; a malformed pair answers 0x80000002. HBATCH numbers a
batch, WAITB waits for every batch up to one, HQRY reads the lock table.
R191, R309 to R311, R314, R316: a waiting operation that can register its ranges and finds a free slot starts: its word goes on
and its register will read 0. An HLOAD that completes has written its image, rotated, into its window and nothing else; a
receiver's share of an HMCAST likewise, and the last one releases the operation's entries; each counts a delivery down at its
barrier, and ends the phase with the last. An HSTORE that completes has stored its elements in ascending order, plainly, packed
or reduced, and its lines are in the L1 no more. A completed operation leaves its locks and its batch. What a sector takes of
poison is the model's reading (log entry 73). -/
def Obligations.HamperOperationsRunToTheirEnd : Prop :=
  ((∀ (s : State) (e : Split) (d a : Reg) (p : BitVec 5) (h : BitVec 2) (pg : Page), s.split = some e → e.parked = none →
    ReadsClm s (s.rdS a).toNat 64 64 → Reads s (s.base p).toNat 128 128 pg → pg.type = .normal →
    let m := cellsRead (s.cluster s.myCluster).clm (s.window s.thr.key.wg + (s.rdS a).toNat) 64
    let desc := s.homeRead pg.pa 128
    let c := Copy.read desc m
    let ok (fn : Nat) : Bool := descOk desc && commandOk fn m && c.consistent fn
    let waits (i : Instr) (fn : Nat) (shares : List Nat) : Prop := ok fn = true → c.off + c.imageBytes ≤ s.thr.kern.clmBytes →
      RanTo (exec i s) (fun t => t.mem = s.mem ∧ t.thr.s = s.thr.s ∧ t.ctx.out = .stall ∧ ∃ o w,
        (t.cluster s.myCluster).hamper = (s.cluster s.myCluster).hamper ++ [o] ∧ o.id = s.nextId ∧ o.key = s.thr.key ∧ o.fn = fn ∧
        o.command = m ∧ o.desc = desc ∧ o.dst = d.toNat ∧ o.started = false ∧ o.shares = shares ∧
        t.split = some { e with parked := some w } ∧ w.stage = 1 ∧ w.id = o.word)
    (ok 0 = false → Codes s (.hload d a p h) 3 d 0x80000002) ∧ (ok 1 = false → Codes s (.hstore d a p h) 3 d 0x80000002) ∧
    (ok 2 = false → Codes s (.hmcast d a p h) 3 d 0x80000002) ∧ (ok 3 = false → Codes s (.hpref d a p h) 3 d 0x80000002) ∧
    waits (.hload d a p h) 0 [s.thr.key.wg] ∧ waits (.hstore d a p h) 1 [] ∧
    (∀ rs, s.receivers c = some rs → waits (.hmcast d a p h) 2 rs) ∧
    (s.receivers c = none → ok 2 = true → c.off + c.imageBytes ≤ s.thr.kern.clmBytes →
      Codes s (.hmcast d a p h) 3 d 0x80000007) ∧
    (ok 3 = true → c.off + c.imageBytes ≤ s.thr.kern.clmBytes →
      Codes s (.hpref d a p h) 3 d 0 (fun s u => u = { s with
        l2 := u.l2, owners := u.owners, stale := u.stale, clusters := u.clusters } ∧
        ∀ k, u.cluster k = { s.cluster k with l1 := (u.cluster k).l1 }))) ∧
  (∀ (s : State) (d : Reg),
    let n := s.thr.ctl.hbatch + 1
    RanTo (exec (.hbatch d) s) (fun t => ScalarTo { s with thr := { s.thr with
      ctl := { s.thr.ctl with hbatch := n }
      openOps := []
      batches := s.thr.batches ++ (if s.thr.openOps = [] then [] else [⟨n, s.thr.openOps⟩]) } } t d d false n)) ∧
  (∀ (s : State) (e : Split) (n : Reg), s.split = some e → e.parked = none →
    let last := s.thr.ctl.hbatch
    let x := if (last - s.rdS n).toNat < 2 ^ 31 then s.rdS n else last
    let open_ := ∃ b ∈ s.thr.batches, (x - b.num).toNat < 2 ^ 31
    (open_ → ParksHere s e (.waitb n)) ∧ (¬ open_ → exec (.waitb n) s = .next s)) ∧
  (∀ (s : State) (d a : Reg) (p : BitVec 5) (h : BitVec 2),
    let x := if h = 1 then s.window s.thr.key.wg + (s.rdSn (2 * p.toNat) + s.rdS a).toNat else scaVa s a p 0
    let locks := (s.cluster s.myCluster).locks
    let held (dest : Bool) : Prop := ∃ l ∈ locks, l.2.clm = decide (h = 1) ∧ l.2.dest = dest ∧ l.2.lo ≤ x ∧ x ≤ l.2.hi
    ∃ b0 b1, (b0 = 1 ∧ held false ∨ b0 = 0 ∧ ¬ held false) ∧ (b1 = 2 ∧ held true ∨ b1 = 0 ∧ ¬ held true) ∧
      Codes s (.hqry d a p h) 3 d (BitVec.ofNat 32 (b0 + b1 + 65536 * (64 - locks.length))))) ∧
  ((∀ (s : State) (o : HamperOp) (cl : Nat), (s.clusters.findSome? (fun c => (c.hamper.find? (fun x =>
      x.key == o.key && x.sp == o.sp && !x.started)).map (fun x => (c.id, x)))) = some (cl, o) → cl < 160 →
    s.live = true → s.thr.key = o.key → o ∈ (s.cluster cl).hamper → (∀ x ∈ (s.cluster cl).hamper, x.id = o.id → x = o) →
    let ls := s.hamperLocks cl o
    let mine (k : Nat) : List Lock := (ls.filter (fun x => x.1 == k)).map Prod.snd
    ((∃ k, k ∈ ls.map Prod.fst ∧ (s.cluster k).lockRoom (mine k) = false) → o.locked = false →
      exec (.hamperOpStart o.key o.sp) s = .next s) ∧
    ((∀ k, k ∈ ls.map Prod.fst → (s.cluster k).lockRoom (mine k) = true) → o.locked = false →
      (s.cluster cl).hamper.countP HamperOp.started < 32 → (o.fn ≠ 1 → ∀ lo hi, o.copy.memRange o.fn = some (lo, hi) →
        s.ownAhead o.key o.word lo hi = false) → RanTo (exec (.hamperOpStart o.key o.sp) s) (fun t => t.mem = s.mem ∧
        t.thr.openOps = s.thr.openOps ++ [o.id] ∧ { o with locked := true, started := true } ∈ (t.cluster cl).hamper ∧
        (∃ f, t.flights = s.flights ++ [f] ∧ f.key = o.key ∧ f.dst = o.dst ∧ f.scalar = true ∧ f.count = 1 ∧
          f.ready = [(0, 0, 0)]) ∧
        ∀ sp e w, s.thr.level.split? sp = some e → e.parked = some w → w.id = o.word →
          ∃ e' w', t.thr.level.split? sp = some e' ∧ e'.parked = some w' ∧ w'.stage = 2 ∧ w'.go = true))) ∧
  (∀ (s : State) (cl : Nat) (o : HamperOp) (g : Workgroup) (w : Nat) (image : List Byte), cl < 160 →
    (s.cluster cl).hamper.find? (fun x => x.id == o.id) = some o → o.started = true → o.waits = [] → o.image = some image →
    Memory.wf (s.cluster cl).clm = true → g.status = .resident → g.window = some w → clusterOf g.core = cl →
    let lands (t : State) : Prop := t.mem = s.mem ∧ t.thr.s = s.thr.s ∧
      BytesWritten (s.cluster cl).clm (t.cluster cl).clm (w + o.copy.off) (o.copy.rotated image)
    let delivered (t : State) : Prop := ∀ (b : Nat) (x : Barrier), o.copy.bar = some b → g.bars[b]? = some x →
      (t.group? g.id).bind (fun y => y.bars[b]?) =
        if x.counter = 1 ∧ x.expect ≠ 0 ∧ (List.range 17).countP (fun i => x.arrived.getLsbD i) = x.expect
        then some { x with phase := x.phase + 1, arrived := 0, counter := 0 } else some { x with counter := x.counter - 1 }
    (o.fn = 0 → o.landed = false → s.group? o.key.wg = some g → RanTo (exec (.hamperOpComplete cl o.id) s) (fun t => lands t ∧
      delivered t ∧ (∀ x ∈ (t.cluster cl).hamper, x.id ≠ o.id) ∧ (∀ x ∈ (t.cluster cl).locks, x.2.op ≠ o.id) ∧
      o.id ∉ t.thr.openOps ∧ ∀ b ∈ t.thr.batches, o.id ∉ b.ops ∧ b.ops ≠ [])) ∧
    (o.fn = 2 → g.id ∈ o.shares → s.group? g.id = some g → RanTo (exec (.hmcastShareLand cl o.id g.id) s) (fun t => lands t ∧
      delivered t ∧ (∃ x, (t.cluster cl).hamper.find? (fun x => x.id == o.id) = some x ∧ x.shares = o.shares.erase g.id) ∧
      (o.shares = [g.id] → ∀ x ∈ (t.cluster cl).locks, x.2.op ≠ o.id))) ∧
    (o.fn = 2 → o.shares = [] → RanTo (exec (.hamperOpComplete cl o.id) s) (fun t => t.mem = s.mem ∧
      ∀ x ∈ (t.cluster cl).hamper, x.id ≠ o.id))) ∧
  (∀ (s : State) (cl : Nat) (o : HamperOp), cl < 160 → (s.cluster cl).hamper.find? (fun x => x.id == o.id) = some o →
    o.started = true → o.waits = [] → o.fn = 1 → o.landed = false → s.hamperHeld o = none →
    let js := List.range o.copy.total
    RanTo (exec (.hamperOpComplete cl o.id) s) (fun t => t.thr.s = s.thr.s ∧
      t.mem = (js.foldl (fun (u : State) j => u.storeElem o o.copy (s.cluster cl) j) s).mem ∧
      (t.cluster cl).clm = (s.cluster cl).clm ∧ (∀ x ∈ (t.cluster cl).hamper, x.id ≠ o.id) ∧
      (∀ x ∈ (t.cluster cl).locks, x.2.op ≠ o.id) ∧ o.id ∉ t.thr.openOps ∧ (∀ b ∈ t.thr.batches, o.id ∉ b.ops ∧ b.ops ≠ []) ∧
      ∀ l ∈ (t.cluster cl).l1, ∀ j ∈ js, ∀ r ∈ s.storeRuns o o.copy j, l.line ≠ r.1 / 64)) ∧
  (∀ (s : State) (o : HamperOp) (k : Cluster) (j : Nat), Memory.wf s.mem = true →
    let c := o.copy
    let t := s.storeElem o c k j
    (c.target j = none → t = s) ∧
    (∀ (e : ElemAt) (pa : Nat) (pg : Page), c.target j = some e → s.elemPages o e = .runs [(pa, pg, e.n)] →
      let (off, n, bit) := c.imageAt j
      let x := natOfBytes ((List.range n).map (fun i => cellRead k.clm (o.clmAt c (off + i))))
      let old := natOfBytes (s.homeRead pa e.n)
      (o.imageBad c k j = true → t.mem = s.mem ∧ sectorOf pa ∈ t.poison) ∧
      (o.imageBad c k j = false →
        (c.six = false → c.red = 0 → BytesWritten s.mem t.mem pa (bytesOfNat c.size x)) ∧
        (c.six = false → c.red ≠ 0 → BytesWritten s.mem t.mem pa
          (bytesOfNat c.size (reduceElem c.red c.rfmt (BitVec.ofNat 32 old) (BitVec.ofNat 32 x)).toNat)) ∧
        (c.six = true → BytesWritten s.mem t.mem pa
          (bytesOfNat e.n (old - old / 2 ^ e.bit % 64 * 2 ^ e.bit + x / 2 ^ bit % 64 * 2 ^ e.bit)))))))

/-- R378 to R382: a rise or fall of the band in force, and Flask's commands and conditions, move Flask as R380 gives; an
excursion counts, records its peak and tells Trestle; SERVICE keeps its cause. With the function host-assisted a change
waits for RESUME (R382, R388). When a change waits for RESUME is the model's reading (log entry 94).
R384 to R388, R391, R392, R393: writes of the platform registers, scrub passes, what the scrubber finds, row binning,
the retirement of a page, Decro transfers, reset. What a reset keeps, when a page moves, and what an assisted function asks,
are the model's readings (log entries 97, 98, 101). -/
def Obligations.PlatformFollowsItsStates : Prop :=
  (∀ (s : State), s.plat.duty.getLsbD 5 = false →
    let f := s.plat.flask
    let leave (i : Instr) (t : State) : Prop := exec i s = .next t
    (∀ b x r,
      let u := sensed s b x r
      (¬ (s.plat.band.toNat < b.toNat ∧ b.toNat = bandOf x.toNat) → leave (.bandRise b x r) s) ∧
      (s.plat.band.toNat < b.toNat → b.toNat = bandOf x.toNat →
        (f = .run → b ≠ 4 → leave (.bandRise b x r) (excursionIn (flaskIn u .excursion 0))) ∧
        (f = .run → b = 4 → leave (.bandRise b x r) (flaskIn (excursionIn (flaskIn u .excursion 0)) .service 2)) ∧
        (f = .excursion → b ≠ 4 → leave (.bandRise b x r) (excursionIn u)) ∧
        (f = .excursion → b = 4 → leave (.bandRise b x r) (flaskIn (excursionIn u) .service 2)) ∧
        (f = .train → leave (.bandRise b x r) (flaskIn u .soak 0)) ∧
        (f = .ascend → leave (.bandRise b x r) (if b = 4 then flaskIn u .service 3 else u)) ∧
        (f = .ambient ∨ f = .purge ∨ f = .descend ∨ f = .soak ∨ f = .service → leave (.bandRise b x r) u)) ∧
      let low := b.toNat < s.plat.band.toNat ∧ x.toNat + 6 ≤ bandBound (b.toNat + 1) ∧
        ∃ t, s.plat.lowAt[b.toNat]?.join = some t ∧ t + 10 ^ 9 ≤ s.time
      (¬ low → leave (.bandFall b x r) s) ∧
      (low →
        (f = .descend → leave (.bandFall b x r) (if b = 0 then flaskIn u .soak 0 else u)) ∧
        (f = .train ∨ f = .run → b = 0 → leave (.bandFall b x r) u) ∧
        (f = .ambient ∨ f = .purge ∨ f = .soak ∨ f = .excursion ∨ f = .ascend ∨ f = .service → b ≠ 4 →
          leave (.bandFall b x r) u))) ∧
    ((f = .soak ∧ s.plat.band = 0 ∧ ∃ t, s.plat.steadyAt = some t ∧ t + 600 * 10 ^ 9 ≤ s.time) →
      leave .soakStable (flaskIn s .train 0)) ∧
    (¬ (f = .soak ∧ s.plat.band = 0 ∧ ∃ t, s.plat.steadyAt = some t ∧ t + 600 * 10 ^ 9 ≤ s.time) → leave .soakStable s) ∧
    (s.plat.band = 0 ∨ f ≠ .train → leave .trainComplete (if f = .train then flaskIn s .run 0 else s)) ∧
    leave .trainFail (if f = .train then flaskIn s .service 1 else s) ∧
    leave .excursionClear (if f = .excursion ∧ s.plat.band = 0 ∧ s.plat.zeroAt + 60 * 10 ^ 9 ≤ s.time then flaskIn s .run 0 else s) ∧
    leave .flaskCool (if f = .ambient ∨ f = .service then flaskIn s .purge 0 else s) ∧
    (s.plat.band ≠ 4 → leave .flaskWarm (if f = .run ∨ f = .excursion then flaskIn s .ascend 0 else s)) ∧
    (s.plat.wanted = none → s.plat.band ≠ 0 →
      leave .flaskResume (if f = .purge ∧ s.plat.purged = true then flaskIn s .descend 0 else s)) ∧
    leave .flaskService (if f = .ambient ∨ f = .service then s else flaskIn s .service 4) ∧
    leave .excursionClr { s with plat := { s.plat with excCount := 0, excPeak := 0 } } ∧
    (∀ a : State, a = { s with plat := { s.plat with duty := s.plat.duty ||| 32 } } →
      (f = .train → a.plat.wanted ≠ some (.service, 1) → RanTo (exec .trainFail a) (fun t => t.plat.flask = .train ∧
        t.plat.wanted = some (.service, 1) ∧ ∃ r, t.plat.dutyReqs = a.plat.dutyReqs.filter (fun r => r.fn != 5) ++ [r] ∧
          r.fn = 5 ∧ r.a = 8 ∧ r.b = 1 ∧ t.events = a.events ++ [.request r.id 5 8 1])) ∧
      (∀ c, a.plat.wanted = some (.service, c) → exec .flaskResume a = .next (flaskIn a .service c)))) ∧
  ((∀ (s : State) (x : Word) (q : Bool),
    let plat (p : Platform) : Out := .next { s with plat := p }
    let port (c : CxlPort → CxlPort) : Platform :=
      if q then { s.plat with cxl1 := c s.plat.cxl1 } else { s.plat with cxl0 := c s.plat.cxl0 }
    let write (c : CxlPort) : CxlPort := { c with tmo := x.setWidth 8, down := c.down && !x.getLsbD 30 }
    exec (.stackwinWrite x) s = (if s.plat.winLock = true ∨ 32 < x.toNat % 64 then .next s else plat { s.plat with win := x.setWidth 6 }) ∧
    exec (.cxlDownClear q) s = plat (port (fun c => { c with down := false })) ∧
    exec (.cxlLinkUp q) s = plat (port (fun c => { c with link := true })) ∧
    exec (.platformRegisterWrite (if q then .cxl1 else .cxl0) x) s = plat (port write) ∧
    exec (.platformRegisterWrite .duty x) s = plat { s.plat with duty := x.setWidth 6 } ∧
    exec (.platformRegisterWrite .scrub x) s =
      plat { s.plat with thresh := BitVec.ofNat 8 (min 64 (x.toNat / 2 ^ 24)), period := x.extractLsb' 16 8 } ∧
    (∀ l, exec (.decroLinkLoss l) s = plat { s.plat with decro := s.plat.decro.map (fun d =>
      if d.link = l ∧ d.done = none then { d with done := some false } else d) }) ∧
    (∀ rcb, exec (.regionTeardown rcb) s = .next { s with watches := s.watches.filter (fun w => w.env.rcb != rcb) }) ∧
    (∀ firmware good, exec (.deviceReset firmware good) s = .next { State.reset with
      agenda := s.agenda, stamp := s.stamp, nextId := s.nextId
      plat := { Platform.reset with retired := s.plat.retired, firmware := match firmware with
        | none => none
        | some code => if Config.shake256 good.key 64 = Config.fusedKeyHash ∧
            Config.bootSignatureOk good.key (Config.shake256 code 64) good.sig = true then some code else none } })) ∧
  (∀ (s : State) (chan : Nat), chan < 384 →
    let c := s.plat.channel chan
    let start := nextSector s.plat.win.toNat chan 0
    (∀ row, let last := ((c.fresh.find? (fun x => x.1 == row)).map Prod.snd).getD 0
      let k := if s.plat.band = 1 then 64 else if s.plat.band = 2 then 8 else 1
      let due := last + c.classOf row * k * 10 ^ 6 ≤ s.time
      (s.plat.band = 0 ∨ ¬ due → exec (.refreshRow chan row) s = .next s) ∧
      (s.plat.band ≠ 0 → due → RanTo (exec (.refreshRow chan row) s)
        (ChannelIs s · chan { c with fresh := (row, s.time) :: c.fresh.filter (fun x => x.1 != row) }))) ∧
    (∀ row, c.classOf row = if c.loaded = true ∧ bloomHas c.bits32 row = false then
      (if bloomHas c.bits64 row = true then 64 else 128) else 32) ∧
    (s.plat.duty.getLsbD 2 = false →
      let due := ∀ t, c.begun = some t → t + max 1 s.plat.period.toNat * 3600 * 10 ^ 9 ≤ s.time
      (c.pos = none → due → RanTo (exec (.scrubPassStart chan) s)
        (ChannelIs s · chan { c with pos := start, begun := some s.time, asked := false, level := 0, errors := [] })) ∧
      (c.pos ≠ none ∨ ¬ due → exec (.scrubPassStart chan) s = .next s)) ∧
    (∀ n, (c.asked = true ∨ c.pos = none ∨ s.passBehind c < n → exec (.scrubEscalate chan n) s = .next s) ∧
      (c.asked = false → c.pos ≠ none → n ≤ s.passBehind c → RanTo (exec (.scrubEscalate chan n) s) (ChannelIs s · chan
        { c with level := if 25 ≤ n then 2 else if 10 ≤ n ∧ c.level = 0 then 1 else c.level }))) ∧
    (s.plat.duty.getLsbD 2 = true → c.pos = none → (∀ r ∈ s.plat.dutyReqs, r.fn ≠ 2) →
      RanTo (exec (.scrubPassStart chan) s) (fun t => ∃ r, t.plat.dutyReqs = s.plat.dutyReqs ++ [r] ∧ r.fn = 2 ∧ r.a = chan)) ∧
    (∀ r, s.plat.dutyReqs = [r] → r.fn = 2 → r.a = chan → RanTo (exec (.dutyRequestAnswer r.id) s) (fun t =>
      t.plat.dutyReqs = [] ∧ t.mem = s.mem ∧
      t.plat.channel chan = { c with pos := start, begun := some s.time, asked := true, level := 0, errors := [] })) ∧
    (∀ a found, (c.pos ≠ some (a / 32) ∨ c.level = 0 ∧ s.plat.thresh.toNat ≤ s.channelQueue chan →
        exec (.scrubSector chan a found) s = .next s) ∧
      (c.pos = some (a / 32) → c.level ≠ 0 ∨ s.channelQueue chan < s.plat.thresh.toNat →
        let dirty := ∃ l ∈ s.l2, l.line = a / 256 ∧ l.dirty.getLsbD (a / 32 % 8) = true
        let next := { c with pos := nextSector s.plat.win.toNat chan (a / 32 + 1) }
        (dirty → RanTo (exec (.scrubSector chan a found) s) (ChannelIs s · chan next)) ∧
        (¬ dirty → found ≠ .mismatch → s.mismatch (a / 32) = false →
          (found = .clean → RanTo (exec (.scrubSector chan a found) s) (ChannelIs s · chan next)) ∧
          (found = .correctable → RanTo (exec (.scrubSector chan a found) s)
            (ChannelIs s · chan (next.correct (Config.rowOf a))))) ∧
        (¬ dirty → found = .mismatch ∨ s.mismatch (a / 32) = true → RanTo (exec (.scrubSector chan a found) s) (fun t =>
          t.mem = s.mem ∧ t.plat.channel chan = next ∧ ∀ x, x ∈ t.poison ↔ x ∈ s.poison ∨ x = a / 32)))) ∧
    (∀ row cls, (s.plat.flask ≠ .service → exec (.rowBinning chan row cls) s = .next s) ∧
      (s.plat.flask = .service → s.plat.duty.getLsbD 1 = false → RanTo (exec (.rowBinning chan row cls) s) (fun t =>
        let bit (b : Nat) : Prop := ∃ i, i < 4 ∧ b = Config.bloomHash i row % 2 ^ 19
        ∃ d, ChannelIs s t chan d ∧ (∀ b, b ∈ d.bits32 ↔ b ∈ c.bits32 ∨ bit b ∧ cls = .ms32) ∧
          (∀ b, b ∈ d.bits64 ↔ b ∈ c.bits64 ∨ bit b ∧ cls = .ms64) ∧
          ∀ r, r ∈ d.marked ↔ r ∈ c.marked ∨ r = row ∧ cls = .fails))) ∧
    (∀ b32 b64, s.plat.flask = .service → RanTo (exec (.bloomFilterLoad chan b32 b64) s)
      (ChannelIs s · chan { c with loaded := true, bits32 := b32, bits64 := b64 }))) ∧
  (∀ (s : State) (old new : Nat) (ents : List (Nat × BitVec 64)), old % 65536 = 0 → new % 65536 = 0 → old ≠ new →
    inMap s.plat.win.toNat old = true → inMap s.plat.win.toNat new = true → old ∉ s.plat.retired →
    (s.plat.moving = none → s.mustRetire old = true → s.isFree new 65536 = true →
      exec (.pageRetire old new ents) s = .next { s with plat := { s.plat with moving := some (old, new) } }) ∧
    (s.plat.moving = none → s.mustRetire old = false ∨ s.isFree new 65536 = false →
      exec (.pageRetire old new ents) s = .next s) ∧
    (s.plat.moving = some (old, new) → s.pageBusy old = true → exec (.pageRetire old new ents) s = .next s) ∧
    (s.plat.moving = some (old, new) → s.pageBusy old = false → (s.movePage old new ents).unmapped old = true →
      Memory.wf s.mem = true → s.stale = [] → (∀ c ∈ s.crucible, s.holdOver c.1 = false ∧ c.1 / 65536 ≠ old / 65536) →
      (∀ e ∈ ents, e.1 + 8 ≤ new ∨ new + 65536 ≤ e.1) →
      RanTo (exec (.pageRetire old new ents) s) (fun t => t.thr = s.thr ∧ old ∈ t.plat.retired ∧ t.plat.moving = none ∧
        (∀ x, x < 65536 → cellRead t.mem (new + x) = cellRead s.mem (old + x)) ∧
        ∀ i, i < 2048 → (new / 32 + i ∈ t.poison ↔ old / 32 + i ∈ s.poison)))) ∧
  (∀ (s : State) (link a : Nat) (data : List Byte), link < 72 → Memory.wf s.mem = true →
    (inMap s.plat.win.toNat a = true → inMap s.plat.win.toNat (a + data.length - 1) = true →
      (∀ c ∈ s.crucible, s.holdOver c.1 = false ∧ (c.1 + 32 ≤ a ∨ a + data.length ≤ c.1)) →
      RanTo (exec (.decroTransferArrive link a data) s) (fun t => t.thr = s.thr ∧ BytesWritten s.mem t.mem a data ∧
        t.plat = { s.plat with decro := s.plat.decro ++ [⟨link, a, some true⟩] })) ∧
    (inMap s.plat.win.toNat a = false → exec (.decroTransferArrive link a data) s = .fault .physicalHole)))

/-- R389, R390, R393: Trestle reads the next entry of a ring once the doorbell has announced it; without firmware, or with an
unnamed byte of its arguments set, it is answered without effect; an unknown code is answered 0xFFFF_FFFF.
R49, R51, R52, R328, R390, R393: what each request does. LOAD refuses a broken image with its code and index, else
places it; LOAD_COMPLETE answers the handle, and the image may be launched. UNLOAD takes an idle image away. LAUNCH starts a
dispatch. ALLOC and FREE keep the client's ranges. COPY writes or returns bytes. ATTEST returns a signed report, EVENTS the
records of the client's fault domains. What the firmware does where R49 to R52 and R390 do not say it, from the order of
refusals to the layout of the report, is the model's reading (log entries 102, 103, 105 to 109). -/
def Obligations.RequestsHaveTheirEffect : Prop :=
  (∀ (s : State) (rq : HostReq) (rcb va n : Nat) (b : List Byte) (p : LoadPlan) (z : CopyArgs) (g : AllocArgs)
      (ents : List (Nat × BitVec 64)) (q : Bool) (code : Word), 8 < code.toNat → (z.dir = 0 → z.data.length = z.bytes) →
    let c := s.client rq.client.toNat
    let all : List (Instr × Ask) := [(.hostLoad rq rcb b q p, .load b q), (.hostUnload rq n ents, .unload n),
      (.hostLaunch rq rcb b, .launch b), (.hostFree rq rcb va n ents, .free va n), (.hostEvents rq n, .events n),
      (.hostAlloc rq rcb g va ents, .alloc g), (.hostCopy rq rcb z, .copy z), (.hostAttest rq b, .attest b),
      (.hostUnknownRequest rq code, .other code.toNat)]
    let only (i : Instr) (status : Word) : Prop := RanTo (exec i s) (fun t => Replied s t rq (plain rq status) ∧
      t = { s with plat := { s.plat with clients := t.plat.clients } })
    (c.bell ≤ c.read → ∀ x ∈ all, exec x.1 s = .next s) ∧
    (∀ x ∈ all, RequestHeard s rq x.2 →
      (s.plat.firmware = none → only x.1 0xFFFFFFFE) ∧
      (s.plat.firmware ≠ none → x.2.clean (s.nextEntry rq) = false → only x.1 0xFFFFFFFD)) ∧
    (RequestServed s rq (.other code.toNat) → only (.hostUnknownRequest rq code) 0xFFFFFFFF)) ∧
  ((∀ (s : State) (rq : HostReq) (rcb : Nat) (env : Env) (b : List Byte) (sig : Bool) (plan : LoadPlan), RequestServed s rq (.load b sig) →
    s.resolveEnv rcb = some env →
    (∀ code i, loadCheck b sig = some (code, i) → RanTo (exec (.hostLoad rq rcb b sig plan) s) (fun t =>
      Replied s t rq ⟨rq.tag, BitVec.ofNat 32 code, 0, BitVec.ofNat 32 i, [], []⟩ (noted rcb) ∧ t.images = s.images ∧ t.mem = s.mem)) ∧
    (loadCheck b sig = none → s.planTaken env b sig plan = true → RanTo (exec (.hostLoad rq rcb b sig plan) s) (fun t =>
      t.thr = s.thr ∧ ∃ i, t.images = s.images ++ [i] ∧ i.handle = s.nextId ∧ i.client = rq.client.toNat ∧ i.tag = rq.tag ∧
        i.rcb = env.rcb ∧ i.base = plan.base ∧ i.loading = true ∧ i.bytes = b.length ∧
        i.kerns.length = (descsOf b 8 128).length))) ∧
  (∀ (s : State) (i : Image), s.images.find? (fun x => x.handle == i.handle) = some i →
    (i.loading = false → exec (.loadComplete i.handle) s = .next s) ∧
    (i.loading = true → RanTo (exec (.loadComplete i.handle) s) (fun t => t.mem = s.mem ∧
      t.images.find? (fun x => x.handle == i.handle) = some { i with loading := false } ∧
      (t.client i.client).answers = (s.client i.client).answers ++ [⟨i.tag, 0, BitVec.ofNat 64 i.handle, 0, [], []⟩]))) ∧
  (∀ (s : State) (rq : HostReq),
    let cl := rq.client.toNat
    let c := s.client cl
    (∀ h ents, RequestServed s rq (.unload h) → ((∀ i ∈ s.images, i.handle = h → i.client ≠ cl) →
        RanTo (exec (.hostUnload rq h ents) s) (fun t => Replied s t rq (plain rq 2) ∧ t.images = s.images)) ∧
      ∀ i, s.images.find? (fun x => x.handle == h && x.client == cl) = some i →
        (s.imageBusy i = true → RanTo (exec (.hostUnload rq h ents) s) (fun t =>
          Replied s t rq (plain rq 1) ∧ t.images = s.images)) ∧
        (s.imageBusy i = false → RanTo (exec (.hostUnload rq h ents) s) (fun t =>
          Replied s t rq (plain rq 0) ∧ t.images = s.images.filter (fun x => x.handle != h)))) ∧
    (∀ rcb b, RequestServed s rq (.launch b) →
      let root := s.rootOf rcb
      let open_ (rcb : Nat) : Nat := s.dispatches.countP (fun x => x.env.rcb == rcb && x.node.isNone)
      (s.findKern root (fieldAt b 0 8) = none → 256 ≤ open_ rcb → RanTo (exec (.hostLaunch rq rcb b) s) (fun t =>
        Replied s t rq (plain rq 0x80000001) (noted rcb) ∧ t.dispatches = s.dispatches)) ∧
      (∀ i k x, s.findKern root (fieldAt b 0 8) = some (i, k) → k.template = some x → i.copyFor x rcb = none →
        exec (.hostLaunch rq rcb b) s = .next s) ∧
      (∀ i k env region, s.findKern root (fieldAt b 0 8) = some (i, k) →
        (k.template = none ∧ region = rcb ∨ ∃ x, k.template = some x ∧ i.copyFor x rcb = some region) → k.input = none →
        open_ region < 256 → s.resolveEnv region = some env → env.rcb = region → fieldAt b 16 4 ≠ 0 → fieldAt b 20 4 = 0 →
        s.doneOk env.ptroot (fieldAt b 24 8) = true →
        let seq := ((s.region? region).map Region.nextSeq).getD 0
        seq < 2 ^ 31 → RanTo (exec (.hostLaunch rq rcb b) s) (fun t =>
          Replied s t rq (plain rq 0 (BitVec.ofNat 64 seq)) (noted rcb) ∧ ∃ d, t.dispatches = s.dispatches ++ [d] ∧
          d.kern = k ∧ d.env = env ∧ d.seq = BitVec.ofNat 32 seq ∧ d.count = fieldAt b 16 4))) ∧
    (∀ rcb a va ents, RequestServed s rq (.alloc a) →
      (allocPage a = none → RanTo (exec (.hostAlloc rq rcb a va ents) s) (fun t => Replied s t rq (plain rq 2))) ∧
      (∀ n, allocPage a = some n →
        (ents = [] → RanTo (exec (.hostAlloc rq rcb a va ents) s) (fun t => Replied s t rq (plain rq 1))) ∧
        (ents ≠ [] → (s.writeTables ents).allocMapped (s.rootOf rcb) va n a = true →
          RanTo (exec (.hostAlloc rq rcb a va ents) s) (fun t => t.mem = (s.writeTables ents).mem ∧
            Replied s t rq (plain rq 0 (BitVec.ofNat 64 va)) (fun c => noted rcb { c with allocs := c.allocs ++ [(va, a.bytes)] }))))) ∧
    (∀ rcb va n ents, RequestServed s rq (.free va n) →
      (n = 0 ∨ (∀ r ∈ c.allocs, ¬ (r.1 ≤ va ∧ va + n ≤ r.1 + r.2)) →
        RanTo (exec (.hostFree rq rcb va n ents) s) (fun t => Replied s t rq (plain rq 1) ∧ t.mem = s.mem)) ∧
      (n ≠ 0 → (∃ r ∈ c.allocs, r.1 ≤ va ∧ va + n ≤ r.1 + r.2) → (∀ i, i < (n + 65535) / 65536 →
          (s.writeTables ents).pageAt (s.rootOf rcb) (va + 65536 * i) = none) →
        RanTo (exec (.hostFree rq rcb va n ents) s) (fun t => t.mem = (s.writeTables ents).mem ∧
          Replied s t rq (plain rq 0) (fun c => { c with allocs := c.allocs.flatMap (fun r => cutRange r va n) })))) ∧
    (∀ rcb z, RequestServed s rq (.copy z) →
      (1 < z.dir.toNat ∨ s.rangeMapped (s.rootOf rcb) z.dva z.bytes = false →
        RanTo (exec (.hostCopy rq rcb z) s) (fun t => Replied s t rq (plain rq 1) ∧ t.mem = s.mem)) ∧
      (∀ p, s.pageAt (s.rootOf rcb) z.dva = some p → p.type ≠ .cmp → 0 < z.bytes → z.dva % 32 + z.bytes ≤ 32 →
        Memory.wf s.mem = true →
        (z.dir = 0 → z.data.length = z.bytes → p.type ≠ .far → RanTo (exec (.hostCopy rq rcb z) s) (fun t => t.thr = s.thr ∧
          Replied s t rq (plain rq 0 (BitVec.ofNat 64 z.bytes)) ∧ BytesWritten s.mem t.mem p.pa z.data)) ∧
        (z.dir = 1 → s.poisoned p.pa z.bytes = false → p.type ≠ .far → RanTo (exec (.hostCopy rq rcb z) s) (fun t =>
          t.mem = s.mem ∧ Replied s t rq ⟨rq.tag, 0, BitVec.ofNat 64 z.bytes, 0, s.homeRead p.pa z.bytes, []⟩)) ∧
        (z.dir = 1 → s.poisoned p.pa z.bytes = true → p.type ≠ .far → RanTo (exec (.hostCopy rq rcb z) s) (fun t =>
          t.mem = s.mem ∧ Replied s t rq (plain rq 2))))) ∧
    (∀ nonce fw, RequestServed s rq (.attest nonce) → nonce.length = 32 → s.plat.firmware = some fw →
      let body := nonce ++ Config.shake256 fw 64 ++ bytesOfNat 2 s.plat.excCount.toNat ++ bytesOfNat 1 s.plat.excPeak.toNat ++
        bytesOfNat 4 s.plat.retired.length
      let report := body ++ Config.falconSign (Config.shake256 body 64)
      RanTo (exec (.hostAttest rq nonce) s) (fun t =>
        Replied s t rq ⟨rq.tag, 0, BitVec.ofNat 64 report.length, 0, report, []⟩)) ∧
    (∀ capacity, RequestServed s rq (.events capacity) →
      let mine (e : EventRec) : Bool := ((e.domain?).map (fun d => (s.domainsOf c).contains d)).getD false
      let new := (s.events.drop c.seen).filter mine
      new.length ≤ capacity → RanTo (exec (.hostEvents rq capacity) s) (fun t =>
        Replied s t rq ⟨rq.tag, 0, BitVec.ofNat 64 new.length, 0, [], new⟩ (fun c => { c with seen := s.events.length })))))

/-! ## Beside these -/

/-- R89, R109, R111 to R116: the functions that the X words apply to one element, row by row of their tables: XCVT with source
code `sf` and destination code `df`; XQNT, XDQNT, XAMAX, XQMX and XDQMX; the correctly rounded special functions, XSQRT and XRSQ
as the FP32 value nearest the real root; the special and exact cases and the steps of the approximated ones. XSIN and XCOS reduce
their argument by the model's rational for π / 2 (log entry 125). -/
def Obligations.ConversionFunctionsFollowTheirTables : Prop :=
  ∀ (w v : Word) (mode : RMode) (sat : Bool) (r : BitVec 16),
    let x := FFmt.fp32.read w
    let none_ (y : Word) : FRes := ⟨y, 0, false⟩
    let with_ (y : Word) (f : Fl) : FRes := ⟨y, f, false⟩
    let at_ (l : List Word) (i : Nat) : Word := l[i]?.getD 0
    let canon := at_ [0x7FC00000, 0x7E00, 0x7FC0, 0x7F, 0x7E]
    let sign := at_ [0x80000000, 0x8000, 0x8000, 0x80, 0x80, 0x20, 0x20, 0x8]
    let largest := at_ [0x7F7FFFFF, 0x7BFF, 0x7F7F, 0x7E, 0x7B, 0x1F, 0x1F, 0x7]
    let infinity := at_ [0x7F800000, 0x7C00, 0x7F80, 0, 0x7C]
    let signed (n : Bool) (df : Nat) (y : Word) : Word := if n then sign df ||| y else y
    let low (df : Nat) : Int := ([-2147483648, 0, -32768, -128, 0, -8, 0] : List Int)[df - 8]?.getD 0
    let high (df : Nat) : Int := ([2147483647, 4294967295, 32767, 127, 255, 7, 15] : List Int)[df - 8]?.getD 0
    let width (df : Nat) : Nat := [32, 32, 16, 8, 8, 4, 4][df - 8]?.getD 0
    let within (df : Nat) (n : Int) : Prop := low df ≤ n ∧ n ≤ high df
    (∀ sf df : Nat, sf < 8 → df < 8 →
      let y := convert sf df mode sat r w
      match (FFmt.ofCode sf).read w with
      | .nan => y = if 5 ≤ df then with_ 0 flNV else none_ (canon df)
      | .inf n =>
        y = if df = 3 then (if sat then none_ (signed n 3 (largest 3)) else with_ (canon 3) flNV)
          else if 5 ≤ df then with_ (signed n df (largest df)) (if sat then 0 else flNV)
          else none_ (signed n df (infinity df))
      | .zero n => y = none_ (signed n df 0)
      | .fin q => y = roundTo q (FFmt.ofCode df) mode sat r) ∧
    (∀ sf df : Nat, sf < 8 → 8 ≤ df → df < 15 →
      let y := convert sf df mode sat r w
      match (FFmt.ofCode sf).read w with
      | .nan => y = with_ 0 flNV
      | .inf n => y = with_ (BitVec.ofInt 32 (if n then low df else high df)) (if sat then 0 else flNV)
      | .zero _ => y = none_ 0
      | .fin q =>
        let n := (roundInt q mode r).1
        let whole := (roundInt q mode r).2
        y.v = BitVec.ofInt 32 (max (low df) (min (high df) n)) ∧
        (within df n → y.fl = if whole then 0 else flNX) ∧ (¬ within df n → y.fl = if sat then 0 else flNV) ∧
        y.drew = (!whole && decide (mode = .rs))) ∧
    (∀ sf df : Nat, 8 ≤ sf → sf < 15 → df < 8 →
      let n := (IFmt.ofCode sf).read w
      convert sf df mode sat r w = if n = 0 then none_ 0 else roundTo n (FFmt.ofCode df) mode sat r) ∧
    (∀ sf df : Nat, 8 ≤ sf → sf < 15 → 8 ≤ df → df < 15 →
      let n := (IFmt.ofCode sf).read w
      (sat = true → convert sf df mode sat r w = none_ (BitVec.ofInt 32 (max (low df) (min (high df) n)))) ∧
      (sat = false → ∃ m : Int, within df m ∧ (m - n) % 2 ^ width df = 0 ∧ convert sf df mode sat r w = none_ (BitVec.ofInt 32 m))) ∧
    (∀ q : Int, q = 15 ∨ q = 255 →
      let z : Int := (v.extractLsb' 16 8).toInt
      let clamp (n : Int) : Word := BitVec.ofInt 32 (max 0 (min q n))
      let y := quantGroup q mode r w v
      match FFmt.fp16.read v, x with
      | .fin _, .nan => y = with_ (clamp z) flNV
      | .fin s, .inf n => y = none_ (if n = decide (s < 0) then BitVec.ofInt 32 q else 0)
      | .fin _, .zero _ => y = none_ (clamp z)
      | .fin s, .fin a =>
        y = ⟨clamp ((roundInt (a / s) mode r).1 + z), if (roundInt (a / s) mode r).2 then 0 else flNX,
          !(roundInt (a / s) mode r).2 && decide (mode = .rs)⟩
      | _, _ => y = with_ (clamp z) flNV) ∧
    (∀ n : Nat, n = 4 ∨ n = 8 →
      let d : Int := (w.toNat % 2 ^ n : Nat) - (v.extractLsb' 16 8).toInt
      match FFmt.fp16.read v with
      | .nan => dequantGroup n w v = 0x7FC00000
      | .inf s => dequantGroup n w v =
          if d = 0 then 0x7FC00000 else if (s != decide (d < 0)) then 0xFF800000 else 0x7F800000
      | .fin s => (FFmt.fp32.read (dequantGroup n w v)).toRat = s * d ∧ (FFmt.fp32.read (dequantGroup n w v)).finite = true
      | .zero _ => (FFmt.fp32.read (dequantGroup n w v)).toRat = 0 ∧ (FFmt.fp32.read (dequantGroup n w v)).finite = true) ∧
    (let c := (v.extractLsb' 0 4).toNat
     let y := amaxScale w v
     let m : Rat := ([1, 1, 1, 448, 57344, 28, 15/2, 6] : List Rat)[c]?.getD (if c = 11 then 127 else 7)
     (c < 3 ∨ 7 < c → c ≠ 11 → c ≠ 13 → y = with_ 0 flNV) ∧
     (3 ≤ c → c ≤ 7 → match x with
      | .nan => y = none_ 0x3FC
      | .zero _ => y = none_ 0
      | .inf _ => y = with_ 0x3FB flOF
      | .fin q =>
        (|q| / m > 7 / 4 * 2 ^ 127 → y = with_ 0x3FB flOF) ∧
        (|q| / m ≤ 7 / 4 * 2 ^ 127 → y.fl = 0 ∧ y.v.toNat < 1020 ∧ ∃ s, blockScale y.v = some s ∧ |q| / m ≤ s ∧
          ∀ (u : Word) (t : Rat), blockScale u = some t → |q| / m ≤ t → s ≤ t)) ∧
     (c = 11 ∨ c = 13 → match x with
      | .nan => y = none_ 0x7E00
      | .zero _ => y = none_ 1
      | .inf _ => y = with_ 0x7BFF flOF
      | .fin q =>
        (|q| / m > 65504 → y = with_ 0x7BFF flOF) ∧
        (|q| / m ≤ 65504 → y.fl = 0 ∧ y.v.toNat < 0x8000 ∧ ∃ s, FFmt.fp16.read y.v = .fin s ∧ |q| / m ≤ s ∧
          ∀ (u : Word) (t : Rat), FFmt.fp16.read u = .fin t → |q| / m ≤ t → s ≤ t))) ∧
    (let f := (v.extractLsb' 12 4).toNat
     (f < 3 ∨ 7 < f → quantBlock mode r w v = with_ 0 flNV ∧ dequantBlock mode r w v = with_ 0 flNV) ∧
     (3 ≤ f → f ≤ 7 →
      (match blockScale v, x with
        | none, _ => quantBlock mode r w v = with_ (canon f) flNV
        | some _, .nan => quantBlock mode r w v = if 5 ≤ f then with_ 0 flNV else none_ (canon f)
        | some _, .inf n => quantBlock mode r w v = none_ (signed n f (largest f))
        | some _, .zero n => quantBlock mode r w v = none_ (signed n f 0)
        | some s, .fin q => quantBlock mode r w v = roundTo (q / s) (FFmt.ofCode f) mode true r) ∧
      (match blockScale v, (FFmt.ofCode f).read w with
        | none, _ => dequantBlock mode r w v = none_ 0x7FC00000
        | some _, .nan => dequantBlock mode r w v = none_ 0x7FC00000
        | some _, .inf n => dequantBlock mode r w v = none_ (signed n 0 0x7F800000)
        | some _, .zero n => dequantBlock mode r w v = none_ (signed n 0 0)
        | some s, .fin e => dequantBlock mode r w v = roundTo (e * s) .fp32 mode false r))) ∧
    (match x with
      | .nan => frcp32 w = none_ 0x7FC00000 ∧ frsqrt32 w = none_ 0x7FC00000 ∧ fsqrt32 w = none_ 0x7FC00000
      | .zero n => frcp32 w = with_ (signed n 0 0x7F800000) flDZ ∧ frsqrt32 w = with_ (signed n 0 0x7F800000) flDZ ∧
          fsqrt32 w = none_ w
      | .inf n => frcp32 w = none_ (signed n 0 0) ∧ frsqrt32 w = (if n then with_ 0x7FC00000 flNV else none_ 0) ∧
          fsqrt32 w = (if n then with_ 0x7FC00000 flNV else none_ w)
      | .fin q =>
        frcp32 w = roundTo (1 / q) .fp32 .rne false 0 ∧
        (q < 0 → frsqrt32 w = with_ 0x7FC00000 flNV ∧ fsqrt32 w = with_ 0x7FC00000 flNV) ∧
        (0 < q →
          (∃ y : Rat, FFmt.fp32.read (fsqrt32 w).v = .fin y ∧ 0 < y ∧ (fsqrt32 w).fl = (if y * y = q then 0 else flNX) ∧
            (fsqrt32 w).drew = false ∧ ∀ (u : Word) (z : Rat), FFmt.fp32.read u = .fin z →
              |(y : ℝ) - Real.sqrt (q : ℝ)| ≤ |(z : ℝ) - Real.sqrt (q : ℝ)|) ∧
          (∃ y : Rat, FFmt.fp32.read (frsqrt32 w).v = .fin y ∧ 0 < y ∧ (frsqrt32 w).fl = (if y * y * q = 1 then 0 else flNX) ∧
            (frsqrt32 w).drew = false ∧ ∀ (u : Word) (z : Rat), FFmt.fp32.read u = .fin z →
              |(y : ℝ) - 1 / Real.sqrt (q : ℝ)| ≤ |(z : ℝ) - 1 / Real.sqrt (q : ℝ)|))) ∧
    (match x, FFmt.fp32.read v with
      | .nan, _ => fdiv32 w v = none_ 0x7FC00000
      | _, .nan => fdiv32 w v = none_ 0x7FC00000
      | .zero _, .zero _ => fdiv32 w v = with_ 0x7FC00000 flNV
      | .inf _, .inf _ => fdiv32 w v = with_ 0x7FC00000 flNV
      | .fin q, .zero n => fdiv32 w v = with_ (signed (decide (q < 0) != n) 0 0x7F800000) flDZ
      | .inf n, b => fdiv32 w v = none_ (signed (n != b.neg) 0 0x7F800000)
      | a, .inf n => fdiv32 w v = none_ (signed (a.neg != n) 0 0)
      | .zero n, .fin q => fdiv32 w v = none_ (signed (n != decide (q < 0)) 0 0)
      | .fin p, .fin q => fdiv32 w v = roundTo (p / q) .fp32 .rne false 0) ∧
    (let nearest (n : Int) (k : Nat) : Word := fp32Of ((n : Rat) / 10 ^ k)
     let steps (p u : Word) (cs : List Word) : Word := cs.foldl (fun p c => fma32 p u c) p
     let sine (a u : Word) : Word := fma32 (mul32 a u)
       (steps (nearest 27557319 13) u [nearest (-19841270) 11, nearest 83333333 10, nearest (-16666667) 8]) a
     let cosine (u : Word) : Word :=
       fma32 (steps (nearest (-27557319) 14) u [nearest 24801587 12, nearest (-13888889) 10, nearest 41666667 9, nearest (-5) 1])
         u 0x3F800000
     match x with
      | .nan => xexp2Lane w = none_ 0x7FC00000 ∧ xlog2Lane w = none_ 0x7FC00000 ∧ xsinLane w = none_ 0x7FC00000 ∧
          xcosLane w = none_ 0x7FC00000 ∧ xtanhLane w = none_ 0x7FC00000
      | .inf n => xexp2Lane w = none_ (if n then 0 else 0x7F800000) ∧
          xlog2Lane w = (if n then with_ 0x7FC00000 flNV else none_ 0x7F800000) ∧ xsinLane w = with_ 0x7FC00000 flNV ∧
          xcosLane w = with_ 0x7FC00000 flNV ∧ xtanhLane w = none_ (signed n 0 0x3F800000)
      | .zero _ => xexp2Lane w = none_ 0x3F800000 ∧ xlog2Lane w = with_ 0xFF800000 flDZ ∧ xsinLane w = none_ w ∧
          xcosLane w = none_ 0x3F800000 ∧ xtanhLane w = none_ w
      | .fin q =>
        (128 ≤ q → xexp2Lane w = with_ 0x7F800000 (flOF ||| flNX)) ∧ (q < -150 → xexp2Lane w = with_ 0 (flUF ||| flNX)) ∧
        (∀ n : Int, -149 ≤ n → n ≤ 127 → q = n → (xexp2Lane w).fl = 0 ∧ FFmt.fp32.read (xexp2Lane w).v = .fin (2 ^ n)) ∧
        (-150 ≤ q → q < 128 →
          let n := (roundInt q .rne 0).1
          let p := steps (nearest 15252734 12) (fp32Of (q - n)) [nearest 15403530 11, nearest 13333558 10, nearest 96181291 10,
            nearest 55504109 9, nearest 24022651 8, nearest 69314718 8, 0x3F800000]
          let y := roundTo ((FFmt.fp32.read p).toRat * 2 ^ n) .fp32 .rne false 0
          (xexp2Lane w).v = y.v ∧ ((∀ m : Int, -149 ≤ m → q ≠ m) → (xexp2Lane w).fl = y.fl ||| flNX)) ∧
        (q < 0 → xlog2Lane w = with_ 0x7FC00000 flNV) ∧
        (∀ (e : Int) (m : Rat), 1 ≤ m → m < 2 → q = m * 2 ^ e →
          let big := decide (m > (FFmt.fp32.read 0x3FB504F3).toRat)
          let k := fp32Of (if big then m / 2 else m)
          let t := div32 (sub32 k 0x3F800000) (add32 k 0x3F800000)
          let c := steps (nearest 26230822 8) (mul32 t t) [nearest 32059889 8, nearest 41219858 8, nearest 57707801 8,
            nearest 96179669 8, nearest 28853901 7]
          xlog2Lane w = with_ (fma32 t c (fp32Of (if big then e + 1 else e : Int))) (if m = 1 then 0 else flNX)) ∧
        (∃ k : Int, |(k : Rat) - q / halfPi| ≤ 1 / 2 ∧
          let a := fp32Of (q - k * halfPi)
          let u := mul32 a a
          let row (j : Int) : Word :=
            if j % 4 = 0 then sine a u else if j % 4 = 1 then cosine u
            else if j % 4 = 2 then sine a u ^^^ 0x80000000 else cosine u ^^^ 0x80000000
          xsinLane w = with_ (row k) flNX ∧ xcosLane w = with_ (row (k + 1)) flNX) ∧
        (let a := w &&& 0x7FFFFFFF
         let back (y : Word) : Word := if q < 0 then y ||| 0x80000000 else y
         (19 / 2 ≤ |q| → xtanhLane w = with_ (back 0x3F800000) flNX) ∧
         (|q| < 1 / 2 → xtanhLane w = with_ (back (fma32 (mul32 a (mul32 a a))
           (steps (nearest (-14558344) 10) (mul32 a a) [nearest 35921280 10, nearest (-88632355) 10, nearest 21869488 9,
             nearest (-53968254) 9, nearest 13333333 8, nearest (-33333333) 8]) a)) flNX) ∧
         (1 / 2 ≤ |q| → |q| < 19 / 2 → xtanhLane w = with_ (back (sub32 0x3F800000 (div32 0x40000000
           (add32 (xexp2Lane (fp32Of (2 * |q| * (FFmt.fp32.read (nearest 14426950 7)).toRat))).v 0x3F800000)))) flNX)))

/-- R204, R205, R231, R232: the last lane of an ELD to return writes MEAN, the standard error, W and the top word of its
estimator, that of an ELDR the four words as they are, that of a CLDA the word after its buffered entries have folded, nearest
first; nothing but CLDA changes memory. CREP at its record writes GALPHA and GC and no other byte, and its lane is to receive
the gradients behind the fold and PREV. That the standard error follows the steps of R204 where its prose says otherwise is
the model's reading (log entry 121). -/
def Obligations.AccumulatorReadsReturnTheirValue : Prop :=
  (∀ (s : State) (f : Flight) (a : LaneAcc) (evict : Bool) (lanes : Mask), s.flight? f.id = some f → f.scalar = false →
    f.inBase = false → f.todo = [a] → f.ready = [] → f.bad = [] → f.denied = [] → Ready s f a true →
    s.ownWrites f a.pa f.work.size = [] → s.stale = [] → s.live = true → s.thr.key = f.key → lanes.getLsbD a.lane = true →
    f.dst + f.count ≤ 64 → s.poisoned a.pa f.work.size = false → Memory.wf s.mem = true →
    let returns (vals : List Word) (p : State → Prop) : Prop := f.count = vals.length →
      RanTo (exec (.loadReturn f.id lanes (-1) evict) s) (fun t => p t ∧ t.thr.s = s.thr.s ∧ t.thr.level = s.thr.level ∧
        ∀ r i, r < 64 → i < 96 → seesV t r i =
          if i = a.lane ∧ f.dst ≤ r ∧ r < f.dst + f.count then vals[r - f.dst]?.getD 0 else seesV s r i)
    let word (i : Nat) : Word := BitVec.ofNat 32 (natOfBytes (s.homeRead (a.pa + 4 * i) 4))
    let n := (word 3).toNat % 65536
    let se : Word := if n < 2 ∨ (word 0).toNat % 2 ^ 31 = 0 then 0x7F800000
      else (fsqrt32 (div32 (div32 (word 2) (word 0)) (fp32Of (n - 1 : Nat)))).v
    (f.work = .estLoad false →
      returns [word 1, se, word 0, word 3] (fun t => t.mem = s.mem)) ∧
    (f.work = .estLoad true → returns [word 0, word 1, word 2, word 3] (fun t => t.mem = s.mem)) ∧
    (f.work = .cmpLoad → (∀ c ∈ s.crucible, s.sliceOf c.1 = s.sliceOf a.pa → s.holdOver c.1 = false) →
      let old := CmpWord.ofBytes (s.homeRead a.pa 32)
      let slot := s.slotOf old.slot
      let w := (s.buffered a.pa).foldl (fun w x => (w.fold slot.tau x.term false).1) old
      slot.lflags.getLsbD 0 = false →
      returns [w.l0, w.l1, w.l2, w.t, BitVec.ofNat 32 (w.nt.toNat * 2 ^ 16 + w.flg.toNat)] (fun t =>
        t.buffered a.pa = [] ∧ BytesWritten s.mem t.mem a.pa w.bytes))) ∧
  (∀ (s : State) (f : Flight) (a : LaneAcc), s.flight? f.id = some f → f.work = .crep → f.todo = [a] → f.ready = [] →
    f.count = 5 → Ready s f a false → s.behindStore f a = false → s.loadsBefore f.key f.op = true → s.stale = [] →
    s.poisoned a.pa 64 = false → Memory.wf s.mem = true →
    let r (i : Nat) : Word := BitVec.ofNat 32 (natOfBytes (s.homeRead (a.pa + 4 * i) 4))
    let g (i : Nat) : Word := a.data[i]?.getD 0
    let al := r 3
    let tb := r 7
    let om := sub32 0x3F800000 al
    let dot (v : Nat → Word) : Word := fma32 (g 2) (v 2) (fma32 (g 1) (v 1) (mul32 (g 0) (v 0)))
    let q := mul32 (g 3) tb
    let leaves (record regs : List Word) : Prop := RanTo (exec (.atomicApply f.id a.lane) s) (fun t => t.thr = s.thr ∧
      BytesWritten s.mem t.mem (a.pa + 44) (bytesOfWords record) ∧
      ∃ h, t.flight? f.id = some h ∧ h.todo = [] ∧ h.ready = ((List.range 5).zip (regs ++ [r 0])).map (fun (i, x) => (a.lane, i, x)))
    ((r 1).getLsbD 0 = false →
      let m := mul32 tb al
      let dc := dot (fun i => r (4 + i))
      leaves [fma32 tb dc (negate32 q), mul32 (g 0) m, mul32 (g 1) m, mul32 (g 2) m]
        [g 0, g 1, g 2, fma32 (g 3) om (mul32 al dc)]) ∧
    ((r 1).getLsbD 0 = true →
      leaves [sub32 (dot (fun i => sub32 (r (4 + i)) (r (8 + i)))) q, mul32 al (g 0), mul32 al (g 1), mul32 al (g 2)]
        [mul32 om (g 0), mul32 om (g 1), mul32 om (g 2), mul32 om (g 3)]))
end

