-- ==== Sys2Proof/Laws/Access.lean ====
section
/-! SUPPORT. What the checks of an access give where they pass (R135): every lane goes, none is missed. -/

namespace Sys2Proof

open Machine

/-- The lowest lock found so far is kept while no later lock forbids the access. -/
theorem lockHit_fold (ls : List (Nat × Lock)) (clm writes : Bool) (lo n : Nat) (best : Option Nat)
    (free : ∀ x ∈ ls, x.2.clm = clm → (x.2.dest = true ∨ writes = true) → x.2.hi < lo ∨ lo + n ≤ x.2.lo) :
    ls.foldl (fun best (i, k) =>
      if k.clm = clm ∧ (k.dest ∨ writes) ∧ lo ≤ k.hi ∧ k.lo < lo + n then
        match best with
        | some b => some (min b i)
        | none => some i
      else best) best = best := by
  induction ls with
  | nil => rfl
  | cons x xs ih =>
    rw [List.foldl_cons]
    dsimp only
    rw [if_neg]
    · exact ih (fun y hy => free y (List.mem_cons_of_mem _ hy))
    · rintro ⟨h1, h2, h3, h4⟩
      rcases free x (List.mem_cons_self ..) h1 h2 with h | h <;> omega

/-- No lock forbids an access that is free of locks (R187). -/
theorem lockHit_free {s : State} {clm writes : Bool} {lo n : Nat} (h : lockFree s clm writes lo n) :
    s.lockHit clm writes lo n = none := lockHit_fold _ clm writes lo n none h

/-- Lanes that pass the checks all go. -/
theorem checkAccess_clear {s : State} {k : Acc} {align size : Nat} {writes : Bool} {lanes : List Nat} {va : Nat → Nat}
    {pg : Nat → Page} (c : Clear s k align size writes lanes va pg) (extra : Nat → Nat → Page → Bool)
    (more : ∀ l ∈ lanes, extra l (va l) (pg l) = true) :
    s.checkAccess k align size writes extra (lanes.map (fun l => (l, va l))) =
      .rows (lanes.map (fun l => (l, va l, pg l))) [] := by
  have h1 : (lanes.map (fun l => (l, va l))).filterMap
      (fun (l, va) => if va % align ≠ 0 then some (l, va, 0) else none) = [] := by
    rw [List.filterMap_eq_nil_iff]
    intro x hx
    obtain ⟨l, hl, rfl⟩ := List.mem_map.mp hx
    simp [c.aligned l hl]
  have h2 : (lanes.map (fun l => (l, va l))).map
      (fun (l, va) => (l, va, if validVa va then some (s.waveWalk s.thr.env.ptroot va) else none)) =
      lanes.map (fun l => (l, va l, some (.page (pg l)))) := by
    rw [List.map_map]
    refine List.map_congr_left ?_
    intro l hl
    have m := c.mapped l hl
    have v : validVa (va l) = true := decide_eq_true m.1
    simp [v, m.2]
  have h3 : (lanes.map (fun l => (l, va l))).filterMap
      (fun (l, va) => (s.lockHit false writes va size).map (fun n => (l, va, n))) = [] := by
    rw [List.filterMap_eq_nil_iff]
    intro x hx
    obtain ⟨l, hl, rfl⟩ := List.mem_map.mp hx
    simp [lockHit_free (c.unlocked l hl)]
  unfold State.checkAccess
  simp only [h1, h2, h3, List.isEmpty_nil, Bool.not_true, Bool.false_eq_true, if_false]
  rw [if_neg]
  · congr 1
    · rw [List.filterMap_map]
      simp only [Function.comp_def]
      rw [show (fun l => some (l, va l, pg l)) = some ∘ (fun l => (l, va l, pg l)) from rfl, List.filterMap_eq_map]
    · rw [List.filterMap_eq_nil_iff]
      intro x hx
      obtain ⟨l, hl, rfl⟩ := List.mem_map.mp hx
      rfl
  · simp only [Bool.not_eq_true', Bool.not_eq_false, List.isEmpty_iff]
    rw [List.filterMap_eq_nil_iff]
    intro x hx
    obtain ⟨l, hl, rfl⟩ := List.mem_map.mp hx
    simp [c.permitted l hl, more l hl]

/-- Nothing holds back the lanes of an access that is clear (R161, R162). -/
theorem holdBack_clear {s : State} {k : Acc} {align size : Nat} {writes : Bool} {lanes : List Nat} {va : Nat → Nat}
    {pg : Nat → Page} (c : Clear s k align size writes lanes va pg) :
    s.holdBack (lanes.map (fun l => (l, va l, pg l))) [] = (lanes.map (fun l => (l, va l, pg l)), []) := by
  have q : ∀ l ∈ lanes, (s.queuedBlock (va l)).isSome = false := by
    intro l hl
    simp only [State.queuedBlock, Option.isSome_eq_false_iff, Option.isNone_iff_eq_none, List.find?_eq_none]
    intro e he
    have := c.unheld l hl e he
    simpa using this
  unfold State.holdBack
  simp only [c.fresh, Option.map_none, Option.getD_none, List.any_nil, Bool.or_false, List.nil_append]
  refine Prod.ext ?_ ?_
  · rw [List.filter_eq_self]
    intro x hx
    obtain ⟨l, hl, rfl⟩ := List.mem_map.mp hx
    simp [q l hl]
  · show List.map _ (List.filter _ _) = []
    rw [List.map_eq_nil_iff, List.filter_eq_nil_iff]
    intro x hx
    obtain ⟨l, hl, rfl⟩ := List.mem_map.mp hx
    simp [q l hl]

/-- A clear access needs no Ladle (R341). -/
theorem needsLadle_clear {s : State} {k : Acc} {align size : Nat} {writes : Bool} {lanes : List Nat} {va : Nat → Nat}
    {pg : Nat → Page} (c : Clear s k align size writes lanes va pg) :
    s.needsLadle (anyDs writes (lanes.map (fun l => (l, va l, pg l)))) = false := by
  unfold State.needsLadle anyDs
  cases hw : writes with
  | false => rfl
  | true =>
    cases hd : s.thr.env.deterministic with
    | false => simp
    | true =>
      cases hm : s.thr.mcc with
      | true => simp
      | false =>
        have n : (lanes.map (fun l => (l, va l, pg l))).any (fun (_, _, p) => p.ds) = false := by
          rw [List.any_eq_false]
          intro x hx
          obtain ⟨l, hl, rfl⟩ := List.mem_map.mp hx
          simp [c.shared hw hd hm l hl]
        simp only [Bool.true_and, Bool.not_false, Bool.and_true]
        exact n

/-- A word whose access is clear performs every lane and does not park (R160). -/
theorem accessPark_clear {s : State} {k : Acc} {align size : Nat} {writes : Bool} {lanes : List Nat} {va : Nat → Nat}
    {pg : Nat → Page} (c : Clear s k align size writes lanes va pg) (type : Nat) (extra : Nat → Nat → Page → Bool)
    (more : ∀ l ∈ lanes, extra l (va l) (pg l) = true) (act : State → Bool → List (Nat × Nat × Page) → State) :
    s.accessPark k align size writes type extra (lanes.map (fun l => (l, va l))) act =
      act s false (lanes.map (fun l => (l, va l, pg l))) := by
  unfold State.accessPark State.dsEnter
  simp [checkAccess_clear c extra more, holdBack_clear c, needsLadle_clear c, c.fresh]

/-- A word that reads its control block goes on with its bytes (R394). -/
theorem readBlock_reads {s : State} {va align n : Nat} {pg : Page} (r : Reads s va align n pg)
    (extra : Nat → Nat → Page → Bool) (more : extra 96 va pg = true) :
    s.readBlock va align n extra = .bytes s pg.pa (s.homeRead pg.pa n) := by
  have h := checkAccess_clear r.1 extra (by simpa using more)
  have b := holdBack_clear r.1
  unfold State.readBlock
  simp only [List.map_cons, List.map_nil, onceLane] at h b ⊢
  rw [h]
  simp only [b, r.2.1, r.2.2, Bool.false_eq_true, if_false]

end Sys2Proof
end

