-- ==== Sys2Proof/Laws/Arith.lean ====
section
/-! SUPPORT. What the integer operations and the FP32 patterns of lanes come to. -/

namespace Sys2Proof.Machine

theorem sraW_eq (x y : Word) : sraW x y = x.sshiftRight (min 31 y.toNat) := by
  unfold sraW
  split
  · rw [Nat.min_eq_left (by omega)]
  · rw [Nat.min_eq_right (by omega)]

theorem sminW_eq (x y : Word) : sminW x y = if y.toInt < x.toInt then y else x := by
  unfold sminW
  split <;> split <;> first | rfl | omega

theorem smaxW_eq (x y : Word) : smaxW x y = if x.toInt < y.toInt then y else x := by
  unfold smaxW
  split <;> split
  · rfl
  · exact BitVec.eq_of_toInt_eq (by omega)
  · omega
  · rfl

theorem udivW_eq (x y : Word) : udivW x y = if y = 0 then -1 else x / y := by
  unfold udivW
  split
  · rfl
  · apply BitVec.eq_of_toNat_eq
    have : x.toNat / y.toNat < 2 ^ 32 := lt_of_le_of_lt (Nat.div_le_self _ _) x.isLt
    simp [BitVec.toNat_udiv]
    exact this

theorem absW_eq (x : Word) : (if x.getLsbD 31 then -x else x) = BitVec.ofInt 32 |x.toInt| := by
  have h := BitVec.msb_eq_toInt (x := x)
  rw [BitVec.msb_eq_getLsbD_last] at h
  by_cases n : x.toInt < 0
  · rw [abs_of_neg n]
    simp [n] at h
    simp [h, BitVec.ofInt_neg]
  · rw [abs_of_nonneg (by omega)]
    simp [n] at h
    simp [h]

/-- The number of leading zeros. -/
theorem clzW_spec (x : Word) : ∃ z, z ≤ 32 ∧ (∀ i, i < z → x.getMsbD i = false) ∧ (z < 32 → x.getMsbD z = true) ∧
    clzW x = BitVec.ofNat 32 z := by
  unfold clzW
  by_cases h : x = 0
  · exact ⟨32, le_refl _, by simp [h], by simp, by simp [h]⟩
  · have hn : x.toNat ≠ 0 := fun k => h (BitVec.eq_of_toNat_eq k)
    have hl : Nat.log2 x.toNat < 32 := (Nat.log2_lt hn).2 x.isLt
    refine ⟨31 - Nat.log2 x.toNat, by omega, ?_, ?_, if_neg h⟩
    · intro i hi
      simp only [BitVec.getMsbD, BitVec.getLsbD]
      have : x.toNat < 2 ^ (32 - 1 - i) := lt_of_lt_of_le Nat.lt_log2_self (Nat.pow_le_pow_right (by norm_num) (by omega))
      rw [Nat.testBit_lt_two_pow this]
      simp
    · intro _
      simp only [BitVec.getMsbD, BitVec.getLsbD]
      rw [show 32 - 1 - (31 - Nat.log2 x.toNat) = Nat.log2 x.toNat by omega, Nat.testBit_log2 hn]
      simp
      omega

/-- The NaN patterns of FP32. -/
theorem read_fp32_nan (x : Word) : FFmt.fp32.read x = .nan ↔ 0x7F800000 < x.toNat % 2 ^ 31 := by
  have h : (x.toNat / 2 ^ 23 % 2 ^ 8 == 2 ^ 8 - 1 && x.toNat % 2 ^ 23 != 0) = true ↔ 0x7F800000 < x.toNat % 2 ^ 31 := by
    simp only [Bool.and_eq_true, beq_iff_eq, bne_iff_ne]
    omega
  rw [← h]
  unfold FFmt.read
  dsimp only [FFmt.mbits, FFmt.ebits]
  split
  · rename_i c
    simp only [true_iff]
    exact c
  · rename_i c
    constructor
    · intro k
      split at k
      · simp at k
      · split at k <;> simp at k
    · intro k
      exact absurd k c

theorem isNan32_eq (x : Word) : isNan32 x = decide (0x7F800000 < x.toNat % 2 ^ 31) := by
  unfold isNan32
  rw [Bool.eq_iff_iff]
  simp [read_fp32_nan]

end Sys2Proof.Machine
end

