-- ==== Sys2Proof/Laws/Operands.lean ====
section
/-! SUPPORT. What the operations over registers do: scalar and mask writes, vector writes, flags, draws, last-read marks. -/

namespace Sys2Proof.Machine

/-! ## Mask words (R24, R55) -/

/-- A bit of three words joined. -/
theorem getLsbD_maskOf3 (a b c : Word) (i : Nat) :
    (maskOf3 a b c).getLsbD i =
      if i < 32 then a.getLsbD i else if i < 64 then b.getLsbD (i - 32) else c.getLsbD (i - 64) := by
  have h : (maskOf3 a b c).getLsbD i = ((c ++ b : BitVec 64) ++ a : BitVec (64 + 32)).getLsbD i := rfl
  have g : (c ++ b : BitVec 64).getLsbD (i - 32) = ((c ++ b : BitVec (32 + 32))).getLsbD (i - 32) := rfl
  rw [h, BitVec.getLsbD_append, g, BitVec.getLsbD_append]
  by_cases h1 : i < 32
  · simp [h1]
  · by_cases h2 : i < 64
    · simp [h1, h2, show i - 32 < 32 by omega]
    · simp [h1, h2, show ¬ i - 32 < 32 by omega, show i - 32 - 32 = i - 64 by omega]

theorem maskWord_maskOf3_zero (a b c : Word) : maskWord (maskOf3 a b c) 0 = a := by
  ext i hi
  simp [maskWord, getLsbD_maskOf3, hi]

theorem maskWord_maskOf3_one (a b c : Word) : maskWord (maskOf3 a b c) 1 = b := by
  ext i hi
  simp [maskWord, getLsbD_maskOf3, show 32 + i < 64 by omega, BitVec.getLsbD_eq_getElem, hi]

theorem maskWord_maskOf3_two (a b c : Word) : maskWord (maskOf3 a b c) 2 = c := by
  ext i hi
  simp [maskWord, getLsbD_maskOf3, show ¬ 64 + i < 32 by omega, BitVec.getLsbD_eq_getElem, hi]

/-- A mask with a word replaced has that word, and the other words it had. -/
theorem maskWord_setMaskWord (m : Mask) (i j : Nat) (x : Word) (hi : i < 3) (hj : j < 3) :
    maskWord (setMaskWord m i x) j = if i = j then x else maskWord m j := by
  interval_cases i <;> interval_cases j <;>
    simp [setMaskWord, maskWord_maskOf3_zero, maskWord_maskOf3_one, maskWord_maskOf3_two]

/-! ## Splits of a level -/

theorem Level.split?_setSplit (l : Level) (i j : BitVec 2) (e : Option Split) :
    (l.setSplit i e).split? j = if i = j then e else l.split? j := by
  unfold Level.split? Level.setSplit
  rw [Vector.getElem?_set]
  have h : (i.toNat = j.toNat) = (i = j) := by simp [BitVec.toNat_inj]
  simp only [h]
  split <;> simp

/-! ## Marks -/

/-- A bit of a single-bit word. -/
theorem oneBit (q r : Nat) : ((1 : BitVec 64) <<< q).getLsbD r = (decide (r < 64) && decide (r = q)) := by
  simp only [BitVec.getLsbD_shiftLeft]
  by_cases h : r = q
  · simp [h]
  · by_cases h1 : r < q
    · simp [h, h1]
    · simp [h, h1, show ¬ r - q = 0 by omega]

/-- Clearing bit `q` leaves the other bits. -/
theorem clearBit_other (m : BitVec 64) (q r : Nat) (hr : r < 64) (h : r ≠ q) :
    (m &&& ~~~((1 : BitVec 64) <<< q)).getLsbD r = m.getLsbD r := by
  simp only [BitVec.getLsbD_and, BitVec.getLsbD_not, oneBit, hr, h]
  simp

/-- Clearing bit `q` clears it. -/
theorem clearBit_self (m : BitVec 64) (q : Nat) : (m &&& ~~~((1 : BitVec 64) <<< q)).getLsbD q = false := by
  simp only [BitVec.getLsbD_and, BitVec.getLsbD_not, oneBit]
  simp

/-- Setting bit `q` leaves the other bits. -/
theorem setBit_other (m : BitVec 64) (q r : Nat) (h : r ≠ q) : (m ||| ((1 : BitVec 64) <<< q)).getLsbD r = m.getLsbD r := by
  simp only [BitVec.getLsbD_or, oneBit, h]
  simp

/-- Setting bit `q` sets it. -/
theorem setBit_self (m : BitVec 64) (q : Nat) (h : q < 64) : (m ||| ((1 : BitVec 64) <<< q)).getLsbD q = true := by
  simp only [BitVec.getLsbD_or, oneBit, h]
  simp

/-! ## Scalar registers (R24, R55, R81) -/

/-- What a thread's register holds once `x` is written to it by split `sp`. -/
def Thread.stored (t : Thread) (sp : BitVec 2) (r : Nat) (x : Word) : Word :=
  if r = 63 then 0
  else if 60 ≤ r ∧ t.mcc = false then x &&& maskWord (((t.level.split? sp).map Split.owned).getD 0) (r - 60)
  else x

@[simp] theorem maskWord_zero (i : Nat) : maskWord (0#96) i = 0#32 := by
  ext j hj
  simp [maskWord]

/-- A register read after a write. -/
theorem Thread.rdS_wrS (t : Thread) (sp : BitVec 2) (stamp r q : Nat) (x : Word) (hr : r < 64) (hq : q < 64) :
    (t.wrS sp q x).rdS sp stamp r = if r = q then t.stored sp q x else t.rdS sp stamp r := by
  unfold Thread.wrS
  by_cases h : q < 60 ∨ t.mcc = true ∧ q < 63
  · rw [dif_pos h]
    unfold Thread.rdS Thread.stored
    by_cases e : r = q
    · subst e
      have h63 : r ≠ 63 := by omega
      have hm : ¬(60 ≤ r ∧ t.mcc = false) := by
        rintro ⟨h1, h2⟩
        rcases h with h | ⟨h, -⟩
        · omega
        · simp [h] at h2
      have hm' : ¬(60 ≤ r ∧ (!t.mcc) = true) := by simpa using hm
      simp [h63, hm, hr]
    · have b : (t.srel &&& ~~~((1 : BitVec 64) <<< q)).getLsbD r = t.srel.getLsbD r := clearBit_other t.srel q r hr e
      simp only [b, e, if_false, Vector.getElem?_set, Ne.symm e]
  · rw [dif_neg h]
    by_cases h63 : q = 63
    · subst h63
      rw [if_neg (by omega)]
      by_cases e : r = 63
      · simp [e, Thread.rdS, Thread.stored]
      · simp [e]
    · have hq' : 60 ≤ q ∧ q < 63 ∧ t.mcc = false := by
        rw [not_or] at h
        refine ⟨by omega, by omega, ?_⟩
        by_contra hm
        exact h.2 ⟨by simpa using hm, by omega⟩
      rw [if_pos hq'.2.1]
      cases hs : t.level.split? sp with
      | none =>
        by_cases e : r = q
        · subst e
          simp [Thread.rdS, Thread.stored, hs, hq', h63, maskWord_zero]
        · simp [e]
      | some w =>
        unfold Thread.rdS Thread.stored
        by_cases e : r = q
        · subst e
          simp [hs, hq', h63, Level.split?_setSplit, maskWord_setMaskWord _ (r - 60) (r - 60) _ (by omega) (by omega)]
        · by_cases hr60 : 60 ≤ r ∧ r < 63
          · have hi : q - 60 ≠ r - 60 := by omega
            simp [hs, e, Level.split?_setSplit, hr60, hq', show r ≠ 63 by omega,
              maskWord_setMaskWord _ (q - 60) (r - 60) _ (by omega) (by omega), hi]
          · by_cases h : r = 63
            · simp [h, Ne.symm h63]
            · simp [e, h, show ¬ 60 ≤ r by omega]

/-- What a write of a scalar register leaves of the rest of a thread. -/
theorem Thread.wrS_only (t : Thread) (sp : BitVec 2) (q : Nat) (x : Word) :
    t.wrS sp q x = { t with
      s := (t.wrS sp q x).s, srel := (t.wrS sp q x).srel, level := (t.wrS sp q x).level } := by
  unfold Thread.wrS
  split
  · rfl
  · split
    · split <;> rfl
    · rfl

/-- The level after a write of a scalar register: only a mask word of the writing split may change. -/
theorem Thread.wrS_level (t : Thread) (sp : BitVec 2) (q : Nat) (x : Word) :
    (t.wrS sp q x).level = t.level ∨
      60 ≤ q ∧ q < 63 ∧ t.mcc = false ∧
        ∃ e c, t.level.split? sp = some e ∧ (t.wrS sp q x).level = t.level.setSplit sp (some { e with cur := c }) := by
  unfold Thread.wrS
  by_cases h : q < 60 ∨ t.mcc = true ∧ q < 63
  · simp [h]
  · rw [dif_neg h]
    by_cases h63 : q < 63
    · rw [if_pos h63]
      cases hs : t.level.split? sp with
      | none => simp
      | some e =>
        right
        refine ⟨by omega, h63, ?_, e, _, rfl, rfl⟩
        by_contra hm
        exact h (Or.inr ⟨by simpa using hm, h63⟩)
    · simp [h63]

end Sys2Proof.Machine
end

