-- ==== Sys2Proof/Laws/Effects.lean ====
section
/-! SUPPORT. The effects of Safety.lean, built up from the operations over registers. -/

namespace Sys2Proof

open Machine

theorem stored_eq (s : State) (r : Nat) (x : Word) : stored s r x = s.thr.stored s.ctx.sp r x := rfl

/-! ## Scalar effects -/

/-- Nothing is written. -/
theorem ScalarsTo.refl (s : State) : ScalarsTo s s (fun _ => none) none none where
  only := rfl
  regs _ _ _ := rfl
  freed _ h := by simp at h
  lanes _ _ _ := rfl
  lanesFreed _ _ h := by simp at h
  level _ := rfl
  mask := .inl rfl

/-- The owned set of the issuing split is kept by scalar effects. -/
theorem ScalarsTo.owned {s t : State} {w : Nat → Option Word} {fs fv : Option Nat} (h : ScalarsTo s t w fs fv) :
    t.split.map Split.owned = s.split.map Split.owned := by
  have c : t.ctx = s.ctx := by rw [h.only]
  unfold State.split
  rw [c]
  rcases h.mask with e | ⟨e, m, hs, e'⟩
  · rw [e]
  · rw [e', Level.split?_setSplit]
    unfold State.split at hs
    simp [hs]

theorem ScalarsTo.stored_eq {s t : State} {w : Nat → Option Word} {fs fv : Option Nat} (h : ScalarsTo s t w fs fv)
    (q : Nat) (x : Word) : stored t q x = stored s q x := by
  have m : t.thr.mcc = s.thr.mcc := by rw [h.only]
  unfold stored
  rw [h.owned, m]

/-- One more write. -/
theorem ScalarsTo.write {s t : State} {w : Nat → Option Word} (h : ScalarsTo s t w none none) (q : Nat) (x : Word)
    (hq : q < 64) : ScalarsTo s (t.wrSn q x) (fun r => if r = q then some x else w r) none none := by
  have c : t.ctx = s.ctx := by rw [h.only]
  have st : t.stamp = s.stamp := by rw [h.only]
  have mc : t.thr.mcc = s.thr.mcc := by rw [h.only]
  have on : t.wrSn q x = { t with thr := { t.thr with
      s := (t.wrSn q x).thr.s, srel := (t.wrSn q x).thr.srel, level := (t.wrSn q x).thr.level } } := by
    have := Thread.wrS_only t.thr t.ctx.sp q x
    unfold State.wrSn
    rw [← this]
  refine ⟨?_, ?_, by simp, ?_, by simp, ?_, ?_⟩
  · rw [on, h.only]
  · intro r hr _
    have := Thread.rdS_wrS t.thr t.ctx.sp t.stamp r q x hr hq
    show (t.thr.wrS t.ctx.sp q x).rdS t.ctx.sp t.stamp r = _
    rw [this]
    by_cases e : r = q
    · simp only [e, if_true]
      exact h.stored_eq q x
    · simp only [e, if_false]
      exact h.regs r hr (by simp)
  · intro r i _
    rw [← h.lanes r i (by simp)]
    show laneOf ((t.thr.wrS t.ctx.sp q x).rdV t.stamp r) i = laneOf (t.thr.rdV t.stamp r) i
    rw [Thread.wrS_only]
    rfl
  · intro quiet
    have unwritten : ∀ {r : Nat}, (if r = q then some x else w r) = none → r ≠ q ∧ w r = none := fun {r} k => by
      split at k
      · cases k
      · exact ⟨‹_›, k⟩
    have quiet' : s.thr.mcc = true ∨ w 60 = none ∧ w 61 = none ∧ w 62 = none :=
      quiet.imp_right fun k => ⟨(unwritten k.1).2, (unwritten k.2.1).2, (unwritten k.2.2).2⟩
    refine Eq.trans ?_ (h.level quiet')
    obtain same | ⟨lo, hi, wave, -⟩ := Thread.wrS_level t.thr t.ctx.sp q x
    · exact same
    · rw [mc] at wave
      obtain k | k := quiet
      · exact absurd k (by simp [wave])
      · have k0 := (unwritten k.1).1
        have k1 := (unwritten k.2.1).1
        have k2 := (unwritten k.2.2).1
        omega
  · rcases Thread.wrS_level t.thr t.ctx.sp q x with e | ⟨_, _, _, e, m, hs, e'⟩
    · rcases h.mask with k | ⟨e1, m1, hs1, k⟩
      · exact .inl (e.trans k)
      · exact .inr ⟨e1, m1, hs1, e.trans k⟩
    · right
      rcases h.mask with k | ⟨e1, m1, hs1, k⟩
      · refine ⟨e, m, ?_, ?_⟩
        · unfold State.split; rw [← k, ← c]; exact hs
        · rw [← c, ← k]; exact e'
      · refine ⟨e1, m, hs1, ?_⟩
        have : t.thr.level.split? t.ctx.sp = some { e1 with cur := m1 } := by
          rw [k, c, Level.split?_setSplit]; simp
        rw [hs] at this
        simp only [Option.some.injEq] at this
        subst this
        show (t.wrSn q x).thr.level = _
        refine Eq.trans e' ?_
        rw [k, c]
        simp [Level.setSplit]

/-- A last-read mark on a scalar register that was not written. -/
theorem ScalarsTo.freeS {s t : State} {w : Nat → Option Word} (h : ScalarsTo s t w none none) (l : Bool) (a d : Reg)
    (hw : a ≠ d → w a.toNat = none) : ScalarsTo s (t.releaseS l a d) w (freesS l a d) none := by
  unfold State.releaseS freesS
  by_cases c : (l && a != d && decide (a.toNat < 60) && !t.ctx.sdst.getLsbD a.toNat) = true
  · have c' : l = true ∧ a ≠ d ∧ a.toNat < 60 := by
      simp only [Bool.and_eq_true, bne_iff_ne, decide_eq_true_eq] at c
      exact ⟨c.1.1.1, c.1.1.2, c.1.2⟩
    rw [if_pos c, if_pos c']
    have keep : ∀ r, r ≠ a.toNat →
        ({ t.thr with srel := t.thr.srel ||| ((1 : BitVec 64) <<< a.toNat) } : Thread).rdS t.ctx.sp t.stamp r =
          t.thr.rdS t.ctx.sp t.stamp r := by
      intro r hr
      simp only [Thread.rdS, setBit_other _ _ _ hr]
    refine ⟨?_, ?_, ?_, ?_, by simp, h.level, h.mask⟩
    · rw [h.only]
    · intro r hr hne
      have hra : r ≠ a.toNat := by simpa [eq_comm] using hne
      rw [← h.regs r hr (by simp)]
      exact keep r hra
    · intro r hr
      have hra : r = a.toNat := by simpa [eq_comm] using hr
      have hv := h.regs r (by omega) (by simp)
      rw [hra, hw c'.2.1] at hv
      replace hv : seesS t a.toNat = seesS s a.toNat := hv
      rw [hra, ← hv]
      unfold seesS
      have h60 : ¬ 60 ≤ a.toNat := by omega
      have h63 : ¬ a.toNat = 63 := by omega
      simp only [Thread.rdS, h60, h63, if_false, false_and]
      by_cases k : Config.scalarReleased t.stamp a.toNat = true
      · right
        simp only [setBit_self _ _ (show a.toNat < 64 by omega), k]
        rfl
      · simp [k]
    · intro r i _
      exact h.lanes r i (by simp)
  · rw [if_neg c]
    refine ⟨h.only, fun r hr _ => h.regs r hr (by simp), fun r hr => .inl ?_, fun r i _ => h.lanes r i (by simp),
      by simp, h.level, h.mask⟩
    have free : a ≠ d ∧ a.toNat < 60 ∧ r = a.toNat := by
      by_cases k : l = true ∧ a ≠ d ∧ a.toNat < 60
      · simp only [if_pos k, Option.some.injEq] at hr
        exact ⟨k.2.1, k.2.2, hr.symm⟩
      · simp [if_neg k] at hr
    have kept := h.regs a.toNat (by omega) (by simp)
    rw [hw free.1] at kept
    exact free.2.2 ▸ kept

/-- A scalar register written by a word with a last-read mark. -/
theorem scalarTo (s : State) (d a : Reg) (l : Bool) (x : Word) : ScalarTo s ((s.wrS d x).releaseS l a d) d a l x := by
  refine ((ScalarsTo.refl s).write d.toNat x (by omega)).freeS l a d ?_
  intro h
  have : a.toNat ≠ d.toNat := fun k => h (BitVec.eq_of_toNat_eq k)
  simp [this]

/-- A scalar register written by a word without one. -/
theorem scalarTo_plain (s : State) (d a : Reg) (x : Word) : ScalarTo s (s.wrS d x) d a false x := by
  have := scalarTo s d a false x
  simpa [State.releaseS] using this

/-! ## Last-read marks on vector registers -/

theorem laneOf_lanesOf_or (p : Nat → Bool) (v : Lanes) (i : Nat) :
    laneOf (lanesOf (fun l => if p l then 0 else laneOf v l)) i = laneOf v i ∨
      laneOf (lanesOf (fun l => if p l then 0 else laneOf v l)) i = 0 := by
  by_cases h : i < 96
  · rw [laneOf_lanesOf _ _ h]
    by_cases k : p i = true <;> simp [k]
  · left
    simp [laneOf, h]

/-- The registers of a thread after a mark on vector register `a`: the others are as before. -/
theorem rdV_release_other (t : Thread) (stamp a r : Nat) (h : r ≠ a) :
    ({ t with vrel := t.vrel ||| ((1 : BitVec 64) <<< a) } : Thread).rdV stamp r = t.rdV stamp r := by
  simp only [Thread.rdV, setBit_other _ _ _ h]

/-- The marked register reads its lanes or zero. -/
theorem rdV_release_self (t : Thread) (stamp a i : Nat) :
    laneOf (({ t with vrel := t.vrel ||| ((1 : BitVec 64) <<< a) } : Thread).rdV stamp a) i = laneOf (t.rdV stamp a) i ∨
      laneOf (({ t with vrel := t.vrel ||| ((1 : BitVec 64) <<< a) } : Thread).rdV stamp a) i = 0 := by
  simp only [Thread.rdV]
  by_cases h : t.vrel.getLsbD a = true
  · simp [h]
  · rw [if_neg h]
    split
    · exact laneOf_lanesOf_or _ _ _
    · exact .inl rfl

theorem ScalarsTo.freeV {s t : State} {w : Nat → Option Word} (h : ScalarsTo s t w none none) (l : Bool) (a : Reg) :
    ScalarsTo s (t.releaseV0 l a) w none (freesV0 l a) := by
  have st : t.stamp = s.stamp := by rw [h.only]
  unfold State.releaseV0 freesV0
  by_cases c : (l && t.active != 0 && !t.ctx.vdst.getLsbD a.toNat) = true
  · have hl : l = true := by simp at c; exact c.1.1
    rw [if_pos c, if_pos hl]
    refine ⟨?_, ?_, by simp, ?_, ?_, h.level, h.mask⟩
    · rw [h.only]
    · intro r hr hne
      exact h.regs r hr hne
    · intro r i hr
      rw [← h.lanes r i (by simp)]
      have : r ≠ a.toNat := by simpa [eq_comm] using hr
      unfold seesV
      rw [rdV_release_other _ _ _ _ this]
    · intro r i hr
      have : r = a.toNat := by simpa [eq_comm] using hr
      rw [← h.lanes r i (by simp), this]
      exact rdV_release_self _ _ _ _
  · rw [if_neg c]
    refine ⟨h.only, ?_, by simp, ?_, ?_, h.level, h.mask⟩
    · intro r hr hne
      exact h.regs r hr hne
    · intro r i _
      exact h.lanes r i (by simp)
    · intro r i _
      exact .inl (h.lanes r i (by simp))

/-- A mask triple written by a word with a last-read mark on a vector register. -/
theorem tripleTo (s : State) (d a : Reg) (l : Bool) (m : Mask) (hd : d.toNat ≤ 61) :
    TripleTo s ((s.wrMask d m).releaseV0 l a) d m (freesV0 l a) := by
  have h := ((((ScalarsTo.refl s).write d.toNat (maskWord m 0) (by omega)).write (d.toNat + 1) (maskWord m 1)
    (by omega)).write (d.toNat + 2) (maskWord m 2) (by omega)).freeV l a
  have e : (fun r => if r = d.toNat + 2 then some (maskWord m 2) else if r = d.toNat + 1 then some (maskWord m 1)
      else if r = d.toNat then some (maskWord m 0) else none) =
      (fun r => if d.toNat ≤ r ∧ r < d.toNat + 3 then some (maskWord m (r - d.toNat)) else none) := by
    funext r
    by_cases h2 : r = d.toNat + 2
    · simp [h2]
    · by_cases h1 : r = d.toNat + 1
      · simp [h1]
      · by_cases h0 : r = d.toNat
        · simp [h0]
        · rw [if_neg h2, if_neg h1, if_neg h0, if_neg (by omega)]
  rw [e] at h
  exact h

/-- A mask triple written by a word without one. -/
theorem tripleTo_plain (s : State) (d : Reg) (m : Mask) (hd : d.toNat ≤ 61) : TripleTo s (s.wrMask d m) d m none := by
  have := tripleTo s d 0 false m hd
  simpa [State.releaseV0, freesV0] using this

/-! ## Lane effects -/

theorem tableOf_getD {α : Type} (f : Nat → α) (x : α) (i : Nat) (h : i < 96) : (tableOf f)[i]?.getD x = f i := by
  simp [tableOf, h]

/-- Nothing is written. -/
theorem LanesTo.refl (s : State) (tag : Tag) : LanesTo s s (fun _ => none) tag none (fun _ => 0) (fun _ => 0) where
  only := rfl
  regs _ _ _ _ _ := rfl
  freed _ _ h := by simp at h
  tags _ _ _ := rfl
  tagFreed _ h := by simp at h
  flags i _ := by simp
  draws i _ := by simp

/-- The lanes a word acts on are the same throughout it. -/
theorem LanesTo.active {s t : State} {w : Nat → Option (Nat → Word)} {tag : Tag} {fv : Option Nat} {fl : Nat → Fl}
    {dr : Nat → Nat} (h : LanesTo s t w tag fv fl dr) : t.active = s.active := by
  have c : t.ctx = s.ctx := by rw [h.only]
  have l : t.thr.level = s.thr.level := by rw [h.only]
  have e : t.src.level = s.src.level := by
    unfold State.src
    rw [c]
    cases s.ctx.grp with
    | none => exact l
    | some g => rfl
  unfold State.active State.cur State.srcSplit
  rw [e, c]

/-- A lane of a register after a write of some lanes of register `d`. -/
theorem Thread.rdV_wrV (t : Thread) (stamp d r i : Nat) (m : Mask) (f : Nat → Word) (tag : Tag) (hd : d < 64) (hr : r < 64)
    (hi : i < 96) : laneOf ((t.wrV stamp d m f tag).rdV stamp r) i =
      if r = d then (if m.getLsbD i then f i else laneOf (t.rdV stamp d) i) else laneOf (t.rdV stamp r) i := by
  unfold Thread.wrV
  rw [dif_pos hd]
  by_cases e : r = d
  · subst e
    rw [if_pos rfl]
    simp only [Thread.rdV, clearBit_self]
    simp [hr, laneOf_lanesOf _ _ hi]
  · rw [if_neg e]
    simp only [Thread.rdV, clearBit_other _ _ _ hr e]
    simp [Ne.symm e]

/-- The tag of a register after a write. -/
theorem Thread.tag_wrV (t : Thread) (stamp d r : Nat) (m : Mask) (f : Nat → Word) (tag : Tag) (hd : d < 64) (hr : r < 64) :
    (t.wrV stamp d m f tag).tag stamp r = if r = d then (if m = allLanes then tag else .g) else t.tag stamp r := by
  unfold Thread.wrV
  rw [dif_pos hd]
  by_cases e : r = d
  · subst e
    rw [if_pos rfl]
    simp only [Thread.tag, clearBit_self]
    simp [hr]
  · rw [if_neg e]
    simp only [Thread.tag, clearBit_other _ _ _ hr e]
    simp [Ne.symm e]

/-- One more register written. -/
theorem LanesTo.write {s t : State} {w : Nat → Option (Nat → Word)} {tag : Tag} {fl : Nat → Fl} {dr : Nat → Nat}
    (h : LanesTo s t w tag none fl dr) (d : Nat) (f : Nat → Word) (hd : d < 64) :
    LanesTo s (t.wrVn d f tag) (fun r => if r = d then some f else w r) tag none fl dr := by
  have act := h.active
  have st : t.stamp = s.stamp := by rw [h.only]
  unfold State.wrVn
  by_cases z : t.active = 0
  · rw [if_pos z]
    rw [act] at z
    have off : ∀ i, s.active.getLsbD i = false := by simp [z]
    have ne : ¬ (0 : Mask) = allLanes := by decide
    refine ⟨h.only, ?_, by simp, ?_, by simp, h.flags, h.draws⟩
    · intro r i hr hi _
      rw [h.regs r i hr hi (by simp)]
      simp only [off]
      by_cases e : r = d
      · simp only [e, if_true]
        cases w d <;> simp
      · simp only [e, if_false]
    · intro r hr _
      rw [h.tags r hr (by simp)]
      simp only [z, ne, if_true, if_false]
      by_cases e : r = d
      · simp only [e, if_true]
        cases w d <;> simp
      · simp only [e, if_false]
  · rw [if_neg z]
    refine ⟨?_, ?_, by simp, ?_, by simp, ?_, ?_⟩
    · rw [h.only]
      unfold Thread.wrV
      split <;> rfl
    · intro r i hr hi _
      have := Thread.rdV_wrV t.thr t.stamp d r i t.active f tag hd hr hi
      show laneOf ((t.thr.wrV t.stamp d t.active f tag).rdV t.stamp r) i = _
      rw [this, act]
      by_cases e : r = d
      · simp only [e, if_true]
        have k := h.regs d i hd hi (by simp)
        unfold seesV at k
        by_cases b : s.active.getLsbD i = true
        · simp [b]
        · rw [k]
          simp only [b]
          cases w d <;> simp [seesV]
      · simp only [e, if_false]
        exact h.regs r i hr hi (by simp)
    · intro r hr _
      show (t.thr.wrV t.stamp d t.active f tag).tag t.stamp r = _
      rw [Thread.tag_wrV _ _ _ _ _ _ _ hd hr, act]
      rw [act] at z
      by_cases e : r = d
      · simp only [e, if_true, z, if_false]
      · simp only [e, if_false]
        exact h.tags r hr (by simp)
    · intro i hi
      rw [← h.flags i hi]
      show seesFl _ i = _
      unfold seesFl Thread.wrV
      split <;> rfl
    · intro i hi
      rw [← h.draws i hi]
      unfold seesDraw Thread.wrV
      split <;> rfl

/-- Flags are raised. -/
theorem LanesTo.raising {s t : State} {w : Nat → Option (Nat → Word)} {tag : Tag} {dr : Nat → Nat}
    (h : LanesTo s t w tag none (fun _ => 0) dr) (f : Nat → Fl) : LanesTo s (t.raise f) w tag none f dr := by
  have act := h.active
  refine ⟨?_, h.regs, by simp, h.tags, by simp, ?_, h.draws⟩
  · rw [h.only]
    rfl
  · intro i hi
    have k := h.flags i hi
    simp at k
    unfold State.raise seesFl
    simp only [tableOf_getD _ _ _ hi, act]
    unfold seesFl at k
    rw [k]
    by_cases b : s.active.getLsbD i = true <;> simp [b, flRaise]

/-- Draws are taken. -/
theorem LanesTo.drawing {s t : State} {w : Nat → Option (Nat → Word)} {tag : Tag} {fl : Nat → Fl}
    (h : LanesTo s t w tag none fl (fun _ => 0)) (n : Nat → Nat) : LanesTo s (t.advance n) w tag none fl n := by
  have act := h.active
  refine ⟨?_, h.regs, by simp, h.tags, by simp, h.flags, ?_⟩
  · rw [h.only]
    rfl
  · intro i hi
    have k := h.draws i hi
    simp at k
    unfold State.advance seesDraw
    simp only [tableOf_getD _ _ _ hi, act]
    unfold seesDraw at k
    rw [k]

/-- A last-read mark on a vector register that was not written. -/
theorem LanesTo.free {s t : State} {w : Nat → Option (Nat → Word)} {tag : Tag} {fl : Nat → Fl} {dr : Nat → Nat}
    (h : LanesTo s t w tag none fl dr) (l : Bool) (a : Reg) (fv : Option Nat) (hf : l = true → fv = some a.toNat)
    (hn : ∀ r, fv = some r → r = a.toNat) (hw : fv ≠ none → w a.toNat = none) :
    LanesTo s (t.releaseV0 l a) w tag fv fl dr := by
  unfold State.releaseV0
  by_cases c : (l && t.active != 0 && !t.ctx.vdst.getLsbD a.toNat) = true
  · have hl : l = true := by simp at c; exact c.1.1
    have hfv := hf hl
    subst hfv
    rw [if_pos c]
    refine ⟨?_, ?_, ?_, ?_, ?_, h.flags, h.draws⟩
    · rw [h.only]
    · intro r i hr hi hne
      have hra : r ≠ a.toNat := by simpa [eq_comm] using hne
      rw [← h.regs r i hr hi (by simp)]
      unfold seesV
      rw [rdV_release_other _ _ _ _ hra]
    · intro r i hr
      have hra := hn r hr
      by_cases hi : i < 96
      · have hv := h.regs a.toNat i (by omega) hi (by simp)
        rw [hw (by simp)] at hv
        replace hv : seesV t a.toNat i = seesV s a.toNat i := hv
        rw [hra, ← hv]
        exact rdV_release_self _ _ _ _
      · right
        simp [seesV, laneOf, hi]
    · intro r hr hne
      have hra : r ≠ a.toNat := by simpa [eq_comm] using hne
      rw [← h.tags r hr (by simp)]
      unfold seesTag
      simp only [Thread.tag, setBit_other _ _ _ hra]
    · intro r hr
      have hra := hn r hr
      have hv := h.tags a.toNat (by omega) (by simp)
      rw [hw (by simp)] at hv
      replace hv : seesTag t a.toNat = seesTag s a.toNat := hv
      rw [hra, ← hv]
      unfold seesTag
      simp only [Thread.tag, setBit_self _ _ (show a.toNat < 64 by omega)]
      by_cases k : Config.tagReleased t.stamp a.toNat = true
      · simp [k]
      · simp [k]
  · rw [if_neg c]
    refine ⟨h.only, ?_, ?_, ?_, ?_, h.flags, h.draws⟩
    · intro r i hr hi _
      exact h.regs r i hr hi (by simp)
    · intro r i hr
      have hra := hn r hr
      by_cases hi : i < 96
      · have hv := h.regs a.toNat i (by omega) hi (by simp)
        rw [hw (by simp [hr])] at hv
        rw [hra]
        exact .inl hv
      · right
        simp [seesV, laneOf, hi]
    · intro r hr _
      exact h.tags r hr (by simp)
    · intro r hr
      have hra := hn r hr
      have hv := h.tags a.toNat (by omega) (by simp)
      rw [hw (by simp [hr])] at hv
      rw [hra]
      exact .inl hv

/-- A last-read mark in a word that writes vD. -/
theorem LanesTo.freeD {s t : State} {w : Nat → Option (Nat → Word)} {tag : Tag} {fl : Nat → Fl} {dr : Nat → Nat}
    (h : LanesTo s t w tag none fl dr) (l : Bool) (a d : Reg) (hw : a ≠ d → w a.toNat = none) :
    LanesTo s (t.releaseV l a d) w tag (freesV l a d) fl dr := by
  unfold State.releaseV freesV
  by_cases e : a = d
  · simpa [e] using h
  · rw [if_neg e]
    refine h.free l a _ (fun hl => by simp [hl, e]) (fun r hr => ?_) (fun _ => hw e)
    by_cases hl : l = true ∧ a ≠ d
    · simpa [hl, eq_comm] using hr
    · simp [hl] at hr

/-- vD written by an integer word with a last-read mark. -/
theorem vectorTo (s : State) (d a : Reg) (l : Bool) (f : Nat → Word) (tag : Tag) :
    VectorTo s ((s.wrV d f tag).releaseV l a d) d a l f tag := by
  refine ((LanesTo.refl s tag).write d.toNat f (by omega)).freeD l a d ?_
  intro h
  have : a.toNat ≠ d.toNat := fun k => h (BitVec.eq_of_toNat_eq k)
  simp [this]

/-- vD written by an integer word without one. -/
theorem vectorTo_plain (s : State) (d a : Reg) (f : Nat → Word) (tag : Tag) :
    VectorTo s (s.wrV d f tag) d a false f tag := by
  have := vectorTo s d a false f tag
  unfold State.releaseV at this
  simpa [State.releaseV0] using this

/-- The lanes of a wave are all that an effect speaks of. -/
theorem LanesTo.congr {s t : State} {w w' : Nat → Option (Nat → Word)} {tag : Tag} {fv : Option Nat} {fl fl' : Nat → Fl}
    {dr dr' : Nat → Nat} (h : LanesTo s t w tag fv fl dr)
    (hw : ∀ r, (w r = none ∧ w' r = none) ∨ ∃ f f', w r = some f ∧ w' r = some f' ∧ ∀ i, i < 96 → f i = f' i)
    (hf : ∀ i, i < 96 → fl i = fl' i) (hd : ∀ i, i < 96 → dr i = dr' i) : LanesTo s t w' tag fv fl' dr' := by
  refine ⟨h.only, ?_, h.freed, ?_, h.tagFreed, ?_, ?_⟩
  · intro r i hr hi hne
    rw [h.regs r i hr hi hne]
    rcases hw r with ⟨a, b⟩ | ⟨f, f', a, b, e⟩
    · rw [a, b]
    · simp only [a, b, e i hi]
  · intro r hr hne
    rw [h.tags r hr hne]
    rcases hw r with ⟨a, b⟩ | ⟨f, f', a, b, e⟩
    · rw [a, b]
    · simp only [a, b]
  · intro i hi
    rw [h.flags i hi, hf i hi]
  · intro i hi
    rw [h.draws i hi, hd i hi]

/-- vD, flags and draws of a floating word with a last-read mark. -/
theorem floatTo (s : State) (d a : Reg) (l : Bool) (f : Nat → LaneRes) (tag : Tag) :
    FloatTo s ((fword f tag d s).releaseV l a d) d a l f tag := by
  have h := (((LanesTo.refl s tag).write d.toNat
    (fun i => ((tableOf f)[i]?.getD ⟨0, 0, 0⟩).v) (by omega)).raising
    (fun i => ((tableOf f)[i]?.getD ⟨0, 0, 0⟩).fl)).drawing (fun i => ((tableOf f)[i]?.getD ⟨0, 0, 0⟩).draws)
  have g := h.freeD l a d (by
    intro e
    have : a.toNat ≠ d.toNat := fun k => e (BitVec.eq_of_toNat_eq k)
    simp [this])
  refine g.congr ?_ ?_ ?_
  · intro r
    by_cases e : r = d.toNat
    · right
      refine ⟨_, _, if_pos e, if_pos e, ?_⟩
      intro i hi
      rw [tableOf_getD _ _ _ hi]
    · left
      exact ⟨if_neg e, if_neg e⟩
  · intro i hi
    rw [tableOf_getD _ _ _ hi]
  · intro i hi
    rw [tableOf_getD _ _ _ hi]

/-- vD, flags and draws of a floating word without one. -/
theorem floatTo_plain (s : State) (d a : Reg) (f : Nat → LaneRes) (tag : Tag) :
    FloatTo s (fword f tag d s) d a false f tag := by
  have := floatTo s d a false f tag
  unfold State.releaseV at this
  simpa [State.releaseV0] using this

end Sys2Proof
end

