-- ==== Sys2Proof/Laws/Lanes.lean ====
section
/-! SUPPORT. The lanes of a mask, and what scans and reductions come to (R119, R125 to R128). -/

namespace Sys2Proof.Machine

theorem mem_lanesIn (m : Mask) (i : Nat) : i ∈ lanesIn m ↔ i < 96 ∧ m.getLsbD i = true := by
  simp [lanesIn, laneNums]

/-- The lanes of a mask rise strictly. -/
theorem lanesIn_sorted (m : Mask) : (lanesIn m).Pairwise (· < ·) := by
  unfold lanesIn laneNums
  exact List.Pairwise.filter _ List.pairwise_lt_range

/-- A bit of the mask of the lanes for which `p` holds. -/
theorem maskOf_bit (p : Nat → Bool) (i : Nat) (h : i < 96) : (maskOf p).getLsbD i = p i := by
  have key : ∀ (ls : List Nat) (m : Mask), (∀ j ∈ ls, j < 96) →
      (ls.foldl (fun m l => if p l then m ||| ((1 : Mask) <<< l) else m) m).getLsbD i =
        (m.getLsbD i || (decide (i ∈ ls) && p i)) := by
    intro ls
    induction ls with
    | nil => intro m _; simp
    | cons l ls ih =>
      intro m hl
      have bit : ((1 : Mask) <<< l).getLsbD i = decide (i = l) := by
        rw [BitVec.getLsbD_shiftLeft]
        by_cases e : i = l
        · simp [e, hl l (by simp)]
        · by_cases k : i < l
          · simp [e, k]
          · simp [e, h, show ¬ i - l = 0 by omega]
      rw [List.foldl_cons, ih _ (fun j hj => hl j (List.mem_cons_of_mem _ hj))]
      by_cases hp : p l = true
      · rw [if_pos hp, BitVec.getLsbD_or, bit]
        by_cases e : i = l
        · subst e; simp [hp]
        · simp [e]
      · rw [if_neg hp]
        by_cases e : i = l
        · subst e; simp [hp]
        · simp [e]
  unfold maskOf
  rw [key _ _ (by simp)]
  simp [h]

/-- A scan's entry for a lane combines the lanes up to it. -/
theorem scanList_entry (f : Word → Word → Word) (x : Lanes) (ls : List Nat) (acc : Option Word) (i : Nat)
    (hs : ls.Pairwise (· < ·)) (hi : i ∈ ls) :
    entryOf (scanList f x ls acc) i =
      combined f (acc.toList ++ (ls.filter (· ≤ i)).map (laneOf x)) := by
  induction ls generalizing acc with
  | nil => simp at hi
  | cons l ls ih =>
    have hlt := (List.pairwise_cons.1 hs).1
    by_cases e : l = i
    · subst e
      have none' : ls.filter (· ≤ l) = [] := by
        rw [List.filter_eq_nil_iff]
        intro a ha
        have := hlt a ha
        simp
        omega
      cases acc <;> simp [scanList, entryOf, none', combined]
    · have hi' : i ∈ ls := by
        rcases List.mem_cons.1 hi with h | h
        · exact absurd h.symm e
        · exact h
      have le : l ≤ i := le_of_lt (hlt i hi')
      have step : ∀ v, entryOf ((l, v) :: scanList f x ls (some v)) i = entryOf (scanList f x ls (some v)) i := by
        intro v
        simp [entryOf, e]
      cases acc with
      | none =>
        show entryOf ((l, laneOf x l) :: scanList f x ls (some (laneOf x l))) i = _
        rw [step, ih _ (List.pairwise_cons.1 hs).2 hi']
        simp [le]
      | some y =>
        show entryOf ((l, f y (laneOf x l)) :: scanList f x ls (some (f y (laneOf x l)))) i = _
        rw [step, ih _ (List.pairwise_cons.1 hs).2 hi']
        simp [le, combined]

end Sys2Proof.Machine
end

