-- ==== Sys2Proof/Laws/Memory.lean ====
section
/-! SUPPORT. Laws of memory: reads after writes, byte order, and that every operation over a memory keeps its canonical
form. -/

namespace Sys2Proof.Machine

/-! ## The canonical form -/

/-- A form above a bound holds above every lower one. -/
theorem cellsFrom_mono {m : List Host.Cell} {lo hi : Nat} (h : cellsFrom hi m = true) (le : lo ≤ hi) :
    cellsFrom lo m = true := by
  cases m with
  | nil => rfl
  | cons c t =>
    obtain ⟨x, y⟩ := c
    simp only [cellsFrom, Bool.and_eq_true, decide_eq_true_eq] at h ⊢
    exact ⟨⟨by omega, h.1.2⟩, h.2⟩

/-- A byte below the bound is not listed. -/
theorem cellRead_below {m : List Host.Cell} {lo a : Nat} (h : cellsFrom lo m = true) (lt : a < lo) : cellRead m a = 0 := by
  cases m with
  | nil => rfl
  | cons c t =>
    obtain ⟨x, y⟩ := c
    simp only [cellsFrom, Bool.and_eq_true, decide_eq_true_eq] at h
    simp [cellRead, show ¬ a = x by omega, show a < x by omega]

/-- A write keeps the form above a bound. -/
theorem cellsFrom_cellWrite {m : List Host.Cell} {lo a : Nat} (b : Byte) (h : cellsFrom lo m = true) (le : lo ≤ a) :
    cellsFrom lo (cellWrite m a b) = true := by
  induction m generalizing lo with
  | nil =>
    unfold cellWrite
    by_cases z : b = 0#8 <;> simp [z, cellsFrom, le]
  | cons c t ih =>
    obtain ⟨x, y⟩ := c
    have g := h
    simp only [cellsFrom, Bool.and_eq_true, decide_eq_true_eq] at g
    unfold cellWrite
    by_cases h1 : a < x
    · rw [if_pos h1]
      by_cases z : b = 0
      · rwa [if_pos z]
      · rw [if_neg z]
        have z' : ¬ b = 0#8 := z
        have gy : ¬ y = 0#8 := by simpa using g.1.2
        simp [cellsFrom, le, z', gy, g.2, show a + 1 ≤ x by omega]
    · rw [if_neg h1]
      by_cases h2 : a = x
      · rw [if_pos h2]
        by_cases z : b = 0
        · rw [if_pos z]
          exact cellsFrom_mono g.2 (by omega)
        · rw [if_neg z]
          subst h2
          have z' : ¬ b = 0#8 := z
          simp [cellsFrom, le, z', g.2]
      · rw [if_neg h2]
        simp only [cellsFrom, Bool.and_eq_true, decide_eq_true_eq]
        exact ⟨g.1, ih g.2 (by omega)⟩

/-- A write keeps the canonical form. -/
theorem wf_cellWrite {m : List Host.Cell} (a : Nat) (b : Byte) (h : Memory.wf m = true) :
    Memory.wf (cellWrite m a b) = true := cellsFrom_cellWrite b h (Nat.zero_le a)

/-- Writes of consecutive bytes keep it. -/
theorem wf_cellsWrite (bs : List Byte) {m : List Host.Cell} (a : Nat) (h : Memory.wf m = true) :
    Memory.wf (cellsWrite m a bs) = true := by
  induction bs generalizing m a with
  | nil => exact h
  | cons b bs ih => exact ih (a + 1) (wf_cellWrite a b h)

/-- Dropping bytes keeps the form above a bound. -/
theorem cellsFrom_filter (p : Host.Cell → Bool) {m : List Host.Cell} {lo : Nat} (h : cellsFrom lo m = true) :
    cellsFrom lo (m.filter p) = true := by
  induction m generalizing lo with
  | nil => rfl
  | cons c t ih =>
    obtain ⟨x, y⟩ := c
    simp only [cellsFrom, Bool.and_eq_true, decide_eq_true_eq] at h
    rw [List.filter_cons]
    split
    · simp only [cellsFrom, Bool.and_eq_true, decide_eq_true_eq]
      exact ⟨h.1, ih h.2⟩
    · exact cellsFrom_mono (ih h.2) (by omega)

/-- A bank of the CLM that loses its contents leaves the canonical form (R146). -/
theorem wf_filter (p : Host.Cell → Bool) {m : List Host.Cell} (h : Memory.wf m = true) : Memory.wf (m.filter p) = true :=
  cellsFrom_filter p h

/-! ## Reads after writes -/

/-- A byte read after a byte is written. -/
theorem cellRead_cellWrite_from {m : List Host.Cell} {lo : Nat} (a : Nat) (b : Byte) (h : cellsFrom lo m = true) (c : Nat) :
    cellRead (cellWrite m a b) c = if c = a then b else cellRead m c := by
  induction m generalizing lo with
  | nil =>
    unfold cellWrite
    by_cases z : b = 0#8 <;> by_cases e : c = a <;> simp [z, e, cellRead]
  | cons p t ih =>
    obtain ⟨x, y⟩ := p
    simp only [cellsFrom, Bool.and_eq_true, decide_eq_true_eq] at h
    unfold cellWrite
    by_cases h1 : a < x
    · rw [if_pos h1]
      by_cases z : b = 0#8 <;> by_cases e : c = a
      · simp [z, e, cellRead, h1, show ¬ a = x by omega]
      · simp [z, e]
      · simp [z, e, cellRead]
      · by_cases l : c < a
        · simp [z, e, cellRead, l, show ¬ c = x by omega, show c < x by omega]
        · simp [z, e, cellRead, l]
    · rw [if_neg h1]
      by_cases h2 : a = x
      · subst h2
        rw [if_pos rfl]
        by_cases z : b = 0
        · rw [if_pos z]
          by_cases e : c = a
          · simp [e, z, cellRead_below h.2 (show a < a + 1 by omega)]
          · by_cases l : c < a
            · simp [e, cellRead, l, cellRead_below h.2 (show c < a + 1 by omega)]
            · simp [e, cellRead, l]
        · rw [if_neg z]
          by_cases e : c = a <;> simp [e, cellRead]
      · rw [if_neg h2]
        simp only [cellRead, ih h.2]
        by_cases e : c = x
        · simp [e, show ¬ x = a by omega]
        · by_cases l : c < x
          · simp [e, l, show ¬ c = a by omega]
          · simp [e, l]

/-- A byte read after a byte is written. -/
theorem cellRead_cellWrite {m : List Host.Cell} (a : Nat) (b : Byte) (h : Memory.wf m = true) (c : Nat) :
    cellRead (cellWrite m a b) c = if c = a then b else cellRead m c := cellRead_cellWrite_from a b h c

/-- A byte read after consecutive bytes are written. -/
theorem cellRead_cellsWrite (bs : List Byte) {m : List Host.Cell} (a : Nat) (h : Memory.wf m = true) (c : Nat) :
    cellRead (cellsWrite m a bs) c = if a ≤ c ∧ c < a + bs.length then bs[c - a]?.getD 0 else cellRead m c := by
  induction bs generalizing m a with
  | nil => simp [cellsWrite, show ¬ (a ≤ c ∧ c < a) by omega]
  | cons b bs ih =>
    rw [cellsWrite, ih (a + 1) (wf_cellWrite a b h), cellRead_cellWrite a b h, List.length_cons]
    by_cases e : c = a
    · subst e
      simp
    · by_cases l : a + 1 ≤ c ∧ c < a + 1 + bs.length
      · rw [if_pos l, if_pos (by omega), show c - a = (c - (a + 1)) + 1 by omega]
        rfl
      · rw [if_neg l, if_neg e, if_neg (by omega)]

/-- The bytes read where they were written. -/
theorem cellsRead_cellsWrite (bs : List Byte) {m : List Host.Cell} (a : Nat) (h : Memory.wf m = true) :
    cellsRead (cellsWrite m a bs) a bs.length = bs := by
  refine List.ext_getElem (by simp [cellsRead]) ?_
  intro i h1 h2
  simp [cellsRead, cellRead_cellsWrite bs a h, h2]

/-- Bytes that a write does not reach read as before. -/
theorem cellsRead_cellsWrite_apart (bs : List Byte) {m : List Host.Cell} (a c n : Nat) (h : Memory.wf m = true)
    (apart : c + n ≤ a ∨ a + bs.length ≤ c) : cellsRead (cellsWrite m a bs) c n = cellsRead m c n := by
  unfold cellsRead
  refine List.map_congr_left ?_
  intro i hi
  rw [List.mem_range] at hi
  rw [cellRead_cellsWrite bs a h, if_neg (by omega)]

/-- Two memories in canonical form that read alike are equal. -/
theorem cells_ext_from {m n : List Host.Cell} {lo : Nat} (hm : cellsFrom lo m = true) (hn : cellsFrom lo n = true)
    (h : ∀ a, cellRead m a = cellRead n a) : m = n := by
  induction m generalizing n lo with
  | nil =>
    cases n with
    | nil => rfl
    | cons c t =>
      obtain ⟨x, y⟩ := c
      simp only [cellsFrom, Bool.and_eq_true] at hn
      have := h x
      simp [cellRead] at this
      simp [← this] at hn
  | cons c t ih =>
    obtain ⟨x, y⟩ := c
    simp only [cellsFrom, Bool.and_eq_true, decide_eq_true_eq] at hm
    cases n with
    | nil =>
      have := h x
      simp [cellRead] at this
      simp [this] at hm
    | cons c' t' =>
      obtain ⟨x', y'⟩ := c'
      simp only [cellsFrom, Bool.and_eq_true, decide_eq_true_eq] at hn
      have e : x = x' := by
        rcases Nat.lt_trichotomy x x' with l | l | l
        · have := h x
          simp [cellRead, show ¬ x = x' by omega, l] at this
          simp [this] at hm
        · exact l
        · have := h x'
          simp [cellRead, show ¬ x' = x by omega, l] at this
          simp [← this] at hn
      subst e
      have ey := h x
      simp [cellRead] at ey
      subst ey
      congr 1
      refine ih hm.2 hn.2 ?_
      intro a
      by_cases l : a < x + 1
      · rw [cellRead_below hm.2 l, cellRead_below hn.2 l]
      · have := h a
        simpa [cellRead, show ¬ a = x by omega, show ¬ a < x by omega] using this

/-- Equal memories are equal data. -/
theorem cells_ext {m n : List Host.Cell} (hm : Memory.wf m = true) (hn : Memory.wf n = true)
    (h : ∀ a, cellRead m a = cellRead n a) : m = n := cells_ext_from hm hn h

/-! ## Byte order (R3) -/

@[simp] theorem bytesOfNat_length (n v : Nat) : (bytesOfNat n v).length = n := by
  induction n generalizing v with
  | zero => rfl
  | succ n ih => simp [bytesOfNat, ih]

/-- The number made of the low bytes of a number. -/
theorem natOfBytes_bytesOfNat (n v : Nat) : natOfBytes (bytesOfNat n v) = v % 256 ^ n := by
  induction n generalizing v with
  | zero => simp [bytesOfNat, natOfBytes, Nat.mod_one]
  | succ n ih =>
    rw [bytesOfNat, natOfBytes, ih, BitVec.toNat_ofNat, show 256 ^ (n + 1) = 256 * 256 ^ n from by ring, Nat.mod_mul]

/-- A number of bytes is below a power of 256. -/
theorem natOfBytes_lt (bs : List Byte) : natOfBytes bs < 256 ^ bs.length := by
  induction bs with
  | nil => simp [natOfBytes]
  | cons b bs ih =>
    have := b.isLt
    rw [natOfBytes, List.length_cons, Nat.pow_succ]
    omega

/-- A word read where its bytes were written. -/
theorem word_of_bytes (x : Word) : BitVec.ofNat 32 (natOfBytes (bytesOfNat 4 x.toNat)) = x := by
  rw [natOfBytes_bytesOfNat]
  apply BitVec.eq_of_toNat_eq
  have := x.isLt
  simp only [BitVec.toNat_ofNat]
  omega

/-! ## Writes at the home (R166, R170, R171) -/

/-- The writes of one sector at the home. -/
theorem wf_sector (bytes : List (Nat × Byte)) {m : List Host.Cell} (base : Nat) (h : Memory.wf m = true) :
    Memory.wf (bytes.foldl (fun m (o, b) => cellWrite m (base + o) b) m) = true := by
  induction bytes generalizing m with
  | nil => exact h
  | cons x xs ih => exact ih (wf_cellWrite _ _ h)

/-- A byte that no byte of a sector's write reaches reads as before. -/
theorem cellRead_sector_other (bytes : List (Nat × Byte)) {m : List Host.Cell} (base a : Nat) (h : Memory.wf m = true)
    (out : ∀ x ∈ bytes, a ≠ base + x.1) :
    cellRead (bytes.foldl (fun m (o, b) => cellWrite m (base + o) b) m) a = cellRead m a := by
  induction bytes generalizing m with
  | nil => rfl
  | cons x xs ih =>
    rw [List.foldl_cons, ih (wf_cellWrite _ _ h) (fun y hy => out y (List.mem_cons_of_mem _ hy)),
      cellRead_cellWrite _ _ h, if_neg (out x (List.mem_cons_self ..))]

theorem wf_reset : Memory.wf State.reset.mem = true := rfl

/-- Writes of ranges of the CLM keep its canonical form. -/
theorem wf_rows (rows : List (Nat × List Byte)) {m : List Host.Cell} (h : Memory.wf m = true) :
    Memory.wf (rows.foldl (fun m (a, bs) => cellsWrite m a bs) m) = true := by
  induction rows generalizing m with
  | nil => exact h
  | cons x xs ih => exact ih (wf_cellsWrite _ _ h)

theorem wf_clmWrite {c : Cluster} (rows : List (Nat × List Byte)) (h : Memory.wf c.clm = true) :
    Memory.wf (c.clmWrite rows).clm = true := wf_rows rows h

theorem wf_clearBank {c : Cluster} (b : Nat) (h : Memory.wf c.clm = true) : Memory.wf (c.clearBank b).clm = true :=
  wf_filter _ h

theorem wf_switchBank {c : Cluster} (stamp b : Nat) (m : BitVec 2) (h : Memory.wf c.clm = true) :
    Memory.wf (c.switchBank stamp b m).clm = true := by
  unfold Cluster.switchBank
  cases c.banks[b]? with
  | none => exact h
  | some k =>
    dsimp only
    split
    · refine wf_clearBank b ?_
      repeat' split
      all_goals exact h
    · repeat' split
      all_goals exact h

end Sys2Proof.Machine

namespace Sys2Proof

open Machine

/-! ## Operations that keep a state safe -/

/-- What leaves both memories leaves their form. -/
theorem Safe.of {s t : State} (h : Safe s) (m : t.mem = s.mem) (c : t.clusters = s.clusters) : Safe t := by
  unfold Safe
  rw [m, c]
  exact h

/-- A cluster that is asked for has its CLM in canonical form, a fresh one too. -/
theorem Safe.cluster {s : State} (h : Safe s) (c : Nat) : Memory.wf (s.cluster c).clm = true := by
  unfold State.cluster
  cases e : s.clusters.find? (fun x => x.id == c) with
  | none => rfl
  | some k => exact h.2 k (List.mem_of_find?_eq_some e)

theorem Safe.setCluster {s : State} (h : Safe s) {c : Cluster} (hc : Memory.wf c.clm = true) : Safe (s.setCluster c) := by
  refine ⟨h.1, ?_⟩
  intro k hk
  rcases List.mem_cons.mp hk with e | e
  · rw [e]; exact hc
  · exact h.2 k (List.mem_of_mem_filter e)

theorem Safe.modCluster {s : State} (h : Safe s) (c : Nat) {f : Cluster → Cluster}
    (hf : Memory.wf (f (s.cluster c)).clm = true) : Safe (s.modCluster c f) := h.setCluster hf

/-- A change of a cluster that leaves its CLM. -/
theorem Safe.modCluster_clm {s : State} (h : Safe s) (c : Nat) {f : Cluster → Cluster}
    (hf : (f (s.cluster c)).clm = (s.cluster c).clm) : Safe (s.modCluster c f) :=
  h.modCluster c (by rw [hf]; exact h.cluster c)

theorem Safe.modCore {s : State} (h : Safe s) (c : Nat) (f : Core → Core) : Safe (s.modCore c f) := h.of rfl rfl

theorem Safe.homeWriteSector {s : State} (h : Safe s) (k : Nat) (bytes : List (Nat × Byte)) :
    Safe (s.homeWriteSector k bytes) := ⟨wf_sector bytes (32 * k) h.1, h.2⟩

theorem Safe.homeWrite {s : State} (h : Safe s) (pa : Nat) (bs : List Byte) : Safe (s.homeWrite pa bs) :=
  ⟨wf_cellsWrite bs pa h.1, h.2⟩

theorem Safe.setOwner {s : State} (h : Safe s) (w : Nat) (c : Option Nat) : Safe (s.setOwner w c) := h.of rfl rfl

theorem Safe.disown {s : State} (h : Safe s) (w : Nat) : Safe (s.disown w) := by
  unfold State.disown
  cases s.owner w with
  | none => exact h
  | some c => exact (h.modCluster_clm c rfl).setOwner w none

/-- What each element of a list keeps, the whole list keeps. -/
theorem Safe.foldl {α : Type} {f : State → α → State} (hf : ∀ s x, Safe s → Safe (f s x)) (xs : List α) {s : State}
    (h : Safe s) : Safe (xs.foldl f s) := by
  induction xs generalizing s with
  | nil => exact h
  | cons x xs ih => exact ih (hf s x h)

theorem Safe.disowns {s : State} (h : Safe s) (ws : List Nat) : Safe (ws.foldl State.disown s) :=
  Safe.foldl (fun _ w h => h.disown w) ws h

theorem Safe.engineWrite {s : State} (h : Safe s) (pa : Nat) (bs : List Byte) : Safe (s.engineWrite pa bs) :=
  (h.homeWrite pa bs).disowns _

theorem Safe.poisonSector {s : State} (h : Safe s) (k : Nat) : Safe (s.poisonSector k) :=
  have g : Safe { s with poison := if s.poison.contains k then s.poison else k :: s.poison } := h.of rfl rfl
  g.disowns _

/-- Clusters changed one by one, none in its CLM. -/
theorem Safe.mapClusters {s t : State} (h : Safe s) (f : Cluster → Cluster) (m : t.mem = s.mem)
    (c : t.clusters = s.clusters.map f) (clm : ∀ k, (f k).clm = k.clm) : Safe t := by
  refine ⟨m ▸ h.1, fun k inside => ?_⟩
  obtain ⟨old, was, rfl⟩ := List.mem_map.mp (c ▸ inside)
  exact clm old ▸ h.2 old was

theorem Safe.evictL2 {s : State} (h : Safe s) (line : Nat) : Safe (s.evictL2 line) :=
  h.mapClusters _ rfl rfl (fun _ => rfl)

theorem Safe.l2Room {s : State} (h : Safe s) (e : Env) (line : Nat) : Safe (s.l2Room e line) := by
  unfold State.l2Room
  dsimp only
  split
  · exact h.evictL2 _
  · exact h

theorem Safe.touchL2 {s : State} (h : Safe s) (e : Env) (pa : Nat) (hint : BitVec 2) (far : Bool) :
    Safe (s.touchL2 e pa hint far) := by
  unfold State.touchL2
  dsimp only
  split
  · exact h.of rfl rfl
  · exact (h.l2Room e _).of rfl rfl

theorem Safe.l2Write {s : State} (h : Safe s) (e : Env) (pa n : Nat) (hint : BitVec 2) (far : Bool) :
    Safe (s.l2Write e pa n hint far) :=
  Safe.foldl (f := fun s i => s.dirtyL2 (pa / 32 + i)) (fun s i h => Safe.of (t := s.dirtyL2 (pa / 32 + i)) h rfl rfl) _
    (h.touchL2 e pa hint far)

/-- A run of a range written at its page, or left out. -/
theorem Safe.written {s : State} (h : Safe s) (page : Option Page) (skip : Page → Bool) (bs : List Byte) :
    Safe (match page with
      | some p => if skip p = true then s else s.engineWrite p.pa bs
      | none => s) :=
  match page with
  | none => h
  | some p => by
    dsimp only
    split
    · exact h
    · exact h.engineWrite p.pa bs

theorem Safe.writeVirt {s : State} (h : Safe s) (root va : Nat) (bs : List Byte) : Safe (s.writeVirt root va bs) :=
  Safe.foldl (fun _ (o, n) h => h.written (State.pageAt _ root (va + o)) Page.ro ((bs.drop o).take n)) _ h

theorem Safe.placeVirt {s : State} (h : Safe s) (root va : Nat) (bs : List Byte) : Safe (s.placeVirt root va bs) :=
  Safe.foldl (fun _ (o, n) h => h.written (State.pageAt _ root (va + o)) (fun _ => false) ((bs.drop o).take n)) _ h

/-! ## What a write at the home leaves -/

theorem disown_mem (s : State) (w : Nat) : (s.disown w).mem = s.mem := by
  unfold State.disown
  cases s.owner w <;> rfl

theorem disowns_mem (ws : List Nat) (s : State) : (ws.foldl State.disown s).mem = s.mem := by
  induction ws generalizing s with
  | nil => rfl
  | cons w ws ih => rw [List.foldl_cons, ih, disown_mem]

/-- The memory after an engine's write (R171). -/
theorem engineWrite_mem (s : State) (pa : Nat) (bs : List Byte) : (s.engineWrite pa bs).mem = cellsWrite s.mem pa bs :=
  disowns_mem _ _

theorem disown_stale (s : State) (w : Nat) : (s.disown w).stale = s.stale := by
  unfold State.disown
  cases s.owner w <;> rfl

theorem disowns_stale (ws : List Nat) (s : State) : (ws.foldl State.disown s).stale = s.stale :=
  List.foldlRecOn (motive := fun t => t.stale = s.stale) ws State.disown rfl (fun t k w _ => (disown_stale t w).trans k)

/-- The stale bytes after an engine's write: those that it reaches are stale no more (R177). -/
theorem engineWrite_stale (s : State) (pa : Nat) (bs : List Byte) :
    (s.engineWrite pa bs).stale = s.stale.filter (fun c => !(decide (pa ≤ c.1 ∧ c.1 < pa + bs.length))) :=
  disowns_stale _ _

/-- A byte at its home after an engine's write. -/
theorem homeByte_engineWrite {s : State} (h : Safe s) (pa : Nat) (bs : List Byte) (a : Nat) :
    (s.engineWrite pa bs).homeByte a = if pa ≤ a ∧ a < pa + bs.length then bs[a - pa]?.getD 0 else s.homeByte a := by
  unfold State.homeByte
  rw [engineWrite_mem, engineWrite_stale, cellRead_cellsWrite bs pa h.1]
  by_cases reached : pa ≤ a ∧ a < pa + bs.length
  · rw [if_pos reached, List.find?_eq_none.mpr]
    · simp [reached]
    · intro c inside at_
      have := (List.mem_filter.mp inside).2
      rw [beq_iff_eq] at at_
      simp [at_, reached] at this
  · rw [if_neg reached, if_neg reached, List.find?_filter]
    refine congrArg (fun f => ((List.find? f s.stale).map Prod.snd).getD _) (funext fun c => ?_)
    by_cases at_ : c.1 = a
    · rw [at_]
      simp only [reached]
      simp
    · simp [at_]

/-- Bytes read where an engine wrote them. -/
theorem homeRead_engineWrite {s : State} (h : Safe s) (pa : Nat) (bs : List Byte) :
    (s.engineWrite pa bs).homeRead pa bs.length = bs := by
  refine List.ext_getElem (by simp [State.homeRead]) (fun i _ inside => ?_)
  simp [State.homeRead, homeByte_engineWrite h, inside]

/-- Bytes that an engine's write does not reach. -/
theorem homeRead_engineWrite_apart {s : State} (h : Safe s) (pa : Nat) (bs : List Byte) (a n : Nat)
    (apart : a + n ≤ pa ∨ pa + bs.length ≤ a) : (s.engineWrite pa bs).homeRead a n = s.homeRead a n := by
  refine List.map_congr_left (fun i inside => ?_)
  rw [List.mem_range] at inside
  rw [homeByte_engineWrite h, if_neg (by omega)]

theorem poisonSector_mem (s : State) (k : Nat) : (s.poisonSector k).mem = s.mem := disowns_mem _ _

end Sys2Proof
end

