-- ==== Sys2Proof/Laws/State.lean ====
section
/-! SUPPORT. The updates of a state, field by field: every field that an update does not write is as it was. -/

namespace Sys2Proof.Machine

section
variable (s : State) (r : Reg) (x : Word)

@[simp] theorem State.wrS_agenda : (s.wrS r x).agenda = s.agenda := rfl
@[simp] theorem State.wrS_stamp : (s.wrS r x).stamp = s.stamp := rfl
@[simp] theorem State.wrS_nextId : (s.wrS r x).nextId = s.nextId := rfl
@[simp] theorem State.wrS_ctx : (s.wrS r x).ctx = s.ctx := rfl
@[simp] theorem State.wrS_clock : (s.wrS r x).clock = s.clock := rfl
@[simp] theorem State.wrS_time : (s.wrS r x).time = s.time := rfl
@[simp] theorem State.wrS_live : (s.wrS r x).live = s.live := rfl
@[simp] theorem State.wrS_threads : (s.wrS r x).threads = s.threads := rfl
@[simp] theorem State.wrS_groups : (s.wrS r x).groups = s.groups := rfl
@[simp] theorem State.wrS_dispatches : (s.wrS r x).dispatches = s.dispatches := rfl
@[simp] theorem State.wrS_regions : (s.wrS r x).regions = s.regions := rfl
@[simp] theorem State.wrS_images : (s.wrS r x).images = s.images := rfl
@[simp] theorem State.wrS_mem : (s.wrS r x).mem = s.mem := rfl
@[simp] theorem State.wrS_poison : (s.wrS r x).poison = s.poison := rfl
@[simp] theorem State.wrS_codes : (s.wrS r x).codes = s.codes := rfl
@[simp] theorem State.wrS_stale : (s.wrS r x).stale = s.stale := rfl
@[simp] theorem State.wrS_owners : (s.wrS r x).owners = s.owners := rfl
@[simp] theorem State.wrS_l2 : (s.wrS r x).l2 = s.l2 := rfl
@[simp] theorem State.wrS_wq : (s.wrS r x).wq = s.wq := rfl
@[simp] theorem State.wrS_hold : (s.wrS r x).hold = s.hold := rfl
@[simp] theorem State.wrS_rq : (s.wrS r x).rq = s.rq := rfl
@[simp] theorem State.wrS_flights : (s.wrS r x).flights = s.flights := rfl
@[simp] theorem State.wrS_faults : (s.wrS r x).faults = s.faults := rfl
@[simp] theorem State.wrS_cores : (s.wrS r x).cores = s.cores := rfl
@[simp] theorem State.wrS_clusters : (s.wrS r x).clusters = s.clusters := rfl
@[simp] theorem State.wrS_nodeCache : (s.wrS r x).nodeCache = s.nodeCache := rfl
@[simp] theorem State.wrS_slots : (s.wrS r x).slots = s.slots := rfl
@[simp] theorem State.wrS_crucible : (s.wrS r x).crucible = s.crucible := rfl
@[simp] theorem State.wrS_tables : (s.wrS r x).tables = s.tables := rfl
@[simp] theorem State.wrS_watches : (s.wrS r x).watches = s.watches := rfl
@[simp] theorem State.wrS_draws : (s.wrS r x).draws = s.draws := rfl
@[simp] theorem State.wrS_calls : (s.wrS r x).calls = s.calls := rfl
@[simp] theorem State.wrS_events : (s.wrS r x).events = s.events := rfl
@[simp] theorem State.wrS_plat : (s.wrS r x).plat = s.plat := rfl
end

section
variable (s : State) (r : Nat) (x : Word)

@[simp] theorem State.wrSn_agenda : (s.wrSn r x).agenda = s.agenda := rfl
@[simp] theorem State.wrSn_stamp : (s.wrSn r x).stamp = s.stamp := rfl
@[simp] theorem State.wrSn_nextId : (s.wrSn r x).nextId = s.nextId := rfl
@[simp] theorem State.wrSn_ctx : (s.wrSn r x).ctx = s.ctx := rfl
@[simp] theorem State.wrSn_clock : (s.wrSn r x).clock = s.clock := rfl
@[simp] theorem State.wrSn_time : (s.wrSn r x).time = s.time := rfl
@[simp] theorem State.wrSn_live : (s.wrSn r x).live = s.live := rfl
@[simp] theorem State.wrSn_threads : (s.wrSn r x).threads = s.threads := rfl
@[simp] theorem State.wrSn_groups : (s.wrSn r x).groups = s.groups := rfl
@[simp] theorem State.wrSn_dispatches : (s.wrSn r x).dispatches = s.dispatches := rfl
@[simp] theorem State.wrSn_regions : (s.wrSn r x).regions = s.regions := rfl
@[simp] theorem State.wrSn_images : (s.wrSn r x).images = s.images := rfl
@[simp] theorem State.wrSn_mem : (s.wrSn r x).mem = s.mem := rfl
@[simp] theorem State.wrSn_poison : (s.wrSn r x).poison = s.poison := rfl
@[simp] theorem State.wrSn_codes : (s.wrSn r x).codes = s.codes := rfl
@[simp] theorem State.wrSn_stale : (s.wrSn r x).stale = s.stale := rfl
@[simp] theorem State.wrSn_owners : (s.wrSn r x).owners = s.owners := rfl
@[simp] theorem State.wrSn_l2 : (s.wrSn r x).l2 = s.l2 := rfl
@[simp] theorem State.wrSn_wq : (s.wrSn r x).wq = s.wq := rfl
@[simp] theorem State.wrSn_hold : (s.wrSn r x).hold = s.hold := rfl
@[simp] theorem State.wrSn_rq : (s.wrSn r x).rq = s.rq := rfl
@[simp] theorem State.wrSn_flights : (s.wrSn r x).flights = s.flights := rfl
@[simp] theorem State.wrSn_faults : (s.wrSn r x).faults = s.faults := rfl
@[simp] theorem State.wrSn_cores : (s.wrSn r x).cores = s.cores := rfl
@[simp] theorem State.wrSn_clusters : (s.wrSn r x).clusters = s.clusters := rfl
@[simp] theorem State.wrSn_nodeCache : (s.wrSn r x).nodeCache = s.nodeCache := rfl
@[simp] theorem State.wrSn_slots : (s.wrSn r x).slots = s.slots := rfl
@[simp] theorem State.wrSn_crucible : (s.wrSn r x).crucible = s.crucible := rfl
@[simp] theorem State.wrSn_tables : (s.wrSn r x).tables = s.tables := rfl
@[simp] theorem State.wrSn_watches : (s.wrSn r x).watches = s.watches := rfl
@[simp] theorem State.wrSn_draws : (s.wrSn r x).draws = s.draws := rfl
@[simp] theorem State.wrSn_calls : (s.wrSn r x).calls = s.calls := rfl
@[simp] theorem State.wrSn_events : (s.wrSn r x).events = s.events := rfl
@[simp] theorem State.wrSn_plat : (s.wrSn r x).plat = s.plat := rfl
end

section
variable (s : State) (f : Split → Split)

@[simp] theorem State.setSplit_agenda : (s.setSplit f).agenda = s.agenda := by unfold State.setSplit; split <;> rfl
@[simp] theorem State.setSplit_stamp : (s.setSplit f).stamp = s.stamp := by unfold State.setSplit; split <;> rfl
@[simp] theorem State.setSplit_nextId : (s.setSplit f).nextId = s.nextId := by unfold State.setSplit; split <;> rfl
@[simp] theorem State.setSplit_ctx : (s.setSplit f).ctx = s.ctx := by unfold State.setSplit; split <;> rfl
@[simp] theorem State.setSplit_clock : (s.setSplit f).clock = s.clock := by unfold State.setSplit; split <;> rfl
@[simp] theorem State.setSplit_time : (s.setSplit f).time = s.time := by unfold State.setSplit; split <;> rfl
@[simp] theorem State.setSplit_live : (s.setSplit f).live = s.live := by unfold State.setSplit; split <;> rfl
@[simp] theorem State.setSplit_threads : (s.setSplit f).threads = s.threads := by unfold State.setSplit; split <;> rfl
@[simp] theorem State.setSplit_groups : (s.setSplit f).groups = s.groups := by unfold State.setSplit; split <;> rfl
@[simp] theorem State.setSplit_dispatches : (s.setSplit f).dispatches = s.dispatches := by unfold State.setSplit; split <;> rfl
@[simp] theorem State.setSplit_regions : (s.setSplit f).regions = s.regions := by unfold State.setSplit; split <;> rfl
@[simp] theorem State.setSplit_images : (s.setSplit f).images = s.images := by unfold State.setSplit; split <;> rfl
@[simp] theorem State.setSplit_mem : (s.setSplit f).mem = s.mem := by unfold State.setSplit; split <;> rfl
@[simp] theorem State.setSplit_poison : (s.setSplit f).poison = s.poison := by unfold State.setSplit; split <;> rfl
@[simp] theorem State.setSplit_codes : (s.setSplit f).codes = s.codes := by unfold State.setSplit; split <;> rfl
@[simp] theorem State.setSplit_stale : (s.setSplit f).stale = s.stale := by unfold State.setSplit; split <;> rfl
@[simp] theorem State.setSplit_owners : (s.setSplit f).owners = s.owners := by unfold State.setSplit; split <;> rfl
@[simp] theorem State.setSplit_l2 : (s.setSplit f).l2 = s.l2 := by unfold State.setSplit; split <;> rfl
@[simp] theorem State.setSplit_wq : (s.setSplit f).wq = s.wq := by unfold State.setSplit; split <;> rfl
@[simp] theorem State.setSplit_hold : (s.setSplit f).hold = s.hold := by unfold State.setSplit; split <;> rfl
@[simp] theorem State.setSplit_rq : (s.setSplit f).rq = s.rq := by unfold State.setSplit; split <;> rfl
@[simp] theorem State.setSplit_flights : (s.setSplit f).flights = s.flights := by unfold State.setSplit; split <;> rfl
@[simp] theorem State.setSplit_faults : (s.setSplit f).faults = s.faults := by unfold State.setSplit; split <;> rfl
@[simp] theorem State.setSplit_cores : (s.setSplit f).cores = s.cores := by unfold State.setSplit; split <;> rfl
@[simp] theorem State.setSplit_clusters : (s.setSplit f).clusters = s.clusters := by unfold State.setSplit; split <;> rfl
@[simp] theorem State.setSplit_nodeCache : (s.setSplit f).nodeCache = s.nodeCache := by unfold State.setSplit; split <;> rfl
@[simp] theorem State.setSplit_slots : (s.setSplit f).slots = s.slots := by unfold State.setSplit; split <;> rfl
@[simp] theorem State.setSplit_crucible : (s.setSplit f).crucible = s.crucible := by unfold State.setSplit; split <;> rfl
@[simp] theorem State.setSplit_tables : (s.setSplit f).tables = s.tables := by unfold State.setSplit; split <;> rfl
@[simp] theorem State.setSplit_watches : (s.setSplit f).watches = s.watches := by unfold State.setSplit; split <;> rfl
@[simp] theorem State.setSplit_draws : (s.setSplit f).draws = s.draws := by unfold State.setSplit; split <;> rfl
@[simp] theorem State.setSplit_calls : (s.setSplit f).calls = s.calls := by unfold State.setSplit; split <;> rfl
@[simp] theorem State.setSplit_events : (s.setSplit f).events = s.events := by unfold State.setSplit; split <;> rfl
@[simp] theorem State.setSplit_plat : (s.setSplit f).plat = s.plat := by unfold State.setSplit; split <;> rfl
end

section
variable (s : State) (d : Nat) (f : Nat → Word) (tag : Tag)

@[simp] theorem State.wrVn_agenda : (s.wrVn d f tag).agenda = s.agenda := by unfold State.wrVn; split <;> rfl
@[simp] theorem State.wrVn_stamp : (s.wrVn d f tag).stamp = s.stamp := by unfold State.wrVn; split <;> rfl
@[simp] theorem State.wrVn_nextId : (s.wrVn d f tag).nextId = s.nextId := by unfold State.wrVn; split <;> rfl
@[simp] theorem State.wrVn_ctx : (s.wrVn d f tag).ctx = s.ctx := by unfold State.wrVn; split <;> rfl
@[simp] theorem State.wrVn_clock : (s.wrVn d f tag).clock = s.clock := by unfold State.wrVn; split <;> rfl
@[simp] theorem State.wrVn_time : (s.wrVn d f tag).time = s.time := by unfold State.wrVn; split <;> rfl
@[simp] theorem State.wrVn_live : (s.wrVn d f tag).live = s.live := by unfold State.wrVn; split <;> rfl
@[simp] theorem State.wrVn_threads : (s.wrVn d f tag).threads = s.threads := by unfold State.wrVn; split <;> rfl
@[simp] theorem State.wrVn_groups : (s.wrVn d f tag).groups = s.groups := by unfold State.wrVn; split <;> rfl
@[simp] theorem State.wrVn_dispatches : (s.wrVn d f tag).dispatches = s.dispatches := by unfold State.wrVn; split <;> rfl
@[simp] theorem State.wrVn_regions : (s.wrVn d f tag).regions = s.regions := by unfold State.wrVn; split <;> rfl
@[simp] theorem State.wrVn_images : (s.wrVn d f tag).images = s.images := by unfold State.wrVn; split <;> rfl
@[simp] theorem State.wrVn_mem : (s.wrVn d f tag).mem = s.mem := by unfold State.wrVn; split <;> rfl
@[simp] theorem State.wrVn_poison : (s.wrVn d f tag).poison = s.poison := by unfold State.wrVn; split <;> rfl
@[simp] theorem State.wrVn_codes : (s.wrVn d f tag).codes = s.codes := by unfold State.wrVn; split <;> rfl
@[simp] theorem State.wrVn_stale : (s.wrVn d f tag).stale = s.stale := by unfold State.wrVn; split <;> rfl
@[simp] theorem State.wrVn_owners : (s.wrVn d f tag).owners = s.owners := by unfold State.wrVn; split <;> rfl
@[simp] theorem State.wrVn_l2 : (s.wrVn d f tag).l2 = s.l2 := by unfold State.wrVn; split <;> rfl
@[simp] theorem State.wrVn_wq : (s.wrVn d f tag).wq = s.wq := by unfold State.wrVn; split <;> rfl
@[simp] theorem State.wrVn_hold : (s.wrVn d f tag).hold = s.hold := by unfold State.wrVn; split <;> rfl
@[simp] theorem State.wrVn_rq : (s.wrVn d f tag).rq = s.rq := by unfold State.wrVn; split <;> rfl
@[simp] theorem State.wrVn_flights : (s.wrVn d f tag).flights = s.flights := by unfold State.wrVn; split <;> rfl
@[simp] theorem State.wrVn_faults : (s.wrVn d f tag).faults = s.faults := by unfold State.wrVn; split <;> rfl
@[simp] theorem State.wrVn_cores : (s.wrVn d f tag).cores = s.cores := by unfold State.wrVn; split <;> rfl
@[simp] theorem State.wrVn_clusters : (s.wrVn d f tag).clusters = s.clusters := by unfold State.wrVn; split <;> rfl
@[simp] theorem State.wrVn_nodeCache : (s.wrVn d f tag).nodeCache = s.nodeCache := by unfold State.wrVn; split <;> rfl
@[simp] theorem State.wrVn_slots : (s.wrVn d f tag).slots = s.slots := by unfold State.wrVn; split <;> rfl
@[simp] theorem State.wrVn_crucible : (s.wrVn d f tag).crucible = s.crucible := by unfold State.wrVn; split <;> rfl
@[simp] theorem State.wrVn_tables : (s.wrVn d f tag).tables = s.tables := by unfold State.wrVn; split <;> rfl
@[simp] theorem State.wrVn_watches : (s.wrVn d f tag).watches = s.watches := by unfold State.wrVn; split <;> rfl
@[simp] theorem State.wrVn_draws : (s.wrVn d f tag).draws = s.draws := by unfold State.wrVn; split <;> rfl
@[simp] theorem State.wrVn_calls : (s.wrVn d f tag).calls = s.calls := by unfold State.wrVn; split <;> rfl
@[simp] theorem State.wrVn_events : (s.wrVn d f tag).events = s.events := by unfold State.wrVn; split <;> rfl
@[simp] theorem State.wrVn_plat : (s.wrVn d f tag).plat = s.plat := by unfold State.wrVn; split <;> rfl
end

section
variable (s : State) (f : Nat → Fl)

@[simp] theorem State.raise_agenda : (s.raise f).agenda = s.agenda := rfl
@[simp] theorem State.raise_stamp : (s.raise f).stamp = s.stamp := rfl
@[simp] theorem State.raise_nextId : (s.raise f).nextId = s.nextId := rfl
@[simp] theorem State.raise_ctx : (s.raise f).ctx = s.ctx := rfl
@[simp] theorem State.raise_clock : (s.raise f).clock = s.clock := rfl
@[simp] theorem State.raise_time : (s.raise f).time = s.time := rfl
@[simp] theorem State.raise_live : (s.raise f).live = s.live := rfl
@[simp] theorem State.raise_threads : (s.raise f).threads = s.threads := rfl
@[simp] theorem State.raise_groups : (s.raise f).groups = s.groups := rfl
@[simp] theorem State.raise_dispatches : (s.raise f).dispatches = s.dispatches := rfl
@[simp] theorem State.raise_regions : (s.raise f).regions = s.regions := rfl
@[simp] theorem State.raise_images : (s.raise f).images = s.images := rfl
@[simp] theorem State.raise_mem : (s.raise f).mem = s.mem := rfl
@[simp] theorem State.raise_poison : (s.raise f).poison = s.poison := rfl
@[simp] theorem State.raise_codes : (s.raise f).codes = s.codes := rfl
@[simp] theorem State.raise_stale : (s.raise f).stale = s.stale := rfl
@[simp] theorem State.raise_owners : (s.raise f).owners = s.owners := rfl
@[simp] theorem State.raise_l2 : (s.raise f).l2 = s.l2 := rfl
@[simp] theorem State.raise_wq : (s.raise f).wq = s.wq := rfl
@[simp] theorem State.raise_hold : (s.raise f).hold = s.hold := rfl
@[simp] theorem State.raise_rq : (s.raise f).rq = s.rq := rfl
@[simp] theorem State.raise_flights : (s.raise f).flights = s.flights := rfl
@[simp] theorem State.raise_faults : (s.raise f).faults = s.faults := rfl
@[simp] theorem State.raise_cores : (s.raise f).cores = s.cores := rfl
@[simp] theorem State.raise_clusters : (s.raise f).clusters = s.clusters := rfl
@[simp] theorem State.raise_nodeCache : (s.raise f).nodeCache = s.nodeCache := rfl
@[simp] theorem State.raise_slots : (s.raise f).slots = s.slots := rfl
@[simp] theorem State.raise_crucible : (s.raise f).crucible = s.crucible := rfl
@[simp] theorem State.raise_tables : (s.raise f).tables = s.tables := rfl
@[simp] theorem State.raise_watches : (s.raise f).watches = s.watches := rfl
@[simp] theorem State.raise_draws : (s.raise f).draws = s.draws := rfl
@[simp] theorem State.raise_calls : (s.raise f).calls = s.calls := rfl
@[simp] theorem State.raise_events : (s.raise f).events = s.events := rfl
@[simp] theorem State.raise_plat : (s.raise f).plat = s.plat := rfl
end

section
variable (s : State) (l : Bool) (a d : Reg)

@[simp] theorem State.releaseS_agenda : (s.releaseS l a d).agenda = s.agenda := by unfold State.releaseS; split <;> rfl
@[simp] theorem State.releaseS_stamp : (s.releaseS l a d).stamp = s.stamp := by unfold State.releaseS; split <;> rfl
@[simp] theorem State.releaseS_nextId : (s.releaseS l a d).nextId = s.nextId := by unfold State.releaseS; split <;> rfl
@[simp] theorem State.releaseS_ctx : (s.releaseS l a d).ctx = s.ctx := by unfold State.releaseS; split <;> rfl
@[simp] theorem State.releaseS_clock : (s.releaseS l a d).clock = s.clock := by unfold State.releaseS; split <;> rfl
@[simp] theorem State.releaseS_time : (s.releaseS l a d).time = s.time := by unfold State.releaseS; split <;> rfl
@[simp] theorem State.releaseS_live : (s.releaseS l a d).live = s.live := by unfold State.releaseS; split <;> rfl
@[simp] theorem State.releaseS_threads : (s.releaseS l a d).threads = s.threads := by unfold State.releaseS; split <;> rfl
@[simp] theorem State.releaseS_groups : (s.releaseS l a d).groups = s.groups := by unfold State.releaseS; split <;> rfl
@[simp] theorem State.releaseS_dispatches : (s.releaseS l a d).dispatches = s.dispatches := by unfold State.releaseS; split <;> rfl
@[simp] theorem State.releaseS_regions : (s.releaseS l a d).regions = s.regions := by unfold State.releaseS; split <;> rfl
@[simp] theorem State.releaseS_images : (s.releaseS l a d).images = s.images := by unfold State.releaseS; split <;> rfl
@[simp] theorem State.releaseS_mem : (s.releaseS l a d).mem = s.mem := by unfold State.releaseS; split <;> rfl
@[simp] theorem State.releaseS_poison : (s.releaseS l a d).poison = s.poison := by unfold State.releaseS; split <;> rfl
@[simp] theorem State.releaseS_codes : (s.releaseS l a d).codes = s.codes := by unfold State.releaseS; split <;> rfl
@[simp] theorem State.releaseS_stale : (s.releaseS l a d).stale = s.stale := by unfold State.releaseS; split <;> rfl
@[simp] theorem State.releaseS_owners : (s.releaseS l a d).owners = s.owners := by unfold State.releaseS; split <;> rfl
@[simp] theorem State.releaseS_l2 : (s.releaseS l a d).l2 = s.l2 := by unfold State.releaseS; split <;> rfl
@[simp] theorem State.releaseS_wq : (s.releaseS l a d).wq = s.wq := by unfold State.releaseS; split <;> rfl
@[simp] theorem State.releaseS_hold : (s.releaseS l a d).hold = s.hold := by unfold State.releaseS; split <;> rfl
@[simp] theorem State.releaseS_rq : (s.releaseS l a d).rq = s.rq := by unfold State.releaseS; split <;> rfl
@[simp] theorem State.releaseS_flights : (s.releaseS l a d).flights = s.flights := by unfold State.releaseS; split <;> rfl
@[simp] theorem State.releaseS_faults : (s.releaseS l a d).faults = s.faults := by unfold State.releaseS; split <;> rfl
@[simp] theorem State.releaseS_cores : (s.releaseS l a d).cores = s.cores := by unfold State.releaseS; split <;> rfl
@[simp] theorem State.releaseS_clusters : (s.releaseS l a d).clusters = s.clusters := by unfold State.releaseS; split <;> rfl
@[simp] theorem State.releaseS_nodeCache : (s.releaseS l a d).nodeCache = s.nodeCache := by unfold State.releaseS; split <;> rfl
@[simp] theorem State.releaseS_slots : (s.releaseS l a d).slots = s.slots := by unfold State.releaseS; split <;> rfl
@[simp] theorem State.releaseS_crucible : (s.releaseS l a d).crucible = s.crucible := by unfold State.releaseS; split <;> rfl
@[simp] theorem State.releaseS_tables : (s.releaseS l a d).tables = s.tables := by unfold State.releaseS; split <;> rfl
@[simp] theorem State.releaseS_watches : (s.releaseS l a d).watches = s.watches := by unfold State.releaseS; split <;> rfl
@[simp] theorem State.releaseS_draws : (s.releaseS l a d).draws = s.draws := by unfold State.releaseS; split <;> rfl
@[simp] theorem State.releaseS_calls : (s.releaseS l a d).calls = s.calls := by unfold State.releaseS; split <;> rfl
@[simp] theorem State.releaseS_events : (s.releaseS l a d).events = s.events := by unfold State.releaseS; split <;> rfl
@[simp] theorem State.releaseS_plat : (s.releaseS l a d).plat = s.plat := by unfold State.releaseS; split <;> rfl
end

section
variable (s : State) (l : Bool) (a : Reg)

@[simp] theorem State.releaseV0_agenda : (s.releaseV0 l a).agenda = s.agenda := by unfold State.releaseV0; split <;> rfl
@[simp] theorem State.releaseV0_stamp : (s.releaseV0 l a).stamp = s.stamp := by unfold State.releaseV0; split <;> rfl
@[simp] theorem State.releaseV0_nextId : (s.releaseV0 l a).nextId = s.nextId := by unfold State.releaseV0; split <;> rfl
@[simp] theorem State.releaseV0_ctx : (s.releaseV0 l a).ctx = s.ctx := by unfold State.releaseV0; split <;> rfl
@[simp] theorem State.releaseV0_clock : (s.releaseV0 l a).clock = s.clock := by unfold State.releaseV0; split <;> rfl
@[simp] theorem State.releaseV0_time : (s.releaseV0 l a).time = s.time := by unfold State.releaseV0; split <;> rfl
@[simp] theorem State.releaseV0_live : (s.releaseV0 l a).live = s.live := by unfold State.releaseV0; split <;> rfl
@[simp] theorem State.releaseV0_threads : (s.releaseV0 l a).threads = s.threads := by unfold State.releaseV0; split <;> rfl
@[simp] theorem State.releaseV0_groups : (s.releaseV0 l a).groups = s.groups := by unfold State.releaseV0; split <;> rfl
@[simp] theorem State.releaseV0_dispatches : (s.releaseV0 l a).dispatches = s.dispatches := by unfold State.releaseV0; split <;> rfl
@[simp] theorem State.releaseV0_regions : (s.releaseV0 l a).regions = s.regions := by unfold State.releaseV0; split <;> rfl
@[simp] theorem State.releaseV0_images : (s.releaseV0 l a).images = s.images := by unfold State.releaseV0; split <;> rfl
@[simp] theorem State.releaseV0_mem : (s.releaseV0 l a).mem = s.mem := by unfold State.releaseV0; split <;> rfl
@[simp] theorem State.releaseV0_poison : (s.releaseV0 l a).poison = s.poison := by unfold State.releaseV0; split <;> rfl
@[simp] theorem State.releaseV0_codes : (s.releaseV0 l a).codes = s.codes := by unfold State.releaseV0; split <;> rfl
@[simp] theorem State.releaseV0_stale : (s.releaseV0 l a).stale = s.stale := by unfold State.releaseV0; split <;> rfl
@[simp] theorem State.releaseV0_owners : (s.releaseV0 l a).owners = s.owners := by unfold State.releaseV0; split <;> rfl
@[simp] theorem State.releaseV0_l2 : (s.releaseV0 l a).l2 = s.l2 := by unfold State.releaseV0; split <;> rfl
@[simp] theorem State.releaseV0_wq : (s.releaseV0 l a).wq = s.wq := by unfold State.releaseV0; split <;> rfl
@[simp] theorem State.releaseV0_hold : (s.releaseV0 l a).hold = s.hold := by unfold State.releaseV0; split <;> rfl
@[simp] theorem State.releaseV0_rq : (s.releaseV0 l a).rq = s.rq := by unfold State.releaseV0; split <;> rfl
@[simp] theorem State.releaseV0_flights : (s.releaseV0 l a).flights = s.flights := by unfold State.releaseV0; split <;> rfl
@[simp] theorem State.releaseV0_faults : (s.releaseV0 l a).faults = s.faults := by unfold State.releaseV0; split <;> rfl
@[simp] theorem State.releaseV0_cores : (s.releaseV0 l a).cores = s.cores := by unfold State.releaseV0; split <;> rfl
@[simp] theorem State.releaseV0_clusters : (s.releaseV0 l a).clusters = s.clusters := by unfold State.releaseV0; split <;> rfl
@[simp] theorem State.releaseV0_nodeCache : (s.releaseV0 l a).nodeCache = s.nodeCache := by unfold State.releaseV0; split <;> rfl
@[simp] theorem State.releaseV0_slots : (s.releaseV0 l a).slots = s.slots := by unfold State.releaseV0; split <;> rfl
@[simp] theorem State.releaseV0_crucible : (s.releaseV0 l a).crucible = s.crucible := by unfold State.releaseV0; split <;> rfl
@[simp] theorem State.releaseV0_tables : (s.releaseV0 l a).tables = s.tables := by unfold State.releaseV0; split <;> rfl
@[simp] theorem State.releaseV0_watches : (s.releaseV0 l a).watches = s.watches := by unfold State.releaseV0; split <;> rfl
@[simp] theorem State.releaseV0_draws : (s.releaseV0 l a).draws = s.draws := by unfold State.releaseV0; split <;> rfl
@[simp] theorem State.releaseV0_calls : (s.releaseV0 l a).calls = s.calls := by unfold State.releaseV0; split <;> rfl
@[simp] theorem State.releaseV0_events : (s.releaseV0 l a).events = s.events := by unfold State.releaseV0; split <;> rfl
@[simp] theorem State.releaseV0_plat : (s.releaseV0 l a).plat = s.plat := by unfold State.releaseV0; split <;> rfl
end

section
variable (s : State) (k : TKey) (f : Thread → Thread)

@[simp] theorem State.modThread_agenda : (s.modThread k f).agenda = s.agenda := rfl
@[simp] theorem State.modThread_stamp : (s.modThread k f).stamp = s.stamp := rfl
@[simp] theorem State.modThread_nextId : (s.modThread k f).nextId = s.nextId := rfl
@[simp] theorem State.modThread_ctx : (s.modThread k f).ctx = s.ctx := rfl
@[simp] theorem State.modThread_clock : (s.modThread k f).clock = s.clock := rfl
@[simp] theorem State.modThread_time : (s.modThread k f).time = s.time := rfl
@[simp] theorem State.modThread_live : (s.modThread k f).live = s.live := rfl
@[simp] theorem State.modThread_groups : (s.modThread k f).groups = s.groups := rfl
@[simp] theorem State.modThread_dispatches : (s.modThread k f).dispatches = s.dispatches := rfl
@[simp] theorem State.modThread_regions : (s.modThread k f).regions = s.regions := rfl
@[simp] theorem State.modThread_images : (s.modThread k f).images = s.images := rfl
@[simp] theorem State.modThread_mem : (s.modThread k f).mem = s.mem := rfl
@[simp] theorem State.modThread_poison : (s.modThread k f).poison = s.poison := rfl
@[simp] theorem State.modThread_codes : (s.modThread k f).codes = s.codes := rfl
@[simp] theorem State.modThread_stale : (s.modThread k f).stale = s.stale := rfl
@[simp] theorem State.modThread_owners : (s.modThread k f).owners = s.owners := rfl
@[simp] theorem State.modThread_l2 : (s.modThread k f).l2 = s.l2 := rfl
@[simp] theorem State.modThread_wq : (s.modThread k f).wq = s.wq := rfl
@[simp] theorem State.modThread_hold : (s.modThread k f).hold = s.hold := rfl
@[simp] theorem State.modThread_rq : (s.modThread k f).rq = s.rq := rfl
@[simp] theorem State.modThread_flights : (s.modThread k f).flights = s.flights := rfl
@[simp] theorem State.modThread_faults : (s.modThread k f).faults = s.faults := rfl
@[simp] theorem State.modThread_cores : (s.modThread k f).cores = s.cores := rfl
@[simp] theorem State.modThread_clusters : (s.modThread k f).clusters = s.clusters := rfl
@[simp] theorem State.modThread_nodeCache : (s.modThread k f).nodeCache = s.nodeCache := rfl
@[simp] theorem State.modThread_slots : (s.modThread k f).slots = s.slots := rfl
@[simp] theorem State.modThread_crucible : (s.modThread k f).crucible = s.crucible := rfl
@[simp] theorem State.modThread_tables : (s.modThread k f).tables = s.tables := rfl
@[simp] theorem State.modThread_watches : (s.modThread k f).watches = s.watches := rfl
@[simp] theorem State.modThread_draws : (s.modThread k f).draws = s.draws := rfl
@[simp] theorem State.modThread_calls : (s.modThread k f).calls = s.calls := rfl
@[simp] theorem State.modThread_events : (s.modThread k f).events = s.events := rfl
@[simp] theorem State.modThread_plat : (s.modThread k f).plat = s.plat := rfl
end

section
variable (s : State) (n : Nat) (f : Workgroup → Workgroup)

@[simp] theorem State.modGroup_agenda : (s.modGroup n f).agenda = s.agenda := rfl
@[simp] theorem State.modGroup_stamp : (s.modGroup n f).stamp = s.stamp := rfl
@[simp] theorem State.modGroup_nextId : (s.modGroup n f).nextId = s.nextId := rfl
@[simp] theorem State.modGroup_ctx : (s.modGroup n f).ctx = s.ctx := rfl
@[simp] theorem State.modGroup_clock : (s.modGroup n f).clock = s.clock := rfl
@[simp] theorem State.modGroup_time : (s.modGroup n f).time = s.time := rfl
@[simp] theorem State.modGroup_thr : (s.modGroup n f).thr = s.thr := rfl
@[simp] theorem State.modGroup_live : (s.modGroup n f).live = s.live := rfl
@[simp] theorem State.modGroup_threads : (s.modGroup n f).threads = s.threads := rfl
@[simp] theorem State.modGroup_dispatches : (s.modGroup n f).dispatches = s.dispatches := rfl
@[simp] theorem State.modGroup_regions : (s.modGroup n f).regions = s.regions := rfl
@[simp] theorem State.modGroup_images : (s.modGroup n f).images = s.images := rfl
@[simp] theorem State.modGroup_mem : (s.modGroup n f).mem = s.mem := rfl
@[simp] theorem State.modGroup_poison : (s.modGroup n f).poison = s.poison := rfl
@[simp] theorem State.modGroup_codes : (s.modGroup n f).codes = s.codes := rfl
@[simp] theorem State.modGroup_stale : (s.modGroup n f).stale = s.stale := rfl
@[simp] theorem State.modGroup_owners : (s.modGroup n f).owners = s.owners := rfl
@[simp] theorem State.modGroup_l2 : (s.modGroup n f).l2 = s.l2 := rfl
@[simp] theorem State.modGroup_wq : (s.modGroup n f).wq = s.wq := rfl
@[simp] theorem State.modGroup_hold : (s.modGroup n f).hold = s.hold := rfl
@[simp] theorem State.modGroup_rq : (s.modGroup n f).rq = s.rq := rfl
@[simp] theorem State.modGroup_flights : (s.modGroup n f).flights = s.flights := rfl
@[simp] theorem State.modGroup_faults : (s.modGroup n f).faults = s.faults := rfl
@[simp] theorem State.modGroup_cores : (s.modGroup n f).cores = s.cores := rfl
@[simp] theorem State.modGroup_clusters : (s.modGroup n f).clusters = s.clusters := rfl
@[simp] theorem State.modGroup_nodeCache : (s.modGroup n f).nodeCache = s.nodeCache := rfl
@[simp] theorem State.modGroup_slots : (s.modGroup n f).slots = s.slots := rfl
@[simp] theorem State.modGroup_crucible : (s.modGroup n f).crucible = s.crucible := rfl
@[simp] theorem State.modGroup_tables : (s.modGroup n f).tables = s.tables := rfl
@[simp] theorem State.modGroup_watches : (s.modGroup n f).watches = s.watches := rfl
@[simp] theorem State.modGroup_draws : (s.modGroup n f).draws = s.draws := rfl
@[simp] theorem State.modGroup_calls : (s.modGroup n f).calls = s.calls := rfl
@[simp] theorem State.modGroup_events : (s.modGroup n f).events = s.events := rfl
@[simp] theorem State.modGroup_plat : (s.modGroup n f).plat = s.plat := rfl
end

section
variable (s : State) (n : Nat) (f : Dispatch → Dispatch)

@[simp] theorem State.modDispatch_agenda : (s.modDispatch n f).agenda = s.agenda := rfl
@[simp] theorem State.modDispatch_stamp : (s.modDispatch n f).stamp = s.stamp := rfl
@[simp] theorem State.modDispatch_nextId : (s.modDispatch n f).nextId = s.nextId := rfl
@[simp] theorem State.modDispatch_ctx : (s.modDispatch n f).ctx = s.ctx := rfl
@[simp] theorem State.modDispatch_clock : (s.modDispatch n f).clock = s.clock := rfl
@[simp] theorem State.modDispatch_time : (s.modDispatch n f).time = s.time := rfl
@[simp] theorem State.modDispatch_thr : (s.modDispatch n f).thr = s.thr := rfl
@[simp] theorem State.modDispatch_live : (s.modDispatch n f).live = s.live := rfl
@[simp] theorem State.modDispatch_threads : (s.modDispatch n f).threads = s.threads := rfl
@[simp] theorem State.modDispatch_groups : (s.modDispatch n f).groups = s.groups := rfl
@[simp] theorem State.modDispatch_regions : (s.modDispatch n f).regions = s.regions := rfl
@[simp] theorem State.modDispatch_images : (s.modDispatch n f).images = s.images := rfl
@[simp] theorem State.modDispatch_mem : (s.modDispatch n f).mem = s.mem := rfl
@[simp] theorem State.modDispatch_poison : (s.modDispatch n f).poison = s.poison := rfl
@[simp] theorem State.modDispatch_codes : (s.modDispatch n f).codes = s.codes := rfl
@[simp] theorem State.modDispatch_stale : (s.modDispatch n f).stale = s.stale := rfl
@[simp] theorem State.modDispatch_owners : (s.modDispatch n f).owners = s.owners := rfl
@[simp] theorem State.modDispatch_l2 : (s.modDispatch n f).l2 = s.l2 := rfl
@[simp] theorem State.modDispatch_wq : (s.modDispatch n f).wq = s.wq := rfl
@[simp] theorem State.modDispatch_hold : (s.modDispatch n f).hold = s.hold := rfl
@[simp] theorem State.modDispatch_rq : (s.modDispatch n f).rq = s.rq := rfl
@[simp] theorem State.modDispatch_flights : (s.modDispatch n f).flights = s.flights := rfl
@[simp] theorem State.modDispatch_faults : (s.modDispatch n f).faults = s.faults := rfl
@[simp] theorem State.modDispatch_cores : (s.modDispatch n f).cores = s.cores := rfl
@[simp] theorem State.modDispatch_clusters : (s.modDispatch n f).clusters = s.clusters := rfl
@[simp] theorem State.modDispatch_nodeCache : (s.modDispatch n f).nodeCache = s.nodeCache := rfl
@[simp] theorem State.modDispatch_slots : (s.modDispatch n f).slots = s.slots := rfl
@[simp] theorem State.modDispatch_crucible : (s.modDispatch n f).crucible = s.crucible := rfl
@[simp] theorem State.modDispatch_tables : (s.modDispatch n f).tables = s.tables := rfl
@[simp] theorem State.modDispatch_watches : (s.modDispatch n f).watches = s.watches := rfl
@[simp] theorem State.modDispatch_draws : (s.modDispatch n f).draws = s.draws := rfl
@[simp] theorem State.modDispatch_calls : (s.modDispatch n f).calls = s.calls := rfl
@[simp] theorem State.modDispatch_events : (s.modDispatch n f).events = s.events := rfl
@[simp] theorem State.modDispatch_plat : (s.modDispatch n f).plat = s.plat := rfl
end

section
variable (s : State) (n : Nat) (f : Region → Region)

@[simp] theorem State.modRegion_agenda : (s.modRegion n f).agenda = s.agenda := rfl
@[simp] theorem State.modRegion_stamp : (s.modRegion n f).stamp = s.stamp := rfl
@[simp] theorem State.modRegion_nextId : (s.modRegion n f).nextId = s.nextId := rfl
@[simp] theorem State.modRegion_ctx : (s.modRegion n f).ctx = s.ctx := rfl
@[simp] theorem State.modRegion_clock : (s.modRegion n f).clock = s.clock := rfl
@[simp] theorem State.modRegion_time : (s.modRegion n f).time = s.time := rfl
@[simp] theorem State.modRegion_thr : (s.modRegion n f).thr = s.thr := rfl
@[simp] theorem State.modRegion_live : (s.modRegion n f).live = s.live := rfl
@[simp] theorem State.modRegion_threads : (s.modRegion n f).threads = s.threads := rfl
@[simp] theorem State.modRegion_groups : (s.modRegion n f).groups = s.groups := rfl
@[simp] theorem State.modRegion_dispatches : (s.modRegion n f).dispatches = s.dispatches := rfl
@[simp] theorem State.modRegion_images : (s.modRegion n f).images = s.images := rfl
@[simp] theorem State.modRegion_mem : (s.modRegion n f).mem = s.mem := rfl
@[simp] theorem State.modRegion_poison : (s.modRegion n f).poison = s.poison := rfl
@[simp] theorem State.modRegion_codes : (s.modRegion n f).codes = s.codes := rfl
@[simp] theorem State.modRegion_stale : (s.modRegion n f).stale = s.stale := rfl
@[simp] theorem State.modRegion_owners : (s.modRegion n f).owners = s.owners := rfl
@[simp] theorem State.modRegion_l2 : (s.modRegion n f).l2 = s.l2 := rfl
@[simp] theorem State.modRegion_wq : (s.modRegion n f).wq = s.wq := rfl
@[simp] theorem State.modRegion_hold : (s.modRegion n f).hold = s.hold := rfl
@[simp] theorem State.modRegion_rq : (s.modRegion n f).rq = s.rq := rfl
@[simp] theorem State.modRegion_flights : (s.modRegion n f).flights = s.flights := rfl
@[simp] theorem State.modRegion_faults : (s.modRegion n f).faults = s.faults := rfl
@[simp] theorem State.modRegion_cores : (s.modRegion n f).cores = s.cores := rfl
@[simp] theorem State.modRegion_clusters : (s.modRegion n f).clusters = s.clusters := rfl
@[simp] theorem State.modRegion_nodeCache : (s.modRegion n f).nodeCache = s.nodeCache := rfl
@[simp] theorem State.modRegion_slots : (s.modRegion n f).slots = s.slots := rfl
@[simp] theorem State.modRegion_crucible : (s.modRegion n f).crucible = s.crucible := rfl
@[simp] theorem State.modRegion_tables : (s.modRegion n f).tables = s.tables := rfl
@[simp] theorem State.modRegion_watches : (s.modRegion n f).watches = s.watches := rfl
@[simp] theorem State.modRegion_draws : (s.modRegion n f).draws = s.draws := rfl
@[simp] theorem State.modRegion_calls : (s.modRegion n f).calls = s.calls := rfl
@[simp] theorem State.modRegion_events : (s.modRegion n f).events = s.events := rfl
@[simp] theorem State.modRegion_plat : (s.modRegion n f).plat = s.plat := rfl
end

section
variable (s : State) (f : Flight)

@[simp] theorem State.fly_agenda : (s.fly f).agenda = s.agenda := by unfold State.fly; split <;> rfl
@[simp] theorem State.fly_stamp : (s.fly f).stamp = s.stamp := by unfold State.fly; split <;> rfl
@[simp] theorem State.fly_ctx : (s.fly f).ctx = s.ctx := by unfold State.fly; split <;> rfl
@[simp] theorem State.fly_clock : (s.fly f).clock = s.clock := by unfold State.fly; split <;> rfl
@[simp] theorem State.fly_time : (s.fly f).time = s.time := by unfold State.fly; split <;> rfl
@[simp] theorem State.fly_thr : (s.fly f).thr = s.thr := by unfold State.fly; split <;> rfl
@[simp] theorem State.fly_live : (s.fly f).live = s.live := by unfold State.fly; split <;> rfl
@[simp] theorem State.fly_threads : (s.fly f).threads = s.threads := by unfold State.fly; split <;> rfl
@[simp] theorem State.fly_groups : (s.fly f).groups = s.groups := by unfold State.fly; split <;> rfl
@[simp] theorem State.fly_dispatches : (s.fly f).dispatches = s.dispatches := by unfold State.fly; split <;> rfl
@[simp] theorem State.fly_regions : (s.fly f).regions = s.regions := by unfold State.fly; split <;> rfl
@[simp] theorem State.fly_images : (s.fly f).images = s.images := by unfold State.fly; split <;> rfl
@[simp] theorem State.fly_mem : (s.fly f).mem = s.mem := by unfold State.fly; split <;> rfl
@[simp] theorem State.fly_poison : (s.fly f).poison = s.poison := by unfold State.fly; split <;> rfl
@[simp] theorem State.fly_codes : (s.fly f).codes = s.codes := by unfold State.fly; split <;> rfl
@[simp] theorem State.fly_stale : (s.fly f).stale = s.stale := by unfold State.fly; split <;> rfl
@[simp] theorem State.fly_owners : (s.fly f).owners = s.owners := by unfold State.fly; split <;> rfl
@[simp] theorem State.fly_l2 : (s.fly f).l2 = s.l2 := by unfold State.fly; split <;> rfl
@[simp] theorem State.fly_wq : (s.fly f).wq = s.wq := by unfold State.fly; split <;> rfl
@[simp] theorem State.fly_hold : (s.fly f).hold = s.hold := by unfold State.fly; split <;> rfl
@[simp] theorem State.fly_rq : (s.fly f).rq = s.rq := by unfold State.fly; split <;> rfl
@[simp] theorem State.fly_faults : (s.fly f).faults = s.faults := by unfold State.fly; split <;> rfl
@[simp] theorem State.fly_cores : (s.fly f).cores = s.cores := by unfold State.fly; split <;> rfl
@[simp] theorem State.fly_clusters : (s.fly f).clusters = s.clusters := by unfold State.fly; split <;> rfl
@[simp] theorem State.fly_nodeCache : (s.fly f).nodeCache = s.nodeCache := by unfold State.fly; split <;> rfl
@[simp] theorem State.fly_slots : (s.fly f).slots = s.slots := by unfold State.fly; split <;> rfl
@[simp] theorem State.fly_crucible : (s.fly f).crucible = s.crucible := by unfold State.fly; split <;> rfl
@[simp] theorem State.fly_tables : (s.fly f).tables = s.tables := by unfold State.fly; split <;> rfl
@[simp] theorem State.fly_watches : (s.fly f).watches = s.watches := by unfold State.fly; split <;> rfl
@[simp] theorem State.fly_draws : (s.fly f).draws = s.draws := by unfold State.fly; split <;> rfl
@[simp] theorem State.fly_calls : (s.fly f).calls = s.calls := by unfold State.fly; split <;> rfl
@[simp] theorem State.fly_events : (s.fly f).events = s.events := by unfold State.fly; split <;> rfl
@[simp] theorem State.fly_plat : (s.fly f).plat = s.plat := by unfold State.fly; split <;> rfl
end

section
variable (s : State) (n : Nat) (f : Flight → Flight)

@[simp] theorem State.modFlight_agenda : (s.modFlight n f).agenda = s.agenda := rfl
@[simp] theorem State.modFlight_stamp : (s.modFlight n f).stamp = s.stamp := rfl
@[simp] theorem State.modFlight_nextId : (s.modFlight n f).nextId = s.nextId := rfl
@[simp] theorem State.modFlight_ctx : (s.modFlight n f).ctx = s.ctx := rfl
@[simp] theorem State.modFlight_clock : (s.modFlight n f).clock = s.clock := rfl
@[simp] theorem State.modFlight_time : (s.modFlight n f).time = s.time := rfl
@[simp] theorem State.modFlight_thr : (s.modFlight n f).thr = s.thr := rfl
@[simp] theorem State.modFlight_live : (s.modFlight n f).live = s.live := rfl
@[simp] theorem State.modFlight_threads : (s.modFlight n f).threads = s.threads := rfl
@[simp] theorem State.modFlight_groups : (s.modFlight n f).groups = s.groups := rfl
@[simp] theorem State.modFlight_dispatches : (s.modFlight n f).dispatches = s.dispatches := rfl
@[simp] theorem State.modFlight_regions : (s.modFlight n f).regions = s.regions := rfl
@[simp] theorem State.modFlight_images : (s.modFlight n f).images = s.images := rfl
@[simp] theorem State.modFlight_mem : (s.modFlight n f).mem = s.mem := rfl
@[simp] theorem State.modFlight_poison : (s.modFlight n f).poison = s.poison := rfl
@[simp] theorem State.modFlight_codes : (s.modFlight n f).codes = s.codes := rfl
@[simp] theorem State.modFlight_stale : (s.modFlight n f).stale = s.stale := rfl
@[simp] theorem State.modFlight_owners : (s.modFlight n f).owners = s.owners := rfl
@[simp] theorem State.modFlight_l2 : (s.modFlight n f).l2 = s.l2 := rfl
@[simp] theorem State.modFlight_wq : (s.modFlight n f).wq = s.wq := rfl
@[simp] theorem State.modFlight_hold : (s.modFlight n f).hold = s.hold := rfl
@[simp] theorem State.modFlight_rq : (s.modFlight n f).rq = s.rq := rfl
@[simp] theorem State.modFlight_faults : (s.modFlight n f).faults = s.faults := rfl
@[simp] theorem State.modFlight_cores : (s.modFlight n f).cores = s.cores := rfl
@[simp] theorem State.modFlight_clusters : (s.modFlight n f).clusters = s.clusters := rfl
@[simp] theorem State.modFlight_nodeCache : (s.modFlight n f).nodeCache = s.nodeCache := rfl
@[simp] theorem State.modFlight_slots : (s.modFlight n f).slots = s.slots := rfl
@[simp] theorem State.modFlight_crucible : (s.modFlight n f).crucible = s.crucible := rfl
@[simp] theorem State.modFlight_tables : (s.modFlight n f).tables = s.tables := rfl
@[simp] theorem State.modFlight_watches : (s.modFlight n f).watches = s.watches := rfl
@[simp] theorem State.modFlight_draws : (s.modFlight n f).draws = s.draws := rfl
@[simp] theorem State.modFlight_calls : (s.modFlight n f).calls = s.calls := rfl
@[simp] theorem State.modFlight_events : (s.modFlight n f).events = s.events := rfl
@[simp] theorem State.modFlight_plat : (s.modFlight n f).plat = s.plat := rfl
end

section
variable (s : State)

@[simp] theorem State.sweepFlights_agenda : (s.sweepFlights).agenda = s.agenda := rfl
@[simp] theorem State.sweepFlights_stamp : (s.sweepFlights).stamp = s.stamp := rfl
@[simp] theorem State.sweepFlights_nextId : (s.sweepFlights).nextId = s.nextId := rfl
@[simp] theorem State.sweepFlights_ctx : (s.sweepFlights).ctx = s.ctx := rfl
@[simp] theorem State.sweepFlights_clock : (s.sweepFlights).clock = s.clock := rfl
@[simp] theorem State.sweepFlights_time : (s.sweepFlights).time = s.time := rfl
@[simp] theorem State.sweepFlights_thr : (s.sweepFlights).thr = s.thr := rfl
@[simp] theorem State.sweepFlights_live : (s.sweepFlights).live = s.live := rfl
@[simp] theorem State.sweepFlights_threads : (s.sweepFlights).threads = s.threads := rfl
@[simp] theorem State.sweepFlights_groups : (s.sweepFlights).groups = s.groups := rfl
@[simp] theorem State.sweepFlights_dispatches : (s.sweepFlights).dispatches = s.dispatches := rfl
@[simp] theorem State.sweepFlights_regions : (s.sweepFlights).regions = s.regions := rfl
@[simp] theorem State.sweepFlights_images : (s.sweepFlights).images = s.images := rfl
@[simp] theorem State.sweepFlights_mem : (s.sweepFlights).mem = s.mem := rfl
@[simp] theorem State.sweepFlights_poison : (s.sweepFlights).poison = s.poison := rfl
@[simp] theorem State.sweepFlights_codes : (s.sweepFlights).codes = s.codes := rfl
@[simp] theorem State.sweepFlights_stale : (s.sweepFlights).stale = s.stale := rfl
@[simp] theorem State.sweepFlights_owners : (s.sweepFlights).owners = s.owners := rfl
@[simp] theorem State.sweepFlights_l2 : (s.sweepFlights).l2 = s.l2 := rfl
@[simp] theorem State.sweepFlights_wq : (s.sweepFlights).wq = s.wq := rfl
@[simp] theorem State.sweepFlights_hold : (s.sweepFlights).hold = s.hold := rfl
@[simp] theorem State.sweepFlights_rq : (s.sweepFlights).rq = s.rq := rfl
@[simp] theorem State.sweepFlights_faults : (s.sweepFlights).faults = s.faults := rfl
@[simp] theorem State.sweepFlights_cores : (s.sweepFlights).cores = s.cores := rfl
@[simp] theorem State.sweepFlights_clusters : (s.sweepFlights).clusters = s.clusters := rfl
@[simp] theorem State.sweepFlights_nodeCache : (s.sweepFlights).nodeCache = s.nodeCache := rfl
@[simp] theorem State.sweepFlights_slots : (s.sweepFlights).slots = s.slots := rfl
@[simp] theorem State.sweepFlights_crucible : (s.sweepFlights).crucible = s.crucible := rfl
@[simp] theorem State.sweepFlights_tables : (s.sweepFlights).tables = s.tables := rfl
@[simp] theorem State.sweepFlights_watches : (s.sweepFlights).watches = s.watches := rfl
@[simp] theorem State.sweepFlights_draws : (s.sweepFlights).draws = s.draws := rfl
@[simp] theorem State.sweepFlights_calls : (s.sweepFlights).calls = s.calls := rfl
@[simp] theorem State.sweepFlights_events : (s.sweepFlights).events = s.events := rfl
@[simp] theorem State.sweepFlights_plat : (s.sweepFlights).plat = s.plat := rfl
end

section
variable (s : State) (p : ParkedWord)

@[simp] theorem State.parkAt_agenda : (s.parkAt p).agenda = s.agenda := s.setSplit_agenda _
@[simp] theorem State.parkAt_stamp : (s.parkAt p).stamp = s.stamp := s.setSplit_stamp _
@[simp] theorem State.parkAt_clock : (s.parkAt p).clock = s.clock := s.setSplit_clock _
@[simp] theorem State.parkAt_time : (s.parkAt p).time = s.time := s.setSplit_time _
@[simp] theorem State.parkAt_live : (s.parkAt p).live = s.live := s.setSplit_live _
@[simp] theorem State.parkAt_threads : (s.parkAt p).threads = s.threads := s.setSplit_threads _
@[simp] theorem State.parkAt_groups : (s.parkAt p).groups = s.groups := s.setSplit_groups _
@[simp] theorem State.parkAt_dispatches : (s.parkAt p).dispatches = s.dispatches := s.setSplit_dispatches _
@[simp] theorem State.parkAt_regions : (s.parkAt p).regions = s.regions := s.setSplit_regions _
@[simp] theorem State.parkAt_images : (s.parkAt p).images = s.images := s.setSplit_images _
@[simp] theorem State.parkAt_mem : (s.parkAt p).mem = s.mem := s.setSplit_mem _
@[simp] theorem State.parkAt_poison : (s.parkAt p).poison = s.poison := s.setSplit_poison _
@[simp] theorem State.parkAt_codes : (s.parkAt p).codes = s.codes := s.setSplit_codes _
@[simp] theorem State.parkAt_stale : (s.parkAt p).stale = s.stale := s.setSplit_stale _
@[simp] theorem State.parkAt_owners : (s.parkAt p).owners = s.owners := s.setSplit_owners _
@[simp] theorem State.parkAt_l2 : (s.parkAt p).l2 = s.l2 := s.setSplit_l2 _
@[simp] theorem State.parkAt_wq : (s.parkAt p).wq = s.wq := s.setSplit_wq _
@[simp] theorem State.parkAt_hold : (s.parkAt p).hold = s.hold := s.setSplit_hold _
@[simp] theorem State.parkAt_rq : (s.parkAt p).rq = s.rq := s.setSplit_rq _
@[simp] theorem State.parkAt_flights : (s.parkAt p).flights = s.flights := s.setSplit_flights _
@[simp] theorem State.parkAt_faults : (s.parkAt p).faults = s.faults := s.setSplit_faults _
@[simp] theorem State.parkAt_cores : (s.parkAt p).cores = s.cores := s.setSplit_cores _
@[simp] theorem State.parkAt_clusters : (s.parkAt p).clusters = s.clusters := s.setSplit_clusters _
@[simp] theorem State.parkAt_nodeCache : (s.parkAt p).nodeCache = s.nodeCache := s.setSplit_nodeCache _
@[simp] theorem State.parkAt_slots : (s.parkAt p).slots = s.slots := s.setSplit_slots _
@[simp] theorem State.parkAt_crucible : (s.parkAt p).crucible = s.crucible := s.setSplit_crucible _
@[simp] theorem State.parkAt_tables : (s.parkAt p).tables = s.tables := s.setSplit_tables _
@[simp] theorem State.parkAt_watches : (s.parkAt p).watches = s.watches := s.setSplit_watches _
@[simp] theorem State.parkAt_draws : (s.parkAt p).draws = s.draws := s.setSplit_draws _
@[simp] theorem State.parkAt_calls : (s.parkAt p).calls = s.calls := s.setSplit_calls _
@[simp] theorem State.parkAt_events : (s.parkAt p).events = s.events := s.setSplit_events _
@[simp] theorem State.parkAt_plat : (s.parkAt p).plat = s.plat := s.setSplit_plat _
end

section
variable (s : State) (w : Wait)

@[simp] theorem State.waitFor_agenda : (s.waitFor w).agenda = s.agenda := s.setSplit_agenda _
@[simp] theorem State.waitFor_stamp : (s.waitFor w).stamp = s.stamp := s.setSplit_stamp _
@[simp] theorem State.waitFor_nextId : (s.waitFor w).nextId = s.nextId := s.setSplit_nextId _
@[simp] theorem State.waitFor_clock : (s.waitFor w).clock = s.clock := s.setSplit_clock _
@[simp] theorem State.waitFor_time : (s.waitFor w).time = s.time := s.setSplit_time _
@[simp] theorem State.waitFor_live : (s.waitFor w).live = s.live := s.setSplit_live _
@[simp] theorem State.waitFor_threads : (s.waitFor w).threads = s.threads := s.setSplit_threads _
@[simp] theorem State.waitFor_groups : (s.waitFor w).groups = s.groups := s.setSplit_groups _
@[simp] theorem State.waitFor_dispatches : (s.waitFor w).dispatches = s.dispatches := s.setSplit_dispatches _
@[simp] theorem State.waitFor_regions : (s.waitFor w).regions = s.regions := s.setSplit_regions _
@[simp] theorem State.waitFor_images : (s.waitFor w).images = s.images := s.setSplit_images _
@[simp] theorem State.waitFor_mem : (s.waitFor w).mem = s.mem := s.setSplit_mem _
@[simp] theorem State.waitFor_poison : (s.waitFor w).poison = s.poison := s.setSplit_poison _
@[simp] theorem State.waitFor_codes : (s.waitFor w).codes = s.codes := s.setSplit_codes _
@[simp] theorem State.waitFor_stale : (s.waitFor w).stale = s.stale := s.setSplit_stale _
@[simp] theorem State.waitFor_owners : (s.waitFor w).owners = s.owners := s.setSplit_owners _
@[simp] theorem State.waitFor_l2 : (s.waitFor w).l2 = s.l2 := s.setSplit_l2 _
@[simp] theorem State.waitFor_wq : (s.waitFor w).wq = s.wq := s.setSplit_wq _
@[simp] theorem State.waitFor_hold : (s.waitFor w).hold = s.hold := s.setSplit_hold _
@[simp] theorem State.waitFor_rq : (s.waitFor w).rq = s.rq := s.setSplit_rq _
@[simp] theorem State.waitFor_flights : (s.waitFor w).flights = s.flights := s.setSplit_flights _
@[simp] theorem State.waitFor_faults : (s.waitFor w).faults = s.faults := s.setSplit_faults _
@[simp] theorem State.waitFor_cores : (s.waitFor w).cores = s.cores := s.setSplit_cores _
@[simp] theorem State.waitFor_clusters : (s.waitFor w).clusters = s.clusters := s.setSplit_clusters _
@[simp] theorem State.waitFor_nodeCache : (s.waitFor w).nodeCache = s.nodeCache := s.setSplit_nodeCache _
@[simp] theorem State.waitFor_slots : (s.waitFor w).slots = s.slots := s.setSplit_slots _
@[simp] theorem State.waitFor_crucible : (s.waitFor w).crucible = s.crucible := s.setSplit_crucible _
@[simp] theorem State.waitFor_tables : (s.waitFor w).tables = s.tables := s.setSplit_tables _
@[simp] theorem State.waitFor_watches : (s.waitFor w).watches = s.watches := s.setSplit_watches _
@[simp] theorem State.waitFor_draws : (s.waitFor w).draws = s.draws := s.setSplit_draws _
@[simp] theorem State.waitFor_calls : (s.waitFor w).calls = s.calls := s.setSplit_calls _
@[simp] theorem State.waitFor_events : (s.waitFor w).events = s.events := s.setSplit_events _
@[simp] theorem State.waitFor_plat : (s.waitFor w).plat = s.plat := s.setSplit_plat _
end

section
variable (s : State) (p : Word)

@[simp] theorem State.transfer_agenda : (s.transfer p).agenda = s.agenda := s.setSplit_agenda _
@[simp] theorem State.transfer_stamp : (s.transfer p).stamp = s.stamp := s.setSplit_stamp _
@[simp] theorem State.transfer_nextId : (s.transfer p).nextId = s.nextId := s.setSplit_nextId _
@[simp] theorem State.transfer_ctx : (s.transfer p).ctx = s.ctx := s.setSplit_ctx _
@[simp] theorem State.transfer_clock : (s.transfer p).clock = s.clock := s.setSplit_clock _
@[simp] theorem State.transfer_time : (s.transfer p).time = s.time := s.setSplit_time _
@[simp] theorem State.transfer_live : (s.transfer p).live = s.live := s.setSplit_live _
@[simp] theorem State.transfer_threads : (s.transfer p).threads = s.threads := s.setSplit_threads _
@[simp] theorem State.transfer_groups : (s.transfer p).groups = s.groups := s.setSplit_groups _
@[simp] theorem State.transfer_dispatches : (s.transfer p).dispatches = s.dispatches := s.setSplit_dispatches _
@[simp] theorem State.transfer_regions : (s.transfer p).regions = s.regions := s.setSplit_regions _
@[simp] theorem State.transfer_images : (s.transfer p).images = s.images := s.setSplit_images _
@[simp] theorem State.transfer_mem : (s.transfer p).mem = s.mem := s.setSplit_mem _
@[simp] theorem State.transfer_poison : (s.transfer p).poison = s.poison := s.setSplit_poison _
@[simp] theorem State.transfer_codes : (s.transfer p).codes = s.codes := s.setSplit_codes _
@[simp] theorem State.transfer_stale : (s.transfer p).stale = s.stale := s.setSplit_stale _
@[simp] theorem State.transfer_owners : (s.transfer p).owners = s.owners := s.setSplit_owners _
@[simp] theorem State.transfer_l2 : (s.transfer p).l2 = s.l2 := s.setSplit_l2 _
@[simp] theorem State.transfer_wq : (s.transfer p).wq = s.wq := s.setSplit_wq _
@[simp] theorem State.transfer_hold : (s.transfer p).hold = s.hold := s.setSplit_hold _
@[simp] theorem State.transfer_rq : (s.transfer p).rq = s.rq := s.setSplit_rq _
@[simp] theorem State.transfer_flights : (s.transfer p).flights = s.flights := s.setSplit_flights _
@[simp] theorem State.transfer_faults : (s.transfer p).faults = s.faults := s.setSplit_faults _
@[simp] theorem State.transfer_cores : (s.transfer p).cores = s.cores := s.setSplit_cores _
@[simp] theorem State.transfer_clusters : (s.transfer p).clusters = s.clusters := s.setSplit_clusters _
@[simp] theorem State.transfer_nodeCache : (s.transfer p).nodeCache = s.nodeCache := s.setSplit_nodeCache _
@[simp] theorem State.transfer_slots : (s.transfer p).slots = s.slots := s.setSplit_slots _
@[simp] theorem State.transfer_crucible : (s.transfer p).crucible = s.crucible := s.setSplit_crucible _
@[simp] theorem State.transfer_tables : (s.transfer p).tables = s.tables := s.setSplit_tables _
@[simp] theorem State.transfer_watches : (s.transfer p).watches = s.watches := s.setSplit_watches _
@[simp] theorem State.transfer_draws : (s.transfer p).draws = s.draws := s.setSplit_draws _
@[simp] theorem State.transfer_calls : (s.transfer p).calls = s.calls := s.setSplit_calls _
@[simp] theorem State.transfer_events : (s.transfer p).events = s.events := s.setSplit_events _
@[simp] theorem State.transfer_plat : (s.transfer p).plat = s.plat := s.setSplit_plat _
end

section
variable (s : State) (k : Nat) (bs : List (Nat × Byte))

@[simp] theorem State.homeWriteSector_agenda : (s.homeWriteSector k bs).agenda = s.agenda := rfl
@[simp] theorem State.homeWriteSector_stamp : (s.homeWriteSector k bs).stamp = s.stamp := rfl
@[simp] theorem State.homeWriteSector_nextId : (s.homeWriteSector k bs).nextId = s.nextId := rfl
@[simp] theorem State.homeWriteSector_ctx : (s.homeWriteSector k bs).ctx = s.ctx := rfl
@[simp] theorem State.homeWriteSector_clock : (s.homeWriteSector k bs).clock = s.clock := rfl
@[simp] theorem State.homeWriteSector_time : (s.homeWriteSector k bs).time = s.time := rfl
@[simp] theorem State.homeWriteSector_thr : (s.homeWriteSector k bs).thr = s.thr := rfl
@[simp] theorem State.homeWriteSector_live : (s.homeWriteSector k bs).live = s.live := rfl
@[simp] theorem State.homeWriteSector_threads : (s.homeWriteSector k bs).threads = s.threads := rfl
@[simp] theorem State.homeWriteSector_groups : (s.homeWriteSector k bs).groups = s.groups := rfl
@[simp] theorem State.homeWriteSector_dispatches : (s.homeWriteSector k bs).dispatches = s.dispatches := rfl
@[simp] theorem State.homeWriteSector_regions : (s.homeWriteSector k bs).regions = s.regions := rfl
@[simp] theorem State.homeWriteSector_images : (s.homeWriteSector k bs).images = s.images := rfl
@[simp] theorem State.homeWriteSector_owners : (s.homeWriteSector k bs).owners = s.owners := rfl
@[simp] theorem State.homeWriteSector_l2 : (s.homeWriteSector k bs).l2 = s.l2 := rfl
@[simp] theorem State.homeWriteSector_wq : (s.homeWriteSector k bs).wq = s.wq := rfl
@[simp] theorem State.homeWriteSector_hold : (s.homeWriteSector k bs).hold = s.hold := rfl
@[simp] theorem State.homeWriteSector_rq : (s.homeWriteSector k bs).rq = s.rq := rfl
@[simp] theorem State.homeWriteSector_flights : (s.homeWriteSector k bs).flights = s.flights := rfl
@[simp] theorem State.homeWriteSector_faults : (s.homeWriteSector k bs).faults = s.faults := rfl
@[simp] theorem State.homeWriteSector_cores : (s.homeWriteSector k bs).cores = s.cores := rfl
@[simp] theorem State.homeWriteSector_clusters : (s.homeWriteSector k bs).clusters = s.clusters := rfl
@[simp] theorem State.homeWriteSector_nodeCache : (s.homeWriteSector k bs).nodeCache = s.nodeCache := rfl
@[simp] theorem State.homeWriteSector_slots : (s.homeWriteSector k bs).slots = s.slots := rfl
@[simp] theorem State.homeWriteSector_crucible : (s.homeWriteSector k bs).crucible = s.crucible := rfl
@[simp] theorem State.homeWriteSector_tables : (s.homeWriteSector k bs).tables = s.tables := rfl
@[simp] theorem State.homeWriteSector_watches : (s.homeWriteSector k bs).watches = s.watches := rfl
@[simp] theorem State.homeWriteSector_draws : (s.homeWriteSector k bs).draws = s.draws := rfl
@[simp] theorem State.homeWriteSector_calls : (s.homeWriteSector k bs).calls = s.calls := rfl
@[simp] theorem State.homeWriteSector_events : (s.homeWriteSector k bs).events = s.events := rfl
@[simp] theorem State.homeWriteSector_plat : (s.homeWriteSector k bs).plat = s.plat := rfl
end

section
variable (s : State) (a : Nat) (bs : List Byte)

@[simp] theorem State.homeWrite_agenda : (s.homeWrite a bs).agenda = s.agenda := rfl
@[simp] theorem State.homeWrite_stamp : (s.homeWrite a bs).stamp = s.stamp := rfl
@[simp] theorem State.homeWrite_nextId : (s.homeWrite a bs).nextId = s.nextId := rfl
@[simp] theorem State.homeWrite_ctx : (s.homeWrite a bs).ctx = s.ctx := rfl
@[simp] theorem State.homeWrite_clock : (s.homeWrite a bs).clock = s.clock := rfl
@[simp] theorem State.homeWrite_time : (s.homeWrite a bs).time = s.time := rfl
@[simp] theorem State.homeWrite_thr : (s.homeWrite a bs).thr = s.thr := rfl
@[simp] theorem State.homeWrite_live : (s.homeWrite a bs).live = s.live := rfl
@[simp] theorem State.homeWrite_threads : (s.homeWrite a bs).threads = s.threads := rfl
@[simp] theorem State.homeWrite_groups : (s.homeWrite a bs).groups = s.groups := rfl
@[simp] theorem State.homeWrite_dispatches : (s.homeWrite a bs).dispatches = s.dispatches := rfl
@[simp] theorem State.homeWrite_regions : (s.homeWrite a bs).regions = s.regions := rfl
@[simp] theorem State.homeWrite_images : (s.homeWrite a bs).images = s.images := rfl
@[simp] theorem State.homeWrite_owners : (s.homeWrite a bs).owners = s.owners := rfl
@[simp] theorem State.homeWrite_l2 : (s.homeWrite a bs).l2 = s.l2 := rfl
@[simp] theorem State.homeWrite_wq : (s.homeWrite a bs).wq = s.wq := rfl
@[simp] theorem State.homeWrite_hold : (s.homeWrite a bs).hold = s.hold := rfl
@[simp] theorem State.homeWrite_rq : (s.homeWrite a bs).rq = s.rq := rfl
@[simp] theorem State.homeWrite_flights : (s.homeWrite a bs).flights = s.flights := rfl
@[simp] theorem State.homeWrite_faults : (s.homeWrite a bs).faults = s.faults := rfl
@[simp] theorem State.homeWrite_cores : (s.homeWrite a bs).cores = s.cores := rfl
@[simp] theorem State.homeWrite_clusters : (s.homeWrite a bs).clusters = s.clusters := rfl
@[simp] theorem State.homeWrite_nodeCache : (s.homeWrite a bs).nodeCache = s.nodeCache := rfl
@[simp] theorem State.homeWrite_slots : (s.homeWrite a bs).slots = s.slots := rfl
@[simp] theorem State.homeWrite_crucible : (s.homeWrite a bs).crucible = s.crucible := rfl
@[simp] theorem State.homeWrite_tables : (s.homeWrite a bs).tables = s.tables := rfl
@[simp] theorem State.homeWrite_watches : (s.homeWrite a bs).watches = s.watches := rfl
@[simp] theorem State.homeWrite_draws : (s.homeWrite a bs).draws = s.draws := rfl
@[simp] theorem State.homeWrite_calls : (s.homeWrite a bs).calls = s.calls := rfl
@[simp] theorem State.homeWrite_events : (s.homeWrite a bs).events = s.events := rfl
@[simp] theorem State.homeWrite_plat : (s.homeWrite a bs).plat = s.plat := rfl
end

section
variable (s : State) (w : Nat) (c : Option Nat)

@[simp] theorem State.setOwner_agenda : (s.setOwner w c).agenda = s.agenda := rfl
@[simp] theorem State.setOwner_stamp : (s.setOwner w c).stamp = s.stamp := rfl
@[simp] theorem State.setOwner_nextId : (s.setOwner w c).nextId = s.nextId := rfl
@[simp] theorem State.setOwner_ctx : (s.setOwner w c).ctx = s.ctx := rfl
@[simp] theorem State.setOwner_clock : (s.setOwner w c).clock = s.clock := rfl
@[simp] theorem State.setOwner_time : (s.setOwner w c).time = s.time := rfl
@[simp] theorem State.setOwner_thr : (s.setOwner w c).thr = s.thr := rfl
@[simp] theorem State.setOwner_live : (s.setOwner w c).live = s.live := rfl
@[simp] theorem State.setOwner_threads : (s.setOwner w c).threads = s.threads := rfl
@[simp] theorem State.setOwner_groups : (s.setOwner w c).groups = s.groups := rfl
@[simp] theorem State.setOwner_dispatches : (s.setOwner w c).dispatches = s.dispatches := rfl
@[simp] theorem State.setOwner_regions : (s.setOwner w c).regions = s.regions := rfl
@[simp] theorem State.setOwner_images : (s.setOwner w c).images = s.images := rfl
@[simp] theorem State.setOwner_mem : (s.setOwner w c).mem = s.mem := rfl
@[simp] theorem State.setOwner_poison : (s.setOwner w c).poison = s.poison := rfl
@[simp] theorem State.setOwner_codes : (s.setOwner w c).codes = s.codes := rfl
@[simp] theorem State.setOwner_stale : (s.setOwner w c).stale = s.stale := rfl
@[simp] theorem State.setOwner_l2 : (s.setOwner w c).l2 = s.l2 := rfl
@[simp] theorem State.setOwner_wq : (s.setOwner w c).wq = s.wq := rfl
@[simp] theorem State.setOwner_hold : (s.setOwner w c).hold = s.hold := rfl
@[simp] theorem State.setOwner_rq : (s.setOwner w c).rq = s.rq := rfl
@[simp] theorem State.setOwner_flights : (s.setOwner w c).flights = s.flights := rfl
@[simp] theorem State.setOwner_faults : (s.setOwner w c).faults = s.faults := rfl
@[simp] theorem State.setOwner_cores : (s.setOwner w c).cores = s.cores := rfl
@[simp] theorem State.setOwner_clusters : (s.setOwner w c).clusters = s.clusters := rfl
@[simp] theorem State.setOwner_nodeCache : (s.setOwner w c).nodeCache = s.nodeCache := rfl
@[simp] theorem State.setOwner_slots : (s.setOwner w c).slots = s.slots := rfl
@[simp] theorem State.setOwner_crucible : (s.setOwner w c).crucible = s.crucible := rfl
@[simp] theorem State.setOwner_tables : (s.setOwner w c).tables = s.tables := rfl
@[simp] theorem State.setOwner_watches : (s.setOwner w c).watches = s.watches := rfl
@[simp] theorem State.setOwner_draws : (s.setOwner w c).draws = s.draws := rfl
@[simp] theorem State.setOwner_calls : (s.setOwner w c).calls = s.calls := rfl
@[simp] theorem State.setOwner_events : (s.setOwner w c).events = s.events := rfl
@[simp] theorem State.setOwner_plat : (s.setOwner w c).plat = s.plat := rfl
end

section
variable (s : State) (c : Cluster)

@[simp] theorem State.setCluster_agenda : (s.setCluster c).agenda = s.agenda := rfl
@[simp] theorem State.setCluster_stamp : (s.setCluster c).stamp = s.stamp := rfl
@[simp] theorem State.setCluster_nextId : (s.setCluster c).nextId = s.nextId := rfl
@[simp] theorem State.setCluster_ctx : (s.setCluster c).ctx = s.ctx := rfl
@[simp] theorem State.setCluster_clock : (s.setCluster c).clock = s.clock := rfl
@[simp] theorem State.setCluster_time : (s.setCluster c).time = s.time := rfl
@[simp] theorem State.setCluster_thr : (s.setCluster c).thr = s.thr := rfl
@[simp] theorem State.setCluster_live : (s.setCluster c).live = s.live := rfl
@[simp] theorem State.setCluster_threads : (s.setCluster c).threads = s.threads := rfl
@[simp] theorem State.setCluster_groups : (s.setCluster c).groups = s.groups := rfl
@[simp] theorem State.setCluster_dispatches : (s.setCluster c).dispatches = s.dispatches := rfl
@[simp] theorem State.setCluster_regions : (s.setCluster c).regions = s.regions := rfl
@[simp] theorem State.setCluster_images : (s.setCluster c).images = s.images := rfl
@[simp] theorem State.setCluster_mem : (s.setCluster c).mem = s.mem := rfl
@[simp] theorem State.setCluster_poison : (s.setCluster c).poison = s.poison := rfl
@[simp] theorem State.setCluster_codes : (s.setCluster c).codes = s.codes := rfl
@[simp] theorem State.setCluster_stale : (s.setCluster c).stale = s.stale := rfl
@[simp] theorem State.setCluster_owners : (s.setCluster c).owners = s.owners := rfl
@[simp] theorem State.setCluster_l2 : (s.setCluster c).l2 = s.l2 := rfl
@[simp] theorem State.setCluster_wq : (s.setCluster c).wq = s.wq := rfl
@[simp] theorem State.setCluster_hold : (s.setCluster c).hold = s.hold := rfl
@[simp] theorem State.setCluster_rq : (s.setCluster c).rq = s.rq := rfl
@[simp] theorem State.setCluster_flights : (s.setCluster c).flights = s.flights := rfl
@[simp] theorem State.setCluster_faults : (s.setCluster c).faults = s.faults := rfl
@[simp] theorem State.setCluster_cores : (s.setCluster c).cores = s.cores := rfl
@[simp] theorem State.setCluster_nodeCache : (s.setCluster c).nodeCache = s.nodeCache := rfl
@[simp] theorem State.setCluster_slots : (s.setCluster c).slots = s.slots := rfl
@[simp] theorem State.setCluster_crucible : (s.setCluster c).crucible = s.crucible := rfl
@[simp] theorem State.setCluster_tables : (s.setCluster c).tables = s.tables := rfl
@[simp] theorem State.setCluster_watches : (s.setCluster c).watches = s.watches := rfl
@[simp] theorem State.setCluster_draws : (s.setCluster c).draws = s.draws := rfl
@[simp] theorem State.setCluster_calls : (s.setCluster c).calls = s.calls := rfl
@[simp] theorem State.setCluster_events : (s.setCluster c).events = s.events := rfl
@[simp] theorem State.setCluster_plat : (s.setCluster c).plat = s.plat := rfl
end

section
variable (s : State) (n : Nat) (f : Cluster → Cluster)

@[simp] theorem State.modCluster_agenda : (s.modCluster n f).agenda = s.agenda := rfl
@[simp] theorem State.modCluster_stamp : (s.modCluster n f).stamp = s.stamp := rfl
@[simp] theorem State.modCluster_nextId : (s.modCluster n f).nextId = s.nextId := rfl
@[simp] theorem State.modCluster_ctx : (s.modCluster n f).ctx = s.ctx := rfl
@[simp] theorem State.modCluster_clock : (s.modCluster n f).clock = s.clock := rfl
@[simp] theorem State.modCluster_time : (s.modCluster n f).time = s.time := rfl
@[simp] theorem State.modCluster_thr : (s.modCluster n f).thr = s.thr := rfl
@[simp] theorem State.modCluster_live : (s.modCluster n f).live = s.live := rfl
@[simp] theorem State.modCluster_threads : (s.modCluster n f).threads = s.threads := rfl
@[simp] theorem State.modCluster_groups : (s.modCluster n f).groups = s.groups := rfl
@[simp] theorem State.modCluster_dispatches : (s.modCluster n f).dispatches = s.dispatches := rfl
@[simp] theorem State.modCluster_regions : (s.modCluster n f).regions = s.regions := rfl
@[simp] theorem State.modCluster_images : (s.modCluster n f).images = s.images := rfl
@[simp] theorem State.modCluster_mem : (s.modCluster n f).mem = s.mem := rfl
@[simp] theorem State.modCluster_poison : (s.modCluster n f).poison = s.poison := rfl
@[simp] theorem State.modCluster_codes : (s.modCluster n f).codes = s.codes := rfl
@[simp] theorem State.modCluster_stale : (s.modCluster n f).stale = s.stale := rfl
@[simp] theorem State.modCluster_owners : (s.modCluster n f).owners = s.owners := rfl
@[simp] theorem State.modCluster_l2 : (s.modCluster n f).l2 = s.l2 := rfl
@[simp] theorem State.modCluster_wq : (s.modCluster n f).wq = s.wq := rfl
@[simp] theorem State.modCluster_hold : (s.modCluster n f).hold = s.hold := rfl
@[simp] theorem State.modCluster_rq : (s.modCluster n f).rq = s.rq := rfl
@[simp] theorem State.modCluster_flights : (s.modCluster n f).flights = s.flights := rfl
@[simp] theorem State.modCluster_faults : (s.modCluster n f).faults = s.faults := rfl
@[simp] theorem State.modCluster_cores : (s.modCluster n f).cores = s.cores := rfl
@[simp] theorem State.modCluster_nodeCache : (s.modCluster n f).nodeCache = s.nodeCache := rfl
@[simp] theorem State.modCluster_slots : (s.modCluster n f).slots = s.slots := rfl
@[simp] theorem State.modCluster_crucible : (s.modCluster n f).crucible = s.crucible := rfl
@[simp] theorem State.modCluster_tables : (s.modCluster n f).tables = s.tables := rfl
@[simp] theorem State.modCluster_watches : (s.modCluster n f).watches = s.watches := rfl
@[simp] theorem State.modCluster_draws : (s.modCluster n f).draws = s.draws := rfl
@[simp] theorem State.modCluster_calls : (s.modCluster n f).calls = s.calls := rfl
@[simp] theorem State.modCluster_events : (s.modCluster n f).events = s.events := rfl
@[simp] theorem State.modCluster_plat : (s.modCluster n f).plat = s.plat := rfl
end

section
variable (s : State) (n : Nat) (f : Core → Core)

@[simp] theorem State.modCore_agenda : (s.modCore n f).agenda = s.agenda := rfl
@[simp] theorem State.modCore_stamp : (s.modCore n f).stamp = s.stamp := rfl
@[simp] theorem State.modCore_nextId : (s.modCore n f).nextId = s.nextId := rfl
@[simp] theorem State.modCore_ctx : (s.modCore n f).ctx = s.ctx := rfl
@[simp] theorem State.modCore_clock : (s.modCore n f).clock = s.clock := rfl
@[simp] theorem State.modCore_time : (s.modCore n f).time = s.time := rfl
@[simp] theorem State.modCore_thr : (s.modCore n f).thr = s.thr := rfl
@[simp] theorem State.modCore_live : (s.modCore n f).live = s.live := rfl
@[simp] theorem State.modCore_threads : (s.modCore n f).threads = s.threads := rfl
@[simp] theorem State.modCore_groups : (s.modCore n f).groups = s.groups := rfl
@[simp] theorem State.modCore_dispatches : (s.modCore n f).dispatches = s.dispatches := rfl
@[simp] theorem State.modCore_regions : (s.modCore n f).regions = s.regions := rfl
@[simp] theorem State.modCore_images : (s.modCore n f).images = s.images := rfl
@[simp] theorem State.modCore_mem : (s.modCore n f).mem = s.mem := rfl
@[simp] theorem State.modCore_poison : (s.modCore n f).poison = s.poison := rfl
@[simp] theorem State.modCore_codes : (s.modCore n f).codes = s.codes := rfl
@[simp] theorem State.modCore_stale : (s.modCore n f).stale = s.stale := rfl
@[simp] theorem State.modCore_owners : (s.modCore n f).owners = s.owners := rfl
@[simp] theorem State.modCore_l2 : (s.modCore n f).l2 = s.l2 := rfl
@[simp] theorem State.modCore_wq : (s.modCore n f).wq = s.wq := rfl
@[simp] theorem State.modCore_hold : (s.modCore n f).hold = s.hold := rfl
@[simp] theorem State.modCore_rq : (s.modCore n f).rq = s.rq := rfl
@[simp] theorem State.modCore_flights : (s.modCore n f).flights = s.flights := rfl
@[simp] theorem State.modCore_faults : (s.modCore n f).faults = s.faults := rfl
@[simp] theorem State.modCore_clusters : (s.modCore n f).clusters = s.clusters := rfl
@[simp] theorem State.modCore_nodeCache : (s.modCore n f).nodeCache = s.nodeCache := rfl
@[simp] theorem State.modCore_slots : (s.modCore n f).slots = s.slots := rfl
@[simp] theorem State.modCore_crucible : (s.modCore n f).crucible = s.crucible := rfl
@[simp] theorem State.modCore_tables : (s.modCore n f).tables = s.tables := rfl
@[simp] theorem State.modCore_watches : (s.modCore n f).watches = s.watches := rfl
@[simp] theorem State.modCore_draws : (s.modCore n f).draws = s.draws := rfl
@[simp] theorem State.modCore_calls : (s.modCore n f).calls = s.calls := rfl
@[simp] theorem State.modCore_events : (s.modCore n f).events = s.events := rfl
@[simp] theorem State.modCore_plat : (s.modCore n f).plat = s.plat := rfl
end

section
variable (s : State)

@[simp] theorem State.acquire_agenda : (s.acquire).agenda = s.agenda := rfl
@[simp] theorem State.acquire_stamp : (s.acquire).stamp = s.stamp := rfl
@[simp] theorem State.acquire_nextId : (s.acquire).nextId = s.nextId := rfl
@[simp] theorem State.acquire_ctx : (s.acquire).ctx = s.ctx := rfl
@[simp] theorem State.acquire_clock : (s.acquire).clock = s.clock := rfl
@[simp] theorem State.acquire_time : (s.acquire).time = s.time := rfl
@[simp] theorem State.acquire_thr : (s.acquire).thr = s.thr := rfl
@[simp] theorem State.acquire_live : (s.acquire).live = s.live := rfl
@[simp] theorem State.acquire_threads : (s.acquire).threads = s.threads := rfl
@[simp] theorem State.acquire_groups : (s.acquire).groups = s.groups := rfl
@[simp] theorem State.acquire_dispatches : (s.acquire).dispatches = s.dispatches := rfl
@[simp] theorem State.acquire_regions : (s.acquire).regions = s.regions := rfl
@[simp] theorem State.acquire_images : (s.acquire).images = s.images := rfl
@[simp] theorem State.acquire_mem : (s.acquire).mem = s.mem := rfl
@[simp] theorem State.acquire_poison : (s.acquire).poison = s.poison := rfl
@[simp] theorem State.acquire_codes : (s.acquire).codes = s.codes := rfl
@[simp] theorem State.acquire_stale : (s.acquire).stale = s.stale := rfl
@[simp] theorem State.acquire_owners : (s.acquire).owners = s.owners := rfl
@[simp] theorem State.acquire_l2 : (s.acquire).l2 = s.l2 := rfl
@[simp] theorem State.acquire_wq : (s.acquire).wq = s.wq := rfl
@[simp] theorem State.acquire_hold : (s.acquire).hold = s.hold := rfl
@[simp] theorem State.acquire_rq : (s.acquire).rq = s.rq := rfl
@[simp] theorem State.acquire_flights : (s.acquire).flights = s.flights := rfl
@[simp] theorem State.acquire_faults : (s.acquire).faults = s.faults := rfl
@[simp] theorem State.acquire_nodeCache : (s.acquire).nodeCache = s.nodeCache := rfl
@[simp] theorem State.acquire_slots : (s.acquire).slots = s.slots := rfl
@[simp] theorem State.acquire_crucible : (s.acquire).crucible = s.crucible := rfl
@[simp] theorem State.acquire_tables : (s.acquire).tables = s.tables := rfl
@[simp] theorem State.acquire_watches : (s.acquire).watches = s.watches := rfl
@[simp] theorem State.acquire_draws : (s.acquire).draws = s.draws := rfl
@[simp] theorem State.acquire_calls : (s.acquire).calls = s.calls := rfl
@[simp] theorem State.acquire_events : (s.acquire).events = s.events := rfl
@[simp] theorem State.acquire_plat : (s.acquire).plat = s.plat := rfl
end

section
variable (s : State) (w : Nat)

@[simp] theorem State.disown_agenda : (s.disown w).agenda = s.agenda := by unfold State.disown; split <;> rfl
@[simp] theorem State.disown_stamp : (s.disown w).stamp = s.stamp := by unfold State.disown; split <;> rfl
@[simp] theorem State.disown_nextId : (s.disown w).nextId = s.nextId := by unfold State.disown; split <;> rfl
@[simp] theorem State.disown_ctx : (s.disown w).ctx = s.ctx := by unfold State.disown; split <;> rfl
@[simp] theorem State.disown_clock : (s.disown w).clock = s.clock := by unfold State.disown; split <;> rfl
@[simp] theorem State.disown_time : (s.disown w).time = s.time := by unfold State.disown; split <;> rfl
@[simp] theorem State.disown_thr : (s.disown w).thr = s.thr := by unfold State.disown; split <;> rfl
@[simp] theorem State.disown_live : (s.disown w).live = s.live := by unfold State.disown; split <;> rfl
@[simp] theorem State.disown_threads : (s.disown w).threads = s.threads := by unfold State.disown; split <;> rfl
@[simp] theorem State.disown_groups : (s.disown w).groups = s.groups := by unfold State.disown; split <;> rfl
@[simp] theorem State.disown_dispatches : (s.disown w).dispatches = s.dispatches := by unfold State.disown; split <;> rfl
@[simp] theorem State.disown_regions : (s.disown w).regions = s.regions := by unfold State.disown; split <;> rfl
@[simp] theorem State.disown_images : (s.disown w).images = s.images := by unfold State.disown; split <;> rfl
@[simp] theorem State.disown_mem : (s.disown w).mem = s.mem := by unfold State.disown; split <;> rfl
@[simp] theorem State.disown_poison : (s.disown w).poison = s.poison := by unfold State.disown; split <;> rfl
@[simp] theorem State.disown_codes : (s.disown w).codes = s.codes := by unfold State.disown; split <;> rfl
@[simp] theorem State.disown_stale : (s.disown w).stale = s.stale := by unfold State.disown; split <;> rfl
@[simp] theorem State.disown_l2 : (s.disown w).l2 = s.l2 := by unfold State.disown; split <;> rfl
@[simp] theorem State.disown_wq : (s.disown w).wq = s.wq := by unfold State.disown; split <;> rfl
@[simp] theorem State.disown_hold : (s.disown w).hold = s.hold := by unfold State.disown; split <;> rfl
@[simp] theorem State.disown_rq : (s.disown w).rq = s.rq := by unfold State.disown; split <;> rfl
@[simp] theorem State.disown_flights : (s.disown w).flights = s.flights := by unfold State.disown; split <;> rfl
@[simp] theorem State.disown_faults : (s.disown w).faults = s.faults := by unfold State.disown; split <;> rfl
@[simp] theorem State.disown_cores : (s.disown w).cores = s.cores := by unfold State.disown; split <;> rfl
@[simp] theorem State.disown_nodeCache : (s.disown w).nodeCache = s.nodeCache := by unfold State.disown; split <;> rfl
@[simp] theorem State.disown_slots : (s.disown w).slots = s.slots := by unfold State.disown; split <;> rfl
@[simp] theorem State.disown_crucible : (s.disown w).crucible = s.crucible := by unfold State.disown; split <;> rfl
@[simp] theorem State.disown_tables : (s.disown w).tables = s.tables := by unfold State.disown; split <;> rfl
@[simp] theorem State.disown_watches : (s.disown w).watches = s.watches := by unfold State.disown; split <;> rfl
@[simp] theorem State.disown_draws : (s.disown w).draws = s.draws := by unfold State.disown; split <;> rfl
@[simp] theorem State.disown_calls : (s.disown w).calls = s.calls := by unfold State.disown; split <;> rfl
@[simp] theorem State.disown_events : (s.disown w).events = s.events := by unfold State.disown; split <;> rfl
@[simp] theorem State.disown_plat : (s.disown w).plat = s.plat := by unfold State.disown; split <;> rfl
end

/-! ## What the updates write -/

@[simp] theorem State.wrSn_thr (s : State) (r : Nat) (x : Word) : (s.wrSn r x).thr = s.thr.wrS s.ctx.sp r x := rfl
@[simp] theorem State.wrS_thr (s : State) (r : Reg) (x : Word) : (s.wrS r x).thr = s.thr.wrS s.ctx.sp r.toNat x := rfl
@[simp] theorem State.waitFor_out (s : State) (w : Wait) : (s.waitFor w).ctx.out = .stall := rfl
@[simp] theorem State.parkAt_out (s : State) (p : ParkedWord) : (s.parkAt p).ctx.out = .stall := rfl

theorem State.setSplit_split (s : State) (f : Split → Split) : (s.setSplit f).split = s.split.map f := by
  unfold State.setSplit
  cases h : s.split with
  | none => simp [h]
  | some e =>
    unfold State.split Level.split? Level.setSplit
    simp

theorem State.homeWrite_mem (s : State) (a : Nat) (bs : List Byte) : (s.homeWrite a bs).mem = cellsWrite s.mem a bs := rfl

/-- Among things told apart by a number, the one put in front takes the place of its like. -/
theorem find_put {α : Type} (num : α → Nat) (c : α) (n : Nat) (l : List α) :
    (c :: l.filter (fun x => num x != num c)).find? (fun x => num x == n) =
      if num c = n then some c else l.find? (fun x => num x == n) := by
  simp only [List.find?_cons, List.find?_filter]
  split
  case h_1 e => simp [beq_iff_eq.mp e]
  case h_2 e =>
    have ne : num c ≠ n := fun k => by simp [k] at e
    rw [if_neg ne]
    refine congrArg (List.find? · l) (funext fun x => ?_)
    rcases Decidable.em (num x = n) with k | k
    · simp [k, Ne.symm ne]
    · simp [k]

/-- The cluster that was put, and every other as it was. -/
theorem State.cluster_setCluster (s : State) (c : Cluster) (n : Nat) :
    (s.setCluster c).cluster n = if n = c.id then c else s.cluster n := by
  simp only [State.cluster, State.setCluster, find_put Cluster.id]
  by_cases k : c.id = n
  · simp [k]
  · simp [k, Ne.symm k]

end Sys2Proof.Machine
end

