-- ==== Sys2Proof/Laws/Traps.lean ====
section
/-! SUPPORT. What taking a trap comes to: which of the three ways a thread goes, and what entering trap mode leaves. -/

namespace Sys2Proof

open Machine

/-- A wave with a handler, outside trap mode, enters trap mode (R364). -/
theorem takeTrap_enter {s : State} {h : Word} (sp : BitVec 2) (t : Trap) (wave : s.thr.mcc = false)
    (level : s.thr.base = none) (handler : s.thr.kern.handler = some h) : s.takeTrap sp t = s.enterTrap sp h t := by
  simp [State.takeTrap, wave, level, handler]

/-- A wave without a handler ends (R367). -/
theorem takeTrap_end {s : State} (sp : BitVec 2) (t : Trap) (level : s.thr.base = none) (handler : s.thr.kern.handler = none) :
    s.takeTrap sp t = s.endThread t.cls t.cause t.pc t.addr := by
  cases h : s.thr.mcc <;> simp [State.takeTrap, h, level, handler]

/-- A wave in trap mode ends with DFAULT, whose cause is the class of the second trap (R362, R367). -/
theorem takeTrap_double {s : State} (sp : BitVec 2) (t : Trap) (wave : s.thr.mcc = false) (level : s.thr.base ≠ none) :
    s.takeTrap sp t = s.endThread 14 t.cls t.pc t.addr := by
  simp [State.takeTrap, wave, Option.isSome_iff_ne_none, level]

/-- An MCC thread ends at any trap (R282, R367). -/
theorem takeTrap_mcc {s : State} (sp : BitVec 2) (t : Trap) (mcc : s.thr.mcc = true) :
    s.takeTrap sp t = s.endThread t.cls t.cause t.pc t.addr := by
  simp [State.takeTrap, mcc]

/-- Entering trap mode leaves what R364 says. -/
theorem enterTrap_entered {s : State} {sp : BitVec 2} {h : Word} {e : Split} (t : Trap) (handler : s.thr.kern.handler = some h)
    (held : s.thr.level.split? sp = some e) : Entered s (s.enterTrap sp h t) sp t := by
  unfold State.enterTrap
  simp only [held]
  refine ⟨rfl, rfl, ⟨h, e, handler, held, rfl, s.thr.level.setSplit sp (some (e.trapped t)), e.trapped t, rfl, ?_, rfl, rfl,
    rfl, rfl, rfl, rfl, fun i other => ?_⟩, fun f => ?_, fun f => ?_⟩
  · rw [Level.split?_setSplit, if_pos rfl]
  · rw [Level.split?_setSplit, if_neg (Ne.symm other)]
  · simp [eq_comm]
  · simp [eq_comm]

/-- A word's trap resumes at its group's first word (R362). -/
theorem trapGroup_eq (s : State) (cls cause : Nat) (addr : BitVec 64) (lanes : Mask) :
    s.trapGroup cls cause addr lanes = s.takeTrap s.ctx.sp
      { cls := cls, cause := cause, pc := s.ctx.pc, slot := s.ctx.gslot, oslot := s.ctx.slot, replay := false
        addr := addr, lanes := lanes } := rfl

/-- RTE outside trap mode changes nothing here (R366): its word traps before. -/
theorem trapReturn_base {s : State} (level : s.thr.base = none) : s.trapReturn = s := by
  simp [State.trapReturn, level]

end Sys2Proof
end

