-- ==== Sys2Proof/Tests/Slice0.lean ====
section
/-! SUPPORT. Tests: the decoding of every instruction word, written from the encodings of the spec (R20 to R27); ill-formed
terms that WellFormed refuses; the spec's worked examples; and, for each statement, states that meet its hypotheses. -/

namespace Sys2Proof.Tests

set_option Elab.async false

open Sys2Proof Sys2Proof.Machine

/-! ## Decoding -/

theorem test_decode_flow : ([
    0xC0000000, 0x800D5A96, 0x00100000, 0xC0180000, 0x00200013, 0x002806CD, 0x80352E4D, 0x00380000, 0x80455A96,
    0x80480006] : List Word).map decodeWord = [
    .word true true .nop, .word true false (.mjoin 350870), .word false false .join, .word true true .ret,
    .word false false (.jmpr 19), .word false false (.loop 13 77), .word true false (.loopi 2652 77),
    .word false false .lbrk, .word true false (.yield 350870), .word true false (.waitx 6)] := by decide +kernel

theorem test_decode_jump : ([
    0x412D5A96, 0x01AD5A96, 0xC2365A96, 0xC3895A96] : List Word).map decodeWord = [
    .word false true (.br 2972310), .word false false (.call 2972310), .word true true (.bru 13 2 23190),
    .word true true (.brs 34 1 23190)] := by decide +kernel

theorem test_decode_salu : ([
    0x0456A2E0, 0x0456A2E1, 0x0456A2E2, 0x8456A2E3, 0x0456A2E4, 0x8456A2E5, 0x0456A2E6, 0x0456A2E7, 0xC456A2E8,
    0x0456A2E9, 0x0456A2EA, 0x0456A2EB, 0x0456A2EC, 0x8456A4ED, 0x8456A4EE, 0x8456A4EF, 0x0456A2F0, 0x0456A2F1,
    0x0456A2F2, 0x0456A2F3, 0x8456A2F4, 0x0456A2F5, 0x0456A036, 0x0456A037, 0x0456A038] : List Word).map decodeWord = [
    .word false false (.sadd 21 42 11 true), .word false false (.ssub 21 42 11 true),
    .word false false (.smul 21 42 11 true), .word true false (.smulh 21 42 11 true),
    .word false false (.sdiv 21 42 11 true), .word true false (.sdivu 21 42 11 true),
    .word false false (.srem 21 42 11 true), .word false false (.sand 21 42 11 true),
    .word true true (.sor 21 42 11 true), .word false false (.sxor 21 42 11 true),
    .word false false (.sshl 21 42 11 true), .word false false (.sshr 21 42 11 true),
    .word false false (.ssra 21 42 11 true), .word true false (.sshli 21 42 19 true),
    .word true false (.sshri 21 42 19 true), .word true false (.ssrai 21 42 19 true),
    .word false false (.smin 21 42 11 true), .word false false (.smax 21 42 11 true),
    .word false false (.sceq 21 42 11 true), .word false false (.sclt 21 42 11 true),
    .word true false (.scltu 21 42 11 true), .word false false (.ssel 21 42 11 true),
    .word false false (.sclz 21 42 true), .word false false (.spop 21 42 true), .word false false (.smov 21 42 true)] := by decide +kernel

theorem test_decode_sali : ([
    0x8556AA96, 0x8656AA96, 0x0756AA96] : List Word).map decodeWord = [
    .word true false (.saddi 21 42 2710), .word true false (.sandi 21 42 2710), .word false false (.sori 21 42 2710)] := by decide +kernel

theorem test_decode_vint : ([
    0x0856A2E0, 0x0856A2E1, 0x0856A2E2, 0x8856A2E3, 0x0856A2E4, 0x0856A2E5, 0xC856A2E6, 0x0856A2E7, 0x0856A028,
    0x0856A2E9, 0x0856A2EA, 0x0856A2EB, 0x8856A4EC, 0x8856A4ED, 0x8856A4EE, 0x0856A2EF, 0x0856A2F0, 0x0856A031,
    0x0856A032, 0x0856A033, 0x0856A034, 0x0856A035, 0x8856A2F6] : List Word).map decodeWord = [
    .word false false (.vadd 21 42 11 true), .word false false (.vsub 21 42 11 true),
    .word false false (.vmul 21 42 11 true), .word true false (.vmulh 21 42 11 true),
    .word false false (.vmad 21 42 11 true), .word false false (.vand 21 42 11 true),
    .word true true (.vor 21 42 11 true), .word false false (.vxor 21 42 11 true),
    .word false false (.vnot 21 42 true), .word false false (.vshl 21 42 11 true),
    .word false false (.vshr 21 42 11 true), .word false false (.vsra 21 42 11 true),
    .word true false (.vshli 21 42 19 true), .word true false (.vshri 21 42 19 true),
    .word true false (.vsrai 21 42 19 true), .word false false (.vmin 21 42 11 true),
    .word false false (.vmax 21 42 11 true), .word false false (.vabs 21 42 true),
    .word false false (.vneg 21 42 true), .word false false (.vclz 21 42 true), .word false false (.vpop 21 42 true),
    .word false false (.vmov 21 42 true), .word true false (.vselz 21 42 11 true)] := by decide +kernel

theorem test_decode_vimm : ([
    0x8956AA96, 0x8A56AA96, 0xCB540A96] : List Word).map decodeWord = [
    .word true false (.vaddi 21 42 2710), .word true false (.vandi 21 42 2710), .word true true (.vli 21 2710)] := by decide +kernel

theorem test_decode_vcmp : ([
    0x0C56A2E0, 0x0C56A2E1, 0x0C56A2E2, 0x0C56A2E3, 0x8C56A2E4, 0x8C56A2E5, 0x8C56A2E6, 0x8C56A2E7, 0x8C56A2E8,
    0x8C56A2E9, 0x8C56A2EA] : List Word).map decodeWord = [
    .word false false (.vceq 21 42 11 true), .word false false (.vcne 21 42 11 true),
    .word false false (.vclt 21 42 11 true), .word false false (.vcle 21 42 11 true),
    .word true false (.vcltu 21 42 11 true), .word true false (.vcleu 21 42 11 true),
    .word true false (.vfceq 21 42 11 true), .word true false (.vfcne 21 42 11 true),
    .word true false (.vfclt 21 42 11 true), .word true false (.vfcle 21 42 11 true),
    .word true false (.vfcun 21 42 11 true)] := by decide +kernel

theorem test_decode_vdot : ([
    0x8D56A2E0, 0x4D56A2E1, 0x4D56A2E2, 0xCD56A2E3, 0x8D56A2E4, 0x4D56A2E5, 0x8D56A2E6, 0x4D56A2E7] : List Word).map decodeWord = [
    .word true false (.vdotb 21 42 11 true), .word false true (.vdotbs 21 42 11 true),
    .word false true (.vdotub 21 42 11 true), .word true true (.vdotubs 21 42 11 true),
    .word true false (.vdotn 21 42 11 true), .word false true (.vdotns 21 42 11 true),
    .word true false (.vdoth 21 42 11 true), .word false true (.vdotbf 21 42 11 true)] := by decide +kernel

theorem test_decode_vf32 : ([
    0x8E56A2E0, 0x8E56A2E1, 0x8E56A2E2, 0x0E56A2E3, 0x0E56A2E4, 0x8E56A2E5, 0x8E56A2E6, 0x8E56A2E7, 0x4E56A2E8,
    0x4E56A2E9, 0x8E56A02A, 0x8E56A02B, 0x8E56A2EC, 0x8E56A02D, 0x8E56A02E, 0xCE56A02F] : List Word).map decodeWord = [
    .word true false (.vfadd 21 42 11 true), .word true false (.vfsub 21 42 11 true),
    .word true false (.vfmul 21 42 11 true), .word false false (.vfma 21 42 11 true),
    .word false false (.vfms 21 42 11 true), .word true false (.vfnma 21 42 11 true),
    .word true false (.vfmin 21 42 11 true), .word true false (.vfmax 21 42 11 true),
    .word false true (.vfminn 21 42 11 true), .word false true (.vfmaxn 21 42 11 true),
    .word true false (.vfabs 21 42 true), .word true false (.vfneg 21 42 true),
    .word true false (.vfcps 21 42 11 true), .word true false (.vfrnd 21 42 true),
    .word true false (.vftrc 21 42 true), .word true true (.vfclass 21 42 true)] := by decide +kernel

theorem test_decode_vf16 : ([
    0x0F56A2E0, 0x0F56A2E1, 0x0F56A2E2, 0x0F56A2E3, 0x0F56A2E4, 0x0F56A2E5, 0x0F56A2E6, 0x0F56A2E7, 0x0F56A2E8] : List Word).map decodeWord = [
    .word false false (.hadd 21 42 11 true), .word false false (.hsub 21 42 11 true),
    .word false false (.hmul 21 42 11 true), .word false false (.hfma 21 42 11 true),
    .word false false (.hmin 21 42 11 true), .word false false (.hmax 21 42 11 true),
    .word false false (.badd 21 42 11 true), .word false false (.bmul 21 42 11 true),
    .word false false (.bfma 21 42 11 true)] := by decide +kernel

theorem test_decode_xcvt : ([
    0x1056A395] : List Word).map decodeWord = [
    .word false false (.xcvt 21 42 3 9 2 true)] := by decide +kernel

theorem test_decode_xsf : ([
    0x1156A020, 0x1156A021, 0x9156A022, 0x9156A023, 0x9156A024, 0x1156A025, 0x1156A026, 0x9156A027, 0x1156A2E8] : List Word).map decodeWord = [
    .word false false (.xrcp 21 42 true), .word false false (.xrsq 21 42 true), .word true false (.xsqrt 21 42 true),
    .word true false (.xexp2 21 42 true), .word true false (.xlog2 21 42 true), .word false false (.xsin 21 42 true),
    .word false false (.xcos 21 42 true), .word true false (.xtanh 21 42 true),
    .word false false (.xdiv 21 42 11 true)] := by decide +kernel

theorem test_decode_xpack : ([
    0x5256A020, 0x5256A021, 0x5256A2E2, 0x5256A023, 0x5256A2E4, 0x5256A2E5] : List Word).map decodeWord = [
    .word false true (.xpack6 21 42 true), .word false true (.xunpk6 21 42 true),
    .word false true (.xpack4 21 42 11 true), .word false true (.xunpk4 21 42 true),
    .word false true (.xpackh 21 42 11 true), .word false true (.xpackb 21 42 11 true)] := by decide +kernel

theorem test_decode_xqnt : ([
    0x9356A2E0, 0x9356A2E1, 0x5356A2E2, 0x5356A2E3, 0x1356A2E4, 0x9356A2E5, 0x9356A2E6] : List Word).map decodeWord = [
    .word true false (.xqnt4 21 42 11 true), .word true false (.xqnt8 21 42 11 true),
    .word false true (.xdqnt4 21 42 11 true), .word false true (.xdqnt8 21 42 11 true),
    .word false false (.xqmx 21 42 11 true), .word true false (.xdqmx 21 42 11 true),
    .word true false (.xamax 21 42 11 true)] := by decide +kernel

theorem test_decode_xrng : ([
    0x94540000, 0x94540001, 0x9456A2E2, 0x9402A2E3] : List Word).map decodeWord = [
    .word true false (.xrngb 21), .word true false (.xrngu 21), .word true false (.xrngk 21 42 11 true),
    .word true false (.xrngj 42 11 true)] := by decide +kernel

theorem test_decode_wlane : ([
    0x1556A2E0, 0x9556A4E1, 0x1556A4E2, 0xD556A4E3, 0xD556A4E4, 0xD556A025, 0x9556A026, 0x5556A027, 0x5556A028,
    0x1556A029, 0x1556A02A, 0x1556A02B, 0x9556A02C, 0xD556A02D, 0xD556A02E, 0xD556A02F, 0x5556A030, 0x9556A031,
    0x1556A032, 0x1556A033, 0x9556A2F4, 0x9556A2F5, 0x155400D6, 0x55000097] : List Word).map decodeWord = [
    .word false false (.wshf 21 42 11 true), .word true false (.wshfi 21 42 19 true),
    .word false false (.wxor 21 42 19 true), .word true true (.wup 21 42 19 true),
    .word true true (.wdn 21 42 19 true), .word true true (.wbc 21 42 true), .word true false (.wscan 21 42 true),
    .word false true (.wscanx 21 42 true), .word false true (.wscanf 21 42 true),
    .word false false (.wscanmin 21 42 true), .word false false (.wscanmax 21 42 true),
    .word false false (.wred 21 42 true), .word true false (.wredf 21 42 true), .word true true (.wredmin 21 42 true),
    .word true true (.wredmax 21 42 true), .word true true (.wredand 21 42 true),
    .word false true (.wredor 21 42 true), .word true false (.wvote 21 42 true), .word false false (.wany 21 42 true),
    .word false false (.wall 21 42 true), .word true false (.wcomp 21 42 11 true),
    .word true false (.wmaxi 21 42 11 true), .word false false (.wflg 21 3), .word false true (.wflclr 2)] := by decide +kernel

theorem test_decode_ld : ([
    0xD856A6A0, 0x1856A6A1, 0xD856A6A2, 0x1856A6A3, 0xD856A6A4, 0xD856A6A5, 0xD856A6A6, 0x1856A6A7, 0x1856A6A8,
    0x1856A6A9] : List Word).map decodeWord = [
    .word true true (.ldb 21 42 13 1), .word false false (.ldbu 21 42 13 1), .word true true (.ldh 21 42 13 1),
    .word false false (.ldhu 21 42 13 1), .word true true (.ldw 21 42 13 1), .word true true (.ldd 21 42 13 1),
    .word true true (.ldq 21 42 13 1), .word false false (.sldw 21 42 13 1), .word false false (.sldd 21 42 13 1),
    .word false false (.sldq 21 42 13 1)] := by decide +kernel

theorem test_decode_st : ([
    0xD956A6A0, 0xD956A6A1, 0xD956A6A2, 0xD956A6A3, 0xD956A6A4, 0x1956A6A5, 0x1956A6A6, 0x1956A6A7] : List Word).map decodeWord = [
    .word true true (.stb 21 42 13 1), .word true true (.sth 21 42 13 1), .word true true (.stw 21 42 13 1),
    .word true true (.std 21 42 13 1), .word true true (.stq 21 42 13 1), .word false false (.st64 21 42 13 1),
    .word false false (.sstw 21 42 13 1), .word false false (.sstd 21 42 13 1)] := by decide +kernel

theorem test_decode_lcl : ([
    0x1A56A680, 0x1A56A681, 0x1A56A682, 0x1A56A683, 0x9A56A684, 0x1A56A685, 0x9A56A686, 0x9A56A687, 0x9A56A688,
    0x9A56A689] : List Word).map decodeWord = [
    .word false false (.lldw 21 42 13), .word false false (.lldq 21 42 13), .word false false (.lstw 21 42 13),
    .word false false (.lstq 21 42 13), .word true false (.lpush 21 42 13), .word false false (.lpop 21 42 13),
    .word true false (.laadd 21 42 13), .word true false (.lamin 21 42 13), .word true false (.lamax 21 42 13),
    .word true false (.laxch 21 42 13)] := by decide +kernel

theorem test_decode_atom : ([
    0x1B56A6A0, 0x1B56A6A1, 0x1B56A6A2, 0x1B56A6A3, 0xDB56A6A4, 0x1B56A6A5, 0x1B56A6A6, 0x1B56A6A7, 0x9B56A6A8,
    0x9B56A6A9, 0x9B56A6AA, 0x1B56A6AB] : List Word).map decodeWord = [
    .word false false (.aadd 21 42 13 1), .word false false (.amin 21 42 13 1), .word false false (.amax 21 42 13 1),
    .word false false (.aand 21 42 13 1), .word true true (.aor 21 42 13 1), .word false false (.axor 21 42 13 1),
    .word false false (.axch 21 42 13 1), .word false false (.acas 21 42 13 1), .word true false (.afadd 21 42 13 1),
    .word true false (.afmin 21 42 13 1), .word true false (.afmax 21 42 13 1), .word false false (.amxi 21 42 13 1)] := by decide +kernel

theorem test_decode_ord : ([
    0xDC000000, 0xDC080000, 0x5C100000, 0x1C180000, 0x1C200000, 0x1C284B0D, 0x1C304B2D, 0x1C384B0D] : List Word).map decodeWord = [
    .word true true .acq, .word true true .rel, .word false true .acqrel, .word false false .fsmp,
    .word false false .fbvh, .word false false (.ffar 13 150), .word false false (.pref 1 13 150),
    .word false false (.invl 13 150)] := by decide +kernel

theorem test_decode_est : ([
    0x1D56A6A0, 0x1D56A6A1, 0x1D56A6A2, 0x1D56A6A3, 0xDD56A6A4, 0x1D56A6A5, 0x1D56A6A6, 0x5D56A687, 0x1D56A008] : List Word).map decodeWord = [
    .word false false (.esta 21 42 13 1), .word false false (.estw 21 42 13 1), .word false false (.estg 21 42 13 1),
    .word false false (.emrg 21 42 13 1), .word true true (.eld 21 42 13 1), .word false false (.eldr 21 42 13 1),
    .word false false (.egen 21 42 13 1), .word false true (.ewatch 21 42 13), .word false false (.eunw 21 42)] := by decide +kernel

theorem test_decode_cmps : ([
    0x1E56A6A0, 0x1E56A6A1, 0x5E02A6A2, 0x1E02A6A3, 0x1E56A6A4, 0x9E56A685] : List Word).map decodeWord = [
    .word false false (.cmpt 21 42 13 1), .word false false (.clda 21 42 13 1), .word false true (.cflush 42 13 1),
    .word false false (.cclr 42 13 1), .word false false (.crep 21 42 13 1), .word true false (.cbind 21 42 13)] := by decide +kernel

theorem test_decode_sync : ([
    0xDF00000B, 0x1F08000B, 0x1F10000B, 0x1F18013B, 0x1F2014D5, 0x9F281000, 0x1F300000, 0x9F380000] : List Word).map decodeWord = [
    .word true true (.bar 11), .word false false (.bara 11), .word false false (.barw 11),
    .word false false (.barx 11 19), .word false false (.oapp 21 19 1), .word true false (.odecl 1),
    .word false false .lget, .word true false .lpass] := by decide +kernel

theorem test_decode_smp : ([
    0x2056A6A0, 0x2056A6A1, 0x2056A6A2, 0x2056A6A3, 0x2056A6A4, 0x2056A6A5, 0x2056A6A6, 0x2056A6A7] : List Word).map decodeWord = [
    .word false false (.smpp 21 42 13 1), .word false false (.smpb 21 42 13 1), .word false false (.smpt 21 42 13 1),
    .word false false (.smpa 21 42 13 1), .word false false (.smpg 21 42 13 1), .word false false (.sfet 21 42 13 1),
    .word false false (.slat 21 42 13 1), .word false false (.sqry 21 42 13 1)] := by decide +kernel

theorem test_decode_dtb : ([
    0x610002AD, 0xA10802A0, 0xA11002A0] : List Word).map decodeWord = [
    .word false true (.dtbind 21 13), .word true false (.dtunb 21), .word true false (.dtqry 21)] := by decide +kernel

theorem test_decode_ray : ([
    0xA256A680, 0x6256A681, 0xA276A682, 0xA2540003] : List Word).map decodeWord = [
    .word true false (.trace 21 42 13), .word false true (.tracea 21 42 13), .word true false (.tcall 29 42 13),
    .word true false (.trres 21)] := by decide +kernel

theorem test_decode_rast : ([
    0xA30002AD, 0xA30802A0] : List Word).map decodeWord = [
    .word true false (.rdraw 21 13), .word true false (.rwait 21)] := by decide +kernel

theorem test_decode_work : ([
    0xA402A4D5, 0x640802AD, 0xA4100000] : List Word).map decodeWord = [
    .word true false (.wgenq 21 19 42), .word false true (.launch 21 13), .word true false .wgfin] := by decide +kernel

theorem test_decode_mat : ([
    0x2800AA60, 0xE856A2C1, 0x2856A2C2, 0xA8D6A2C3, 0xA8000404, 0x6856A2C5, 0xA856A2C6, 0x2856A007, 0x68000008] : List Word).map decodeWord = [
    .word false false (.mldf 21 19), .word true true (.mma 21 42 11), .word false false (.mmaz 21 42 11),
    .word true false (.mpost true 21 42 11), .word true false (.mwait true 0), .word false true (.mdrain 21 42 11),
    .word true false (.mfill 21 42 11), .word false false (.mvnb 21 42), .word false true .mvwait] := by decide +kernel

theorem test_decode_hamp : ([
    0xAC56A6A0, 0x6C56A6A1, 0x6C56A6A2, 0xAC56A6A3, 0x6C0002A4, 0xAC000265, 0x2C56A6A6] : List Word).map decodeWord = [
    .word true false (.hload 21 42 13 1), .word false true (.hstore 21 42 13 1), .word false true (.hmcast 21 42 13 1),
    .word true false (.hpref 21 42 13 1), .word false true (.hbatch 21), .word true false (.waitb 19),
    .word false false (.hqry 21 42 13 1)] := by decide +kernel

theorem test_decode_sys : ([
    0x3E005A96, 0xFE080000, 0xBE105A96, 0x3E182155, 0x3E20216A, 0x3E285A96, 0x3E300000, 0x7E380015] : List Word).map decodeWord = [
    .word false false (.trap 23190), .word true true .rte, .word true false (.scall 23190),
    .word false false (.ctlr 21 133), .word false false (.ctlw 133 42), .word false false (.bkpt 23190),
    .word false false .exit, .word false true (.rdtime 21)] := by decide +kernel

theorem test_decode_const : ([
    0xBF2D5A96] : List Word).map decodeWord = [
    .word true false (.const 2972310)] := by decide +kernel

/-! ## Well-formedness -/

/-- R24, R26, R57, R71, R72, R109, R139: each term breaks one limit of its form. -/
theorem test_wellFormed_refuses : ([
    .loop 0 0, .loop 0 86, .loopi 0 0, .loopi 0 86, .brs 62 0 0, .sshli 0 0 32 false, .sshri 0 0 32 false,
    .ssrai 0 0 32 false, .vshli 0 0 32 false, .vshri 0 0 32 false, .vsrai 0 0 32 false, .vceq 62 0 0 false,
    .vcne 62 0 0 false, .vclt 62 0 0 false, .vcle 62 0 0 false, .vcltu 62 0 0 false, .vcleu 62 0 0 false,
    .vfceq 62 0 0 false, .vfcne 62 0 0 false, .vfclt 62 0 0 false, .vfcle 62 0 0 false, .vfcun 62 0 0 false,
    .xcvt 0 0 3 3 0 false, .xcvt 0 0 15 1 0 false, .xcvt 0 0 1 15 0 false, .xcvt 0 0 1 2 7 false, .xcvt 0 0 8 9 1 false,
    .xunpk4 63 0 false, .wvote 62 0 false, .wmaxi 63 0 0 false, .wflg 62 0, .wflg 0 5, .ldd 63 0 0 0, .ldq 61 0 0 0,
    .sldd 63 0 0 0, .sldq 61 0 0 0, .std 63 0 0 0, .stq 61 0 0 0, .st64 49 0 0 0, .sstd 63 0 0 0, .lldq 61 0 0, .lstq 61 0 0,
    .aadd 63 63 0 0, .amin 63 63 0 0, .amax 63 63 0 0, .aand 63 63 0 0, .aor 63 63 0 0, .axor 63 63 0 0, .axch 63 63 0 0,
    .acas 63 62 0 0, .afadd 63 63 0 0, .afmin 63 63 0 0, .afmax 63 63 0 0, .amxi 63 62 0 0,
    .estw 63 0 0 0, .estg 62 0 0 0, .emrg 61 0 0 0, .eld 61 0 0 0, .eldr 61 0 0 0, .cmpt 60 0 0 0, .clda 60 0 0 0,
    .crep 60 0 0 0, .smpp 61 0 0 0, .smpp 0 62 0 0, .smpb 0 62 0 0, .smpt 0 62 0 0, .smpa 0 60 0 0, .smpg 0 61 0 0,
    .sfet 0 62 0 0, .slat 0 62 0 0, .sqry 61 0 0 0, .trace 59 0 0, .trace 0 57 0, .tracea 59 0 0, .tcall 33 0 0,
    .tcall 0 54 0, .trres 62, .mma 32 0 0, .mmaz 32 0 0, .mwait true 1, .mdrain 32 0 0, .mfill 32 0 0, .hqry 0 0 0 2,
    .ctlr 0 0x013, .ctlr 0 0x01F, .ctlw 0x08A 0, .rdtime 63] : List Instr).all (fun i => !i.wellFormed) = true := by
  decide

/-- The values next to those limits are allowed. -/
theorem test_wellFormed_admits : ([
    .loop 0 1, .loopi 0 85, .brs 61 0 0, .sshli 0 0 31 false, .vsrai 0 0 31 false, .vfcun 61 0 0 false,
    .xcvt 0 0 14 13 0 false, .xcvt 0 0 0 8 6 false, .wflg 61 4, .ldq 60 0 0 0, .st64 48 0 0 0, .aadd 63 62 0 0,
    .acas 62 63 0 0, .acas 63 61 0 0, .cmpt 59 0 0 0, .smpa 60 59 0 0, .trace 58 56 0, .tcall 32 53 0, .mma 31 63 63,
    .mwait true 0, .mwait false 31, .hqry 63 0 0 1, .ctlr 0 0x012, .ctlw 0x089 0, .rdtime 62] : List Instr).all
      (fun i => i.wellFormed) = true := by
  decide

/-! ## Small states -/

/-- Memory: the page tables of log entry 15, a normal page at 0x1_0000, an EST page at 0x2_0000, a CMP page at 0x3_0000, a
FAR page at 0x4_0000; nothing at 0x5_0000. -/
def memory : List Host.Cell :=
  putEntry (putEntry (putEntry (placeCode [] 0) 0x204010 0x120007) 0x204018 0x13000B) 0x204020 (2 ^ 48 + 15)

/-- A wave with a handler, two lanes, and the addresses of those pages in s8 to s17. -/
def wave : Thread :=
  { placedThread 0 with
    kern := { Kern.none with codeBase := 0x10000, handler := some 9, clmBytes := 65536, payregs := 8, spill := 64, depth := 4 }
    env := { Env.none with ptroot := 0x200000, rcb := 0x300000, policy := 28 }
    s := (((((Vector.replicate 64 0).set 8 0x10040).set 10 0x20000).set 12 0x30000).set 14 0x40000).set 16 0x50000
    level := Level.start { Split.start 4 3 with owned := allLanes } }

/-- The wave issues the word at slot 0 of packet 4, the next word is at slot 1. -/
def site : State :=
  { State.reset with
    mem := memory, thr := wave, live := true, nextId := 7
    plat := { Platform.reset with flask := .run, band := 0, firmware := some [1] }
    ctx := { Ctx.idle with pc := 4, next := ⟨4, 1⟩ } }

/-- The site with scalar registers written. -/
def site.s (l : List (Nat × Word)) : State :=
  { site with thr := { wave with s := l.foldl (fun v (r, x) => v.setIfInBounds r x) wave.s } }

/-- The site with vector registers that hold one value in every lane. -/
def site.v (l : List (Nat × Word)) : State :=
  { site with thr := { wave with v := l.foldl (fun v (r, x) => v.setIfInBounds r (Vector.replicate 96 x)) wave.v } }

/-- The site with vector registers given lane by lane. -/
def site.lanes (l : List (Nat × List Word)) : State :=
  { site with thr := { wave with v := l.foldl (fun v (r, xs) =>
    v.setIfInBounds r ((Vector.range 96).map (fun i => xs[i]?.getD 0))) wave.v } }

/-- The next state, if there is one. -/
def after (o : Out) : State :=
  match o with
  | .next t => t
  | .fault _ | .refused _ => State.reset

/-- A scalar register after a word. -/
def givesS (s : State) (i : Instr) (r : Nat) : Word := seesS (after (exec i s)) r

/-- Lane 0 of a vector register after a word, and its flags. -/
def givesV (s : State) (i : Instr) (r : Nat) : Word := seesV (after (exec i s)) r 0
def flagsV (s : State) (i : Instr) : Fl := seesFl (after (exec i s)) 0

/-- The page under an address. -/
def pageFor (va : Nat) : Page := (site.pageAt 0x200000 va).getD ⟨0, .normal, false, false, false, false, 0⟩

/-! ## The spec's worked examples -/

/-- R57, R58: −7 / 2 is −3, the remainder −1; 5 / 0 is 0xFFFF_FFFF. -/
theorem test_sdiv : givesS (site.s [(1, 0xFFFFFFF9), (2, 2)]) (.sdiv 3 1 2 false) 3 = 0xFFFFFFFD ∧
    givesS (site.s [(1, 0xFFFFFFF9), (2, 2)]) (.srem 3 1 2 false) 3 = 0xFFFFFFFF ∧
    givesS (site.s [(1, 5)]) (.sdivu 3 1 2 false) 3 = 0xFFFFFFFF := by decide +kernel

/-- R24: s63 takes no write. -/
theorem test_s63 : givesS (site.s [(1, 5)]) (.sadd 63 1 1 false) 63 = 0 := by decide +kernel

/-- R55: a write of m0 keeps the owned lanes and changes the mask of the split. -/
theorem test_mask : givesS site (.saddi 60 63 1) 60 = 1 ∧
    ((after (exec (.saddi 60 63 1) site)).split.map Split.cur) = some 1 := by decide +kernel

/-- R23: SADDI with a CONST of 0x00_0012 adds 0x0001_2345. -/
theorem test_saddi_const :
    givesS { site with ctx := { site.ctx with ext := some 0x12 } } (.saddi 4 4 0x345) 4 = 0x12345 := by decide +kernel

/-- R103: one saturation of the exact total. -/
theorem test_vdotbs : givesV (site.v [(2, 0x64646464), (3, 0x9C9C6464), (8, 0x7FFFFF00)]) (.vdotbs 8 2 3 false) 8 =
    0x7FFFFF00 := by decide +kernel

/-- R106: the example of HFMA. -/
theorem test_hfma : givesV (site.v [(4, 0x3C004000), (5, 0x38003C00), (6, 0xBC003C00)]) (.hfma 6 4 5 false) 6 = 0xB8004200 ∧
    flagsV (site.v [(4, 0x3C004000), (5, 0x38003C00), (6, 0xBC003C00)]) (.hfma 6 4 5 false) = 0 := by decide +kernel

/-- R110: the example of XPACK6, and back. -/
theorem test_xpack6 : givesV (site.v [(2, 0x1520013F)]) (.xpack6 8 2 false) 8 = 0x0056007F ∧
    givesV (site.v [(2, 0x0056007F)]) (.xunpk6 8 2 false) 8 = 0x1520013F := by decide +kernel

/-- R112: XQNT4 of 1.1 with s = 0.25 and z = 8 gives 0xC and NX; XDQNT4 of 0xC gives 1.0. -/
theorem test_xqnt4 : givesV (site.v [(4, 0x3F8CCCCD), (5, 0x00083400)]) (.xqnt4 10 4 5 false) 10 &&& 15 = 12 ∧
    givesV (site.v [(4, 0xC), (5, 0x00083400)]) (.xdqnt4 10 4 5 false) 10 = 0x3F800000 := by decide +kernel

/-- R116: XEXP2 of 3.0 is 8.0 and XLOG2 of 8.0 is 3.0, with no flag. -/
theorem test_xexp2 : givesV (site.v [(2, 0x40400000)]) (.xexp2 3 2 false) 3 = 0x41000000 ∧
    givesV (site.v [(2, 0x41000000)]) (.xlog2 3 2 false) 3 = 0x40400000 ∧
    flagsV (site.v [(2, 0x40400000)]) (.xexp2 3 2 false) = 0 := by decide +kernel

/-- R94: the examples of the keys. -/
theorem test_keys : key16 0x0000 = 0x8000 ∧ key16 0x8000 = 0x7FFF ∧ key16 0xFC00 = 0x03FF ∧ key16 0x7E00 = 0xFFFF := by
  decide +kernel

/-- R201: the samples 2, 4 and 9 leave W 3, MEAN 5, M2 26 and N 3. -/
theorem test_estimator :
    (((EstWord.ofBytes (List.replicate 16 0)).contribute 0x40000000 0x3F800000 0).bind fun e =>
      (e.contribute 0x40800000 0x3F800000 0).bind fun e => e.contribute 0x41100000 0x3F800000 0).map
      (fun e => (e.w, e.mean, e.m2, e.n)) = some (0x40400000, 0x40A00000, 0x41D00000, 3) := by decide +kernel

/-- R204: ELD of W 8, M2 174 and N 8 gives se 0x3FE1_A073. -/
theorem test_se : ({ (EstWord.ofBytes (List.replicate 16 0)) with w := 0x41000000, m2 := 0x432E0000, n := 8 } : EstWord).se =
    0x3FE1A073 := by decide +kernel

/-- R231: replay of the first record of the example: gc 0.25, galpha 0.5, and g_T becomes 0.5. -/
theorem test_crep :
    let one : Word := 0x3F800000
    let half : Word := 0x3F000000
    (replayRecord (bytesOfWords [0xFFFFFFFF, 0, one, half, one, 0, 0, half]) [one, 0, 0, 0]).1 = [half, 0x3E800000, 0, 0] ∧
    (replayRecord (bytesOfWords [0xFFFFFFFF, 0, one, half, one, 0, 0, half]) [one, 0, 0, 0]).2 = [one, 0, 0, half, 0xFFFFFFFF] := by
  decide +kernel

/-! ## Hypotheses met

For each statement, states that meet the hypotheses of its clauses, with values at the ends of their ranges. -/

/-- An outcome that is a next state. -/
theorem next_of (o : Out) (h : (match o with | .next _ => true | .fault _ | .refused _ => false) = true) : ∃ t, o = .next t := by
  cases o with
  | next t => exact ⟨t, rfl⟩
  | fault _ => cases h
  | refused _ => cases h

/-- The thread in focus is the one that its key names. -/
theorem focus_live (s : State) (k : TKey) (hl : s.live = true) (hk : s.thr.key = k) : s.focus k = some s := by
  simp [State.focus, hl, hk]
theorem thread_live (s : State) (k : TKey) (hl : s.live = true) (hk : s.thr.key = k) : s.thread? k = some s.thr := by
  simp [State.thread?, State.allThreads, hl, hk]

/-- The part with SADD s3, s1, s2 where the next step fetches. -/
def placed : State := State.reset.withFetchWord 32 0x040C1080

/-- The split that issues there. -/
def first : Split := Split.start 0 allLanes

/-- The state in which a step issues its word: the step has been counted. -/
def stepping : State := { placed.tick with agenda := [] }

/-- StepRunsDecoded: a word, an event, a part that does not compute. -/
theorem witness_step : Issues stepping 0 first 0x040C1080 false (.sadd 3 1 2 false) where
  split := by decide +kernel
  runs := by decide +kernel
  noTrap := by decide +kernel
  ready := by decide +kernel
  noFar := by decide +kernel
  inPacket := by decide +kernel
  fetch := by decide +kernel
  alone := by decide +kernel
  decodes := by decide +kernel
  payload := by decide +kernel
  allowed := by decide +kernel
  unheld := by decide +kernel
  checked := by decide +kernel

theorem witness_stepRun : placed.agenda = [.issue ⟨0, 0⟩ 0] ∧ stepping.focus ⟨0, 0⟩ = some stepping ∧
    stepping.thread? ⟨0, 0⟩ = some placed.thr ∧ (issueOrder stepping placed.thr.issuer).head? = some (⟨0, 0⟩, 0) ∧
    (∃ t r, exec (.sadd 3 1 2 false) (issuing stepping 0 first (.sadd 3 1 2 false)) = .next t ∧ t.ctx.out ≠ .trap ∧
      exec (.sadd 3 1 2 false) (grouped (issuing stepping 0 first (.sadd 3 1 2 false)) (.sadd 3 1 2 false)) = .next r) ∧
    Machine.Instr.comes .excursionClr = true ∧ State.reset.plat.computes = false :=
  ⟨rfl, focus_live _ _ rfl rfl, thread_live _ _ rfl rfl, by decide +kernel, ⟨_, _, rfl, by decide +kernel, rfl⟩, rfl, rfl⟩

/-- StepKeepsMemory. -/
theorem witness_keeps : Safe placed ∧ ∃ t, step placed = .next t :=
  ⟨⟨by decide +kernel, by decide +kernel⟩, next_of _ (by decide +kernel)⟩

/-- WordsKeepOtherThreads. -/
theorem witness_others : Instr.isWord .nop = true ∧ ∃ t, exec .nop { site with threads := [wave] } = .next t :=
  ⟨rfl, _, rfl⟩

/-- ScalarWordsWriteTheirResult, VectorIntegerWordsWriteTheirResult. -/
theorem witness_scalar : (31 : Reg).toNat < 32 ∧ (site.s [(1, 5)]).rdS 2 = 0 ∧
    (site.s [(1, 0x80000000), (2, 0xFFFFFFFF)]).rdS 1 = 0x80000000 ∧
    (site.s [(1, 0x80000000), (2, 0xFFFFFFFF)]).rdS 2 = 0xFFFFFFFF := by decide +kernel

/-- ComparisonsAndVotesReadTheActiveLanes, ConversionWordsApplyTheirFunction, ScansAndReductionsCombineTheLanes. -/
theorem witness_lanes : (61 : Reg).toNat ≤ 61 ∧ (62 : Reg).toNat ≤ 62 ∧ site.active ≠ 0 := by decide +kernel

/-- FloatingSpecialCasesComeFirst: NaN, infinities, an infinity and a zero, a finite number, 1 − 1, zeros. -/
theorem witness_special : FFmt.fp32.read 0x7FC00000 = .nan ∧ FFmt.fp32.read 0x7F800000 = .inf false ∧
    FFmt.fp32.read 0xFF800000 = .inf (!false) ∧ FFmt.fp32.read 0x80000000 = .zero true ∧
    (FFmt.fp32.read 0x3F800000).finite = true ∧
    (∃ p q, FFmt.fp32.read 0x3F800000 = .fin p ∧ FFmt.fp32.read 0xBF800000 = .fin q ∧ p + q = 0) := by
  refine ⟨by decide +kernel, by decide +kernel, by decide +kernel, by decide +kernel, by decide +kernel, 1, -1, ?_, ?_, ?_⟩ <;>
    decide +kernel

/-- A level with its split changed, full of splits, or with a full stack. -/
def lvl (f : Split → Split) (l : Level := wave.level) : Level := { l with splits := l.splits.map (Option.map f) }
def fullSplits : Level := { wave.level with splits := Vector.replicate 4 (some { Split.start 4 3 with owned := allLanes }) }
def fullStack : Level := { fullSplits with stack := Vector.replicate 16 (some (.join 9 none 0 0)) }
def at_ (l : Level) : State := { site with thr := { wave with level := l } }

/-- ControlTransfersReachTheirTarget: an empty stack, and one with room for one entry. -/
theorem witness_transfers : site.split ≠ none ∧ (∀ k : BitVec 4, (0 : BitVec 4) ≤ k → site.thr.level.entry? k = none) ∧
    (let l : Level := { fullStack with stack := fullStack.stack.set 15 none }
     (∀ k : BitVec 4, (15 : BitVec 4) ≤ k → l.entry? k = none) ∧ l.entry? (15 - 1) ≠ none) := by decide +kernel

/-- SplitBranchesDivideTheLanes: every lane, none, some with an entry free, some with none free. -/
theorem witness_brs :
    (site.s [(20, 3)]).rdMask 20 &&& site.cur = site.cur ∧ site.rdMask 20 &&& site.cur = 0 ∧
    (let t := (site.s [(20, 1)]).rdMask 20 &&& site.cur
     t ≠ 0 ∧ t ≠ site.cur) ∧ site.thr.level.split? 1 = none ∧ site.thr.level.split? 0 ≠ none ∧
    (∀ j, fullSplits.split? j ≠ none) ∧ fullSplits.depth = (0 : BitVec 4).toNat := by decide +kernel

/-- ArrivalsReleaseOrMerge: no frame; a frame with a pending entry, one held by a split, one that merges. -/
theorem witness_arrivals :
    let framed : Level := { lvl (fun e => { e with frame := some 0 }) with stack := wave.level.stack.set 0 (some (.join 9 none 0 0)) }
    let pending : Level := { framed with stack := framed.stack.set 1 (some (.pending ⟨4, 1⟩ 2 2 (some 0))) }
    let two : Level := { framed with splits := framed.splits.set 1 (framed.splits[0]) }
    (site.thr.level.split? 0).map Split.frame = some none ∧ (framed.split? 0).map Split.frame = some (some 0) ∧
    framed.entry? 0 = some (.join 9 none 0 0) ∧ pending.entry? 1 = some (.pending ⟨4, 1⟩ 2 2 (some 0)) ∧
    (∀ k : BitVec 4, 1 < k → pending.entry? k = none) ∧
    ((framed.setSplit 0 none).setEntry 0 (some (.join 9 none 3 allLanes))).held 0 = false ∧
    ((two.setSplit 0 none).setEntry 0 (some (.join 9 none 3 allLanes))).held 0 = true := by decide +kernel

/-- A word in flight with one lane to perform, or with results known. -/
def flight (w : Work) (todo : List LaneAcc) (ready : List (Nat × Nat × Word)) : Flight :=
  { site.newFlight w 0 false 5 1 0 todo ready with id := 3 }

/-- JoinAndExit: with and without results outstanding, in trap mode, waiting. -/
theorem witness_leave :
    site.pendingResults 0 = false ∧ site.mccBusy = false ∧
    ({ site with flights := [flight .result [] [(0, 0, 1)]] } : State).pendingResults 0 = true ∧
    (site.arrive 0 0 0).thr.level.empty = true ∧ ((at_ fullSplits).arrive 0 0 0).thr.level.empty = false ∧
    ((at_ (lvl fun e => { e with wait := .join })).split.map Split.wait) = some .join ∧
    ((at_ (lvl fun e => { e with wait := .exit })).split.map Split.wait) = some .exit := by decide +kernel

/-- LoopsCountTheirBodies: the first and the last level; the end of a body of packets 2 to 4. -/
theorem witness_loops :
    let l := wave.level
    let one : Level := { l with loops := ⟨1, l.loops.len.set 0 3, l.loops.lc.set 0 2, l.loops.start.set 0 2⟩ }
    l.liveCount ≤ 1 ∧ l.hasPending = false ∧ l.loops.depth ≠ 3 ∧ one.loops.depth.toNat = (0 : Fin 3).val + 1 ∧
    (at_ one).atPacketEnd (at_ one).thr ⟨4, 1⟩ = true ∧
    (4 : Word) + 1 = one.loops.start[0] + (one.loops.len[0]).setWidth 32 ∧ one.loopBlocked = false ∧
    ({ one with splits := fullSplits.splits } : Level).loopBlocked = true ∧ one.loops.lc[0] - 1 ≠ 0 ∧
    (3 : BitVec 2).toNat = (2 : Fin 3).val + 1 := by decide +kernel

/-- RejoinTrapsHaveTheirCauses. -/
theorem witness_rejoin : site.thr.mcc = false ∧ site.thr.base = none ∧ site.thr.kern.handler ≠ none ∧ site.split ≠ none ∧
    fullStack.depth = 16 ∧ (∀ j, fullStack.split? j ≠ none) ∧ 1 < fullSplits.liveCount ∧
    (site.split.map Split.frame) = some none := by decide +kernel

/-- The wave's trap conditions as one. -/
theorem witness_canTrap : CanTrap site { Split.start 4 3 with owned := allLanes } := by
  refine ⟨rfl, rfl, ?_, ?_⟩ <;> decide +kernel

/-- A dispatch whose first workgroup is the wave's. -/
def dispatch : Dispatch :=
  { id := 0, env := wave.env, kern := wave.kern, seq := 0, node := none, args := 0, count := 2, next := 1, done := 0
    retired := [], chans := Vector.replicate 16 ⟨5, [], []⟩, groups := [] }

/-- WaitsHoldTheirSplit: a result open in class 0 and not in class 3; yields that are over; a split that has waited. -/
theorem witness_waits :
    (let s : State := { site with flights := [flight .result [] [(0, 0, 1)]] }
     ∃ f ∈ s.flights, f.outstanding s.thr.key s.ctx.sp false = true ∧ (1 : BitVec 4).getLsbD f.cls = true) ∧
    (¬ ∃ f ∈ site.flights, f.outstanding site.thr.key site.ctx.sp false = true ∧ (8 : BitVec 4).getLsbD f.cls = true) ∧
    ((at_ (lvl fun e => { e with wait := .yield 0 })).split.map Split.wait) = some (.yield 0) ∧
    (∀ x ∈ ([(⟨5, 5⟩, 0)] : List (TKey × BitVec 2)), site.yieldHeld site.thr x = false) ∧
    (let s : State := { site with dispatches := [dispatch], clock := 4096 }
     s.eligible wave 0 = true ∧ s.lowestUnfinished wave = true ∧ (s.allThreads.map Thread.key).Nodup ∧
     ∀ i, ((wave.level.split? i).map Split.since).getD 0 + 4096 ≤ s.clock) ∧
    (let w : ParkedWord := { site.parkedHere with owed := some ⟨0, [(5, 1)], []⟩ }
     w.splits.getLsbD site.ctx.sp.toNat = true) := by decide +kernel

/-- TrapsEnterOrEnd: in trap mode, an MCC thread, no handler; a wave stopped at BKPT; a POISON trap that is due. -/
theorem witness_traps :
    let inTrap : State := { site with thr := { wave with base := some (wave.level, 0) } }
    let noHandler : State := { site with thr := { wave with kern := { wave.kern with handler := none } } }
    let x : Trap := { cls := 7, cause := 1, pc := 4, slot := 0, oslot := 0, replay := false, addr := 0, lanes := 1 }
    inTrap.thr.base ≠ none ∧ noHandler.thr.kern.handler = none ∧ (placedThread 0x28000000).mcc = true ∧
    (site.settle site.ctx.sp site.ctx.next true).split ≠ none ∧
    (let s := at_ (lvl fun e => { e with due := some x })
     (s.split.bind Split.due).map Trap.cls = some 7 ∧ s.running s.thr = true) := by decide +kernel

/-- TrapReturnRestoresTheBaseLevel: an RTE that may return, one that waits, one that may not, one outside trap mode. -/
theorem witness_rte :
    let s : State := { site with thr := { wave with base := some (fullSplits, 2) } }
    s.thr.level.liveCount = 1 ∧ (∀ j, s.thr.level.entry? j = none) ∧ s.thr.level.loops.depth = 0 ∧
    s.pendingResults 0 = false ∧ ({ s with flights := [flight .result [] [(0, 0, 1)]] } : State).pendingResults 0 = true ∧
    fullSplits.split? 2 ≠ none ∧ (∀ i, ((fullSplits.split? i).bind Split.pend) = none) ∧ fullSplits.liveCount ≠ 1 ∧
    site.thr.base = none := by decide +kernel

/-- ScallAsksTrestle: released, not released, answered. -/
theorem witness_scall : site.released ⟨0, 0⟩ = true ∧
    ({ site with thr := { wave with drops := 1 } } : State).released ⟨0, 0⟩ = false ∧
    (let s := at_ (lvl fun e => { e with wait := .scall })
     s.thr.base = none ∧ s.split.map Split.wait = some .scall) := by decide +kernel

/-- The events above find their thread: it is in focus. -/
theorem witness_focus : site.focus ⟨0, 0⟩ = some site ∧ site.thread? ⟨0, 0⟩ = some wave ∧
    (let s : State := { site with thr := { wave with bkpt := some (1, 4) } }
     s.focus ⟨0, 0⟩ = some s ∧ s.thr.bkpt = some (1, 4)) ∧ ∀ l, (at_ l).focus ⟨0, 0⟩ = some (at_ l) :=
  ⟨focus_live _ _ rfl rfl, thread_live _ _ rfl rfl, ⟨focus_live _ _ rfl rfl, rfl⟩, fun _ => focus_live _ _ rfl rfl⟩

/-- A workgroup with a window on bank 1. -/
def group : Workgroup :=
  { id := 0, disp := 0, index := 0, core := 0, window := some 65536, kern := wave.kern, env := wave.env, status := .resident
    frozenAt := 0, bars := Vector.replicate 16 ⟨0, 2, 0, 0⟩, left := 0, hash := [], bank := false, saved := [], ents := []
    queue := [], far := [] }

/-- BankModesChangeWhenNotBusy, ControlRegistersTakeTheirWrites: without the grant, a busy bank, an idle one; in and out of
trap mode. -/
theorem witness_banks :
    ({ wave with env := { wave.env with policy := 0 } } : Thread).env.clmGrant = false ∧ wave.env.clmGrant = true ∧
    (let s : State := { site with groups := [group] }
     s.groups.any (fun g => clusterOf g.core == s.myCluster && g.onBank 1) = true ∧
     s.groups.any (fun g => clusterOf g.core == s.myCluster && g.onBank 0) = false) ∧
    Memory.wf (site.cluster site.myCluster).clm = true ∧ (8 : Word).getLsbD 3 = true ∧
    ((7 : Word).setWidth 2 : BitVec 2) = 3 := by decide +kernel

/-- ConversionFunctionsFollowTheirTables: each kind of value, a scale that is a number and one that is not, a boundary of each
range (65504 · 7 is the last value with a finite XAMAX scale of Q4). -/
theorem witness_conversions :
    FFmt.fp32.read 0x7FC00000 = .nan ∧ FFmt.fp32.read 0xFF800000 = .inf true ∧ FFmt.fp32.read 0x80000000 = .zero true ∧
    FFmt.fp32.read 0x3F800000 = .fin 1 ∧ FFmt.fp32.read 0xC3150000 = .fin (-149) ∧ FFmt.fp32.read 0x43000000 = .fin 128 ∧
    FFmt.fp16.read 0x3C00 = .fin 1 ∧ FFmt.fp16.read 0x7C00 = .inf false ∧ FFmt.fp16.read 0x7E00 = .nan ∧
    blockScale 0x1FC = some 1 ∧ blockScale 0x3FC = none ∧
    FFmt.fp32.read 0x48DFE400 = .fin (65504 * 7) ∧ FFmt.fp32.read 0x41180000 = .fin (19 / 2) := by
  refine ⟨?_, ?_, ?_, ?_, ?_, ?_, ?_, ?_, ?_, ?_, ?_, ?_, ?_⟩ <;> decide +kernel

/-! ### Memory -/

/-- A check of the conditions of `Clear` on a site with no lock, no replay-queue entry and no deterministic region. -/
def clearB (s : State) (k : Acc) (al : Nat) (lanes : List Nat) (va : Nat → Nat) : Bool :=
  (s.cluster s.myCluster).locks.isEmpty && s.rq.isEmpty && s.ctx.part.isNone && !s.thr.env.deterministic &&
    lanes.all (fun l => va l % al == 0 && decide (va l < 2 ^ 57) && (pageFor (va l)).permits k &&
      s.waveWalk s.thr.env.ptroot (va l) == .page (pageFor (va l)))

theorem clear_of (s : State) (k : Acc) (al n : Nat) (w : Bool) (lanes : List Nat) (va : Nat → Nat)
    (h : clearB s k al lanes va = true) : Clear s k al n w lanes va (fun l => pageFor (va l)) := by
  have site : (s.cluster s.myCluster).locks = [] ∧ s.rq = [] ∧ s.ctx.part = none ∧ s.thr.env.deterministic = false := by
    simp_all [clearB]
  have each : ∀ l ∈ lanes, (va l % al = 0 ∧ va l < 2 ^ 57) ∧ (pageFor (va l)).permits k = true ∧
      s.waveWalk s.thr.env.ptroot (va l) = .page (pageFor (va l)) := by
    simp_all [clearB, and_assoc]
  constructor
  case fresh => exact site.2.2.1
  case unlocked => intro l _ x hx; rw [site.1] at hx; cases hx
  case unheld => intro l _ e he; rw [site.2.1] at he; cases he
  case shared => intro _ h'; rw [site.2.2.2] at h'; cases h'
  all_goals intro l m
  · exact (each l m).1.1
  · exact ⟨(each l m).1.2, (each l m).2.2⟩
  · exact (each l m).2.1

/-- MemoryWordsSendTheirLanes: each size; a scalar form; the page's last bytes; a store; an atomic. -/
theorem witness_loads : Clear site .load 16 16 false [0, 1] (vecVa site 2 4) (fun l => pageFor (vecVa site 2 4 l)) :=
  clear_of _ _ _ _ _ _ _ (by decide +kernel)
theorem witness_scalarLoads : Clear site .load 1 1 false [96] (scaVa site 2 4) (fun l => pageFor (scaVa site 2 4 l)) :=
  clear_of _ _ _ _ _ _ _ (by decide +kernel)
theorem witness_lastBytes :
    let s := site.lanes [(2, [0xFFBF, 0x0])]
    vecVa s 2 4 0 = 0x1FFFF ∧ Clear s .store 1 1 true [0, 1] (vecVa s 2 4) (fun l => pageFor (vecVa s 2 4 l)) :=
  ⟨by decide +kernel, clear_of _ _ _ _ _ _ _ (by decide +kernel)⟩
theorem witness_st64 : Clear site .store 64 64 true [0, 1] (vecVa site 2 4) (fun l => pageFor (vecVa site 2 4 l)) :=
  clear_of _ _ _ _ _ _ _ (by decide +kernel)
theorem witness_atoms : Clear site .atom 8 8 true [0, 1] (vecVa site 2 4) (fun l => pageFor (vecVa site 2 4 l)) ∧
    site.holdsLadle = false ∧ lanesIn site.active = [0, 1] :=
  ⟨clear_of _ _ _ _ _ _ _ (by decide +kernel), by decide +kernel⟩

/-- A lane's access to the normal page, and to the EST, CMP and FAR pages. -/
def lane (va : Nat) (data : List Word) : LaneAcc := ⟨0, va, (pageFor va).pa, pageFor va, data, none, none, 0⟩
def flying (f : Flight) : State := { site with flights := [f] }
def loading : Flight := { flight (.load 4 false false) [lane 0x10040 []] [] with op := 2 }

/-- A flight whose one access is free to be taken. -/
theorem ready_of (s : State) (f : Flight) (a : LaneAcc) (r : Bool) (h : f.todo = [a]) (hl : a.lane < 96) (hw : a.wait = none)
    (hg : a.gated = none) (hb : s.behind f a = false ∧ s.reaches a.page f.work.size r = true) : Ready s f a r where
  left := by simp [h]
  right := by simp_all

/-- LoadsReturnTheirBytes: a load of memory, at a register and at s60 to s63; results known. -/
theorem witness_loadReturn : Ready (flying loading) loading (lane 0x10040 []) true :=
  ready_of _ _ _ _ rfl (by decide) rfl rfl (by decide +kernel)
theorem witness_loaded :
    let s := flying loading
    let k : Flight := { loading with work := .load 16 false true, scalar := true, dst := 60, count := 4 }
    (s.flight? 3).isSome ∧ loading.dst + loading.count ≤ 64 ∧ k.dst + k.count ≤ 64 ∧ s.ownWrites loading 0x100040 4 = [] ∧
    heldCopy s loading (lane 0x10040 []) 4 true = none ∧ s.poisoned 0x100040 4 = false ∧ (pageFor 0x10040).uncached = false ∧
    (pageFor 0x10040).type = .normal ∧ s.split ≠ none ∧ s.threads = [] := by decide +kernel
theorem witness_known : (∀ x ∈ (flight .result [] [(95, 0, 1)]).ready, x.1 < 96 ∧ x.2.1 < 8 ∧ 5 + x.2.1 < 64) ∧
    ((flight .result [] [(95, 0, 1)]).ready.map (fun x => (x.1, x.2.1))).Nodup := by decide +kernel

/-- A store's sector in the write queue. -/
def queued (t : PType) (st : StoreStage) : WqEntry :=
  { id := 2, op := 2, whole := false, core := 0, key := ⟨0, 0⟩, sp := 0, sector := 0x8002, bytes := [(0, 7), (31, 9)], type := t
    ds := false, va := 0x10040, hint := 0, stage := st, due := 0, stuck := false }
def queueing (e : WqEntry) : State := { site with wq := [e] }

/-- LoadsReturnTheirBytes: the load takes its bytes from its thread's queued write, which covers them. -/
def waiting : WqEntry := { queued .normal .queued with op := 1, bytes := [(0, 7), (1, 0), (2, 0), (3, 9)] }
theorem witness_forwardReady : Ready { flying loading with wq := [waiting] } loading (lane 0x10040 []) true :=
  ready_of _ _ _ _ rfl (by decide) rfl rfl (by decide +kernel)
theorem witness_forwarded :
    (State.ownWrites { flying loading with wq := [waiting] } loading 0x100040 4).getLast? = some waiting ∧
    waiting.stage = .queued ∧ waiting.forward 0x100040 4 = some [7, 0, 0, 9] ∧ (pageFor 0x10040).uncached = false := by
  decide +kernel

/-- The site with its expanders' links up. -/
def linkedUp : State := { site with plat := { site.plat with cxl0 := ⟨true, false, 15⟩, cxl1 := ⟨true, false, 15⟩ } }

/-- StoresReachTheirHome: a queued sector, a pair of an ST64, one for far memory; a held one; a revoke; an acknowledgement of
each kind. -/
theorem witness_stores :
    let e := queued .normal .queued
    let p : List WqEntry := [{ e with whole := true }, { e with whole := true, id := 4, sector := 0x8003 }]
    Memory.wf site.mem = true ∧ (queueing e).together e = [e] ∧ (queueing e).storeMayGo e = true ∧ (e.bytes.map Prod.fst).Nodup ∧
    ({ site with wq := p } : State).together (p.headD e) = p ∧ (p.map WqEntry.sector).Nodup ∧ (p.map WqEntry.id).Nodup ∧
    (let f := { queued .far .queued with sector := 2 ^ 43 }
     ({ linkedUp with wq := [f] } : State).storeMayGo f = true ∧ linkedUp.portUp (32 * f.sector) = true) := by decide +kernel
theorem witness_storesComplete :
    let e := queued .normal .queued
    ({ site with hold := [e] } : State).hold.find? (fun x => x.core == 0) = some e ∧ site.wq.countP (fun x => x.core == 0) < 64 ∧
    (queued .far (.home [])).stage = .home [] ∧ (queued .normal (.home [1])).stage = .home [1] ∧
    (queued .far (.home [])).stuck = false := by decide +kernel

/-- AtomicsReplaceOneValue: clean and poisoned; two lanes at one word; a turn at a gate. -/
def applying (todo : List LaneAcc) : Flight := { flight (.atomic 11) todo [] with op := 2, count := 2 }
theorem witness_atomicReady : let a := lane 0x10040 [1, 2]
    Ready (flying (applying [a])) (applying [a]) a false :=
  ready_of _ _ _ _ rfl (by decide) rfl rfl (by decide +kernel)
theorem witness_atomicApply :
    let a := lane 0x10040 [1, 2]
    let s := flying (applying [a])
    s.behindStore (applying [a]) a = false ∧ s.loadsBefore ⟨0, 0⟩ 2 = true ∧ a.pa % 8 = 0 ∧ a.page.pa = a.pa ∧
    (pageFor 0x10040).rec_ = false ∧ s.poisoned 0x100040 8 = false ∧
    ({ s with poison := [0x8002] } : State).poisoned 0x100040 8 = true := by decide +kernel
theorem witness_atomicPair :
    let a := lane 0x10040 [1, 2]
    let b : LaneAcc := { a with lane := 1 }
    let s := flying (applying [a, b])
    (∀ g ∈ s.flights, g.id = 3 → g = applying [a, b]) ∧ s.behind (applying [a, b]) a = false ∧ (a.lane < b.lane) ∧
    b.pa = a.pa ∧ s.reaches a.page 8 false = true := by decide +kernel

/-- AccessChecksTrapInOrder: a misaligned lane, an address that is not valid, a page that forbids the access, a lock. -/
theorem witness_checks :
    let lk : State := { site with clusters := [{ site.cluster 0 with locks := [(5, ⟨false, 0x10040, 0x10043, true, 1⟩)] }] }
    vecVa (site.lanes [(2, [1])]) 2 4 0 % 4 ≠ 0 ∧ 2 ^ 57 ≤ vecVa (site.s [(9, 0x02000000)]) 2 4 0 ∧
    (pageFor 0x20000).permits .atom = false ∧ lk.lockHit false false 0x10043 1 = some 5 ∧ lk.lockHit false true 0x10044 4 = none := by
  decide +kernel

/-- UnmappedLanesPark: lane 0 at the mapped page, lane 1 at the unmapped one. -/
theorem witness_unmapped :
    let s := site.lanes [(2, [0, 0x40000])]
    (∀ l ∈ lanesIn s.active, vecVa s 2 4 l % 4 = 0 ∧ vecVa s 2 4 l < 2 ^ 57) ∧
    s.waveWalk 0x200000 (vecVa s 2 4 0) = .page (pageFor 0x10040) ∧ s.waveWalk 0x200000 (vecVa s 2 4 1) = .fault 0 ∧
    s.rq = [] ∧ ((lanesIn s.active).map (fun l => vecVa s 2 4 l / 65536)).dedup.length ≤ 32 ∧ s.faults = [] ∧ (s.cluster s.myCluster).locks = [] ∧ s.ctx.part = none ∧ (s.split.bind Split.parked) = none := by
  decide +kernel

/-- The site with a workgroup, a window on bank 1 and a FIFO in bank 2. -/
def banks : Cluster :=
  { site.cluster 0 with
    banks := ((site.cluster 0).banks.set 1 ⟨true, false, 1⟩).set 2 ⟨false, false, 2⟩, fifos := [(2, [(9, false)])] }
def local_ : State := { site with groups := [group], clusters := [banks] }

/-- ClusterMemoryWordsReachTheirBytes: the window's last word; a FIFO with an entry; a bank that is no FIFO. -/
theorem witness_clm :
    let off : Nat := 65532
    off % 4 = 0 ∧ off + 4 ≤ local_.thr.kern.clmBytes ∧ local_.window 0 % 4 = 0 ∧ (local_.cluster 0).poison = [] ∧
    (local_.cluster local_.myCluster).locks = [] ∧ Memory.wf (local_.cluster 0).clm = true ∧
    ((local_.cluster 0).banks[(2 : Nat)]?.map Bank.mode).getD 0 = 2 ∧ (local_.cluster 0).fifo 2 = [(9, false)] ∧
    ((local_.cluster 0).banks[(0 : Nat)]?.map Bank.mode).getD 0 ≠ 2 := by decide +kernel

/-- FencesWaitThenAct: nothing outstanding; a store queued; a load outstanding. -/
theorem witness_fences : site.released ⟨0, 0⟩ = true ∧ (queueing (queued .normal .queued)).released ⟨0, 0⟩ = false ∧
    site.loadsDone ⟨0, 0⟩ = true ∧ (flying loading).loadsDone ⟨0, 0⟩ = false ∧ (site.split.bind Split.parked) = none := by
  decide +kernel

/-- RangedWordsCoverTheirLines: a range below the limit, one that reaches it; far stores open and done. -/
theorem witness_ranged :
    let line (b i : Nat) : Nat := (b / 256 * 256 + 256 * i) % 2 ^ 64
    (∀ i, i ≤ 255 → line 0x10040 i < 2 ^ 57) ∧ line (2 ^ 57 - 256) 0 < 2 ^ 57 ∧ 2 ^ 57 ≤ line (2 ^ 57 - 256) 1 ∧
    site.farStoresBefore ⟨0, 0⟩ 7 = true ∧ (queueing (queued .far (.home []))).farStoresBefore ⟨0, 0⟩ 7 = false ∧
    site.linked (pageFor 0x10040) = true ∧ site.l2.length + 0 + 1 ≤ 16 ∧ site.l2.length + 0 + 1 ≤ wave.env.l2ways := by decide +kernel

/-- BarrierWordsArriveAndWait: a first arrival of two, the last one, a second arrival in one phase. -/
theorem witness_barriers :
    let bar (x : Barrier) : State := { site with groups := [{ group with bars := group.bars.set 3 x }] }
    let full (x : Barrier) : Bool := (List.range 17).countP (fun i => (x.arrived ||| 1).getLsbD i) == x.expect && x.counter == 0
    (bar ⟨1, 2, 0, 0⟩).released ⟨0, 0⟩ = true ∧ (bar ⟨1, 2, 0, 0⟩).stage = 0 ∧ site.thr.key.ix < 17 ∧
    full ⟨1, 2, 0, 0⟩ = false ∧ full ⟨1, 2, 2, 0⟩ = true ∧ (1 : BitVec 17).getLsbD 0 = true ∧
    (bar ⟨0, 2, 0, 0⟩).thr.arrived[3]? ≠ some (some 0) ∧ site.loadsDone ⟨0, 0⟩ = true ∧
    (flying loading).loadsDone ⟨0, 0⟩ = false ∧ (flying loading).stage = 0 := by decide +kernel

/-- OrderedAppendKeepsWorkgroupOrder: workgroup 0 may claim, workgroup 1 waits, a claim made before; a parked claim. -/
theorem witness_oapp :
    let s : State := { site with dispatches := [dispatch] }
    s.dispatch? s.thr.disp = some dispatch ∧ dispatch.chans[(15 : Nat)]? = some ⟨5, [], []⟩ ∧ s.stage = 0 ∧ s.holdsLadle = false ∧
    (∀ i, i < s.thr.index.toNat → i ∈ dispatch.retired) ∧ ¬ (∀ i, i < 1 → i ∈ dispatch.retired) ∧
    (let w : ParkedWord := { site.parkedHere with stage := 7, phase := (15 : BitVec 4) ++ (1 : Reg) ++ (2 : Reg) }
     let t := at_ (lvl fun e => { e with parked := some w })
     t.live = true ∧ (t.split.bind Split.parked).map ParkedWord.stage = some 7 ∧ t.running t.thr = true) := by decide +kernel

/-- A deterministic region in record mode whose Ladle the wave holds. -/
def recEnv : Env := { wave.env with dmode := 2 }
def ladle : Ladle := ⟨some ⟨0, 0⟩, false, 0, 0, false, none, 0, false⟩
def region (e : Env) (l : Ladle) : Region :=
  { rcb := 0x300000, env := e, nextSeq := 0, runFrom := 0, nodes := [], ticket := 0, ladle := l, traceStop := false, wgCursor := 0
    visitCursor := 0, wgFallback := false, logStop := false, gates := [] }
def recorded (e : Env) (l : Ladle) : State := { site with thr := { wave with env := e }, regions := [region e l] }

/-- LadleAndGatesOrderTheirWaves: the holder in a visit and after one, another wave, a visit that is over with and without a waiter, one that is too
long; a gate that is stuck. -/
theorem witness_ladle :
    let s := recorded recEnv ladle
    let g : Gate := { addr := 0x10040, slice := 0, chain := [1], mark := none, admitted := 0, held := true, since := 0, fallback := false }
    let waiting : State := { recorded recEnv { ladle with leaving := true } with
      threads := [{ wave with key := ⟨0, 1⟩, env := recEnv, level := lvl fun e => { e with parked := some { site.parkedHere with ds := true } } }] }
    wave.env.deterministic = false ∧ site.holdsLadle = false ∧ s.region? 0x300000 = some (region recEnv ladle) ∧
    s.holdsLadle = true ∧ ladle.leaving = false ∧ (recorded recEnv { ladle with holder := none }).holdsLadle = false ∧
    (recorded recEnv { ladle with opened := true }).visitOver (region recEnv { ladle with opened := true }) ⟨0, 0⟩ = false ∧
    (s.visitOver (region recEnv ladle) ⟨0, 0⟩ = true ∧ s.ctx.part = none ∧ s.split.map Split.parked = some none) ∧
    (recorded recEnv { ladle with leaving := true }).visitOver (region recEnv { ladle with leaving := true }) ⟨0, 0⟩ = true ∧
    (recorded recEnv { ladle with leaving := true }).ladleWaiters 0x300000 = [] ∧
    (waiting.ladleWaiters 0x300000).map Thread.key = [⟨0, 1⟩] ∧
    (let r : Region := { region { wave.env with dmode := 3 } ladle with gates := [g] }
     let f := { flight (.atomic 0) [{ lane 0x10040 [1] with gated := some false }] [] with op := 2 }
     let t : State := { flying f with regions := [r], groups := [group], time := 1000000 }
     r.gate? 0x10040 = some g ∧ t.gateWaits 0x300000 0x10040 = true ∧ g.since + 1000 * r.env.reptmo ≤ t.time ∧
     ¬ (g.since + 1000 * 1 ≤ site.time) ∧ ladle.since + 2 ^ 20 ≤ ({ t with clock := 2 ^ 20 } : State).clock) := by
  decide +kernel

/-- AtomicsReplaceOneValue: a turn at the word's gate that is the workgroup's own. -/
theorem witness_turn :
    let g : Gate := { addr := 0x10040, slice := 0, chain := [2], mark := some 0, admitted := 0, held := true, since := 0, fallback := false }
    let r : Region := { region { wave.env with dmode := 3 } ladle with gates := [g] }
    let p : Page := { pageFor 0x10040 with rec_ := true }
    let a : LaneAcc := { lane 0x10040 [1, 2] with gated := some false, page := p }
    let w : Workgroup := { group with env := { wave.env with dmode := 3 } }
    let s : State := { flying (applying [a]) with regions := [r], groups := [w], dispatches := [dispatch] }
    s.group? 0 = some w ∧ s.region? w.env.rcb = some r ∧ p.ds = false ∧ s.poisoned 0x100040 8 = false ∧
    (match s.gateTurn r a.va (s.sliceOf a.pa) (s.dispatchOf ⟨0, 0⟩).1 (s.dispatchOf ⟨0, 0⟩).2 with
      | .now h => h.admitted == 1
      | .free | .later _ | .broken _ => false) = true := by decide +kernel

/-- A fault record, and a word parked on it. -/
def record (cls cause : Nat) : FaultRec := ⟨6, 0x50000, 1, 1, cls, cause, 0, 0x300000⟩
def parkedOn : State :=
  { at_ (lvl fun e => { e with parked := some { site.parkedHere with waits := [(6, 0x50000)], reads := true } }) with
    faults := [record 1 0] }
def rqEntry : RqEntry := ⟨2, 2, 0, ⟨9, 0⟩, 0, false, 0x50000, false, none, false, 0, false, [(0, 0x10040, [7])], 6, false⟩

/-- FaultAnswersReachTheirWaiters. -/
theorem witness_faults :
    parkedOn.record? 6 1 = some (record 1 0) ∧ parkedOn.plat.dutyReqs = [] ∧
    ([(0x204028, 0x140003)] : List (Nat × BitVec 64)).map Prod.fst = [0x204028] ∧ parkedOn.threads = [] ∧
    (parkedOn.split.bind Split.parked).map ParkedWord.waits = some [(6, 0x50000)] ∧
    (∀ k x, k ≠ 0 → parkedOn.thr.level.split? k = some x → x.parked = none) ∧
    (let s : State := { parkedOn with rq := [rqEntry], threads := [{ wave with key := ⟨9, 0⟩ }] }
     s.group? 9 = none ∧ s.thread? ⟨9, 0⟩ ≠ none ∧ s.waveWalk 0x200000 0x10040 = .page (pageFor 0x10040) ∧
     (pageFor 0x10040).ro = false) := by
  refine ⟨by decide +kernel, rfl, rfl, rfl, by decide +kernel, ?_, by decide +kernel, ?_, by decide +kernel, by decide +kernel⟩
  · intro k x hk h
    have : ∀ k : BitVec 2, k ≠ 0 → parkedOn.thr.level.split? k = none := by decide +kernel
    simp [this k hk] at h
  · intro h
    have : (({ parkedOn with rq := [rqEntry], threads := [{ wave with key := ⟨9, 0⟩ }] } : State).thread? ⟨9, 0⟩).isSome = true := by
      decide +kernel
    rw [h] at this
    cases this

/-- FaultAnswersReachTheirWaiters: a store of the wave that waits when its record is denied. -/
theorem witness_denied :
    let x := { rqEntry with key := ⟨0, 0⟩ }
    let s : State := { site with faults := [record 1 0], rq := [x] }
    s.record? 6 1 = some (record 1 0) ∧ s.swappedOut s.thr = false ∧ x.waits = 6 ∧ x.ladle = false ∧ x.inBase = false ∧
    (s.split.bind Split.due) = none ∧ (s.split.map Split.words) = some [] ∧ (s.split.map Split.wait) = some .none ∧
    ∀ k : BitVec 2, k ≠ 0 → s.thr.level.split? k = none := by decide +kernel

/-- FarFaultsAndSoftErrorsPoison: a FAR record; a far store that joins an entry, makes one, or finds the queue full; a far load;
addresses inside and outside the map. -/
theorem witness_far :
    let f := { loading with todo := [lane 0x40000 []] }
    let e := queued .far (.home [])
    let mine : RqEntry := { rqEntry with key := ⟨0, 0⟩, page := 0x10000, far := true }
    let joins (x : RqEntry) : Bool := x.key == e.key && x.op == e.op && x.page == blockOf e.va && x.far && x.work.isNone
    ({ site with faults := [record 2 2] } : State).record? 6 2 = some (record 2 2) ∧
    (queueing e).wq.find? (fun x => x.core == 0 && x.id == 2) = some e ∧ e.stage ≠ .queued ∧ e.stuck = false ∧ e.due ≤ site.time ∧
    ({ e with due := 1 } : WqEntry).due > site.time ∧ site.rq.find? joins = none ∧ [mine].find? joins = some mine ∧
    32 ≤ (List.replicate 32 rqEntry).countP (fun x => x.core == e.core) ∧ (List.replicate 32 rqEntry).find? joins = none ∧
    (pageFor 0x40000).type = .far ∧ f.todo.map LaneAcc.wait = [none] ∧ site.l2 = [] ∧ ((flying f).flights.map Flight.id).Nodup ∧
    inMap site.plat.win.toNat (12 * 2 ^ 36 - 1) = true ∧ inMap site.plat.win.toNat (12 * 2 ^ 36) = false := by decide +kernel

/-! ### Accumulators, the sampler, rays, draws -/

/-- A block of `n` bytes with fields: offset, size, value. -/
def block (n : Nat) (fields : List (Nat × Nat × Nat)) : List Byte :=
  fields.foldl (fun b (o, k, v) => b.take o ++ bytesOfNat k v ++ b.drop (o + k)) (List.replicate n 0)

/-- The site with bytes at virtual 0x1_0040, and a root RCB. -/
def holding (b : List Byte) : State := { site with mem := cellsWrite (cellsWrite memory 0x300008 (bytesOfNat 8 0x200000)) 0x100040 b }

/-- AccumulatorWordsSendTheirLanes: EST, EGEN to the end of the page, reads, CMP, CREP. -/
theorem witness_accumulators :
    Clear site .estAdd 16 16 true [0, 1] (vecVa site 2 5) (fun l => pageFor (vecVa site 2 5 l)) ∧
    Clear site .estRead 16 16 false [0, 1] (vecVa site 2 5) (fun l => pageFor (vecVa site 2 5 l)) ∧
    Clear site .cmpAdd 32 32 true [0, 1] (vecVa site 2 6) (fun l => pageFor (vecVa site 2 6 l)) ∧
    Clear site .cmpRead 32 32 false [0, 1] (vecVa site 2 6) (fun l => pageFor (vecVa site 2 6 l)) ∧
    Clear site .store 64 64 true [0, 1] (vecVa site 2 4) (fun l => pageFor (vecVa site 2 4 l)) :=
  ⟨clear_of _ _ _ _ _ _ _ (by decide +kernel), clear_of _ _ _ _ _ _ _ (by decide +kernel),
    clear_of _ _ _ _ _ _ _ (by decide +kernel), clear_of _ _ _ _ _ _ _ (by decide +kernel),
    clear_of _ _ _ _ _ _ _ (by decide +kernel)⟩
theorem witness_egen :
    let s := site.lanes [(2, [0xFFF0, 0]), (4, [0x0005, 0x0FFF0005])]
    (∀ l ∈ lanesIn s.active, vecVa s 2 5 l % 65536 + 16 * ((laneOf (s.rdV 4) l).toNat / 65536 + 1) ≤ 65536) ∧
    (pageFor 0x20000).size = 65536 ∧ (pageFor 0x10040).type = .normal := by decide +kernel

/-- ContributionsFollowTheirSteps: samples that are not finite, a negative weight, newer and older generations, no weight. -/
theorem witness_contributions :
    notFinite32 0x7F800000 = true ∧ below0 0xBF800000 = true ∧ notFinite32 0x3F800000 = false ∧ below0 0x3F800000 = false ∧
    (2047 + 4096 - 0) % 4096 = 2047 ∧ (0 + 4096 - 2048) % 4096 = 2048 ∧ isZero32 (age 1 (15 * (4096 - 2048))) = true ∧
    isZero32 0 = true ∧ isZero32 0x3F800000 = false := by decide +kernel

/-- EstimatorUpdatesReplaceOneWord: each kind of update, a poisoned word, a discard to acknowledge. -/
theorem witness_updates :
    let f (w : Work) : Flight := { flight w [lane 0x20000 [0x3F800000, 1, 0, 0]] [] with op := 2 }
    (∀ w ∈ [Work.estAdd 0, .estAdd 1, .estAdd 2, .estMerge, .estGen],
      (flying (f w)).estReady (f w) (lane 0x20000 [0x3F800000, 1, 0, 0]) = true) ∧
    (flying (f .estMerge)).poisoned 0x120000 16 = false ∧
    ({ site with poison := [0x9000] } : State).poisoned 0x120000 16 = true ∧ ({ wave with drops := 1 } : Thread).drops ≠ 0 := by
  decide +kernel

/-- EstimatorUpdatesReplaceOneWord: two lanes at one word; an update behind an earlier one at the same slice. -/
theorem witness_updatesOrder :
    let a := lane 0x20000 [0x3F800000]
    let b : LaneAcc := { a with lane := 1 }
    let f : Flight := { flight (.estAdd 0) [a, b] [] with op := 2 }
    let late : Flight := { flight (.estAdd 0) [a] [] with id := 5, op := 4 }
    (flying f).estReady f a = true ∧ (f.todo.map LaneAcc.lane).Pairwise (· < ·) ∧ b.pa = a.pa ∧ site.stale = [] ∧
    f.key = late.key ∧ f.op < late.op ∧ a.pa % 16 = 0 := by decide +kernel

/-- CompositingTermsFoldInDepthOrder: a term, a NaN, a closed word, an entry whose window is over and one that is held; terms of
two lanes. -/
theorem witness_terms :
    let a := lane 0x30000 [0x3F800000, 0, 0, 0, 0]
    let f : Flight := { flight .cmpTerm [a] [] with op := 2 }
    let e : CrucEntry := ⟨0x3F800000, 0, 0, 0, 0, 0⟩
    let s : State := { flying f with crucible := [(0x130000, [e])], clock := 256 }
    (flying f).behind f a = false ∧ (flying f).behindStore f a = false ∧ (flying f).poisoned 0x130000 32 = false ∧
    (termOf a.data).nan = false ∧ (termOf [0x7FC00000]).nan = true ∧ (flying f).crucible = [] ∧ (flying f).stale = [] ∧
    ((CmpWord.ofBytes (block 32 [(26, 2, 1)])).flg.getLsbD 0) = true ∧ (CmpWord.ofBytes (block 32 [])).flg.getLsbD 0 = false ∧
    s.buffered 0x130000 = [e] ∧ (s.slotOf 0).lflags.getLsbD 0 = false ∧ e.clock + max 1 (s.slotOf 0).hold = s.clock ∧
    ({ s with clock := 255 } : State).holdOver 0x130000 = false ∧ (0x130000 : Nat) % 32 = 0 ∧
    ({ s with clock := 255 } : State).clock < e.clock + max 1 (s.slotOf 0).hold ∧ a.page.ds = false := by decide +kernel
theorem witness_termLanes :
    let a := lane 0x30000 [0x40000000, 0, 0, 0, 0]
    let b : LaneAcc := { lane 0x30000 [0x3F800000, 0, 0, 0, 0] with lane := 95 }
    let f : Flight := { flight .cmpTerm [a, b] [] with op := 2 }
    (f.todo.map LaneAcc.lane).Pairwise (· < ·) ∧ (flying f).behind f a = false ∧ (flying f).behindStore f a = false ∧
    f.todo.length ≤ min 8 (max 1 ((flying f).slotOf 0).hold) ∧ b.pa = a.pa := by decide +kernel

/-- AccumulatorReadsReturnTheirValue: reads of the EST and of the CMP page, a replayed record. -/
theorem witness_reads :
    let read (w : Work) (va : Nat) : Flight := { flight w [lane va []] [] with op := 2, dst := 59, count := 5 }
    Ready (flying (read (.estLoad false) 0x20000)) (read (.estLoad false) 0x20000) (lane 0x20000 []) true ∧
    Ready (flying (read .cmpLoad 0x30000)) (read .cmpLoad 0x30000) (lane 0x30000 []) true :=
  ⟨ready_of _ _ _ _ rfl (by decide) rfl rfl (by decide +kernel), ready_of _ _ _ _ rfl (by decide) rfl rfl (by decide +kernel)⟩
theorem witness_replay :
    let a := lane 0x10040 [0x3F800000, 0, 0, 0]
    let f : Flight := { flight .crep [a] [] with op := 2, count := 5 }
    (flying f).behindStore f a = false ∧ (flying f).loadsBefore f.key f.op = true ∧ (flying f).poisoned a.pa 64 = false ∧
    (flying f).ownWrites f a.pa 16 = [] ∧ (59 + 5 : Nat) ≤ 64 ∧ (flying f).behind f a = false ∧
    (flying f).reaches a.page f.work.size false = true := by decide +kernel

/-- A control block at 0x1_0040 can be read. -/
theorem reads_of (s : State) (al n : Nat) (h : clearB s .load al [96] (fun _ => 0x10040) = true)
    (ha : s.storesAhead 0x10040 (pageFor 0x10040).pa n = false) (hp : s.poisoned (pageFor 0x10040).pa n = false) :
    Reads s 0x10040 al n (pageFor 0x10040) := ⟨clear_of _ _ _ _ _ _ _ h, ha, hp⟩

/-- SlotAndWatchWordsAnswerTheirCodes: without grants, with a number too high, with descriptors right and wrong. -/
def slotBlock : List Byte := block 64 [(0, 4, 0x3B800000), (4, 4, 1023)]
def watchBlock : List Byte := block 64 [(0, 8, 0x20000), (8, 4, 64), (12, 4, 0x3F800000), (16, 4, 65535), (24, 4, 10), (32, 8, 0x10100)]
def header : List Byte := block 64 [(0, 4, 0x4C425444), (4, 2, 1)]
def node : NodeQueue :=
  { image := 1, kern := wave.kern, recBytes := 16, cap := 4, timer := 5, headCache := false, ring := 0x10100, appended := 1
    freed := 0, released := [], taken := 0, ages := [0], solo := [], stream := none }
def noded : State := { holding [] with regions := [{ region wave.env ladle with nodes := [node] }] }
theorem witness_slots :
    ({ wave.env with policy := 0 } : Env).cmpGrant = false ∧ ({ wave.env with policy := 0 } : Env).dtGrant = false ∧
    wave.env.cmpGrant = true ∧ wave.env.dtGrant = true ∧ 63 < ((site.s [(3, 64)]).rdS 3).toNat ∧
    (site.s [(3, 63)]).rdS 3 = BitVec.ofNat 32 (63 : Fin 64) ∧ slotOk slotBlock = true ∧ slotOk (block 64 [(0, 4, 0x7FC00000)]) = false ∧
    headerOk header = true ∧ headerOk (block 64 []) = false ∧ watchOk watchBlock = true ∧ watchOk (block 64 []) = false ∧
    site.allNormal 0x200000 0x10100 1 = true ∧ site.allNormal 0x200000 0x20000 1 = false ∧
    (noded.node? 0x300000 (noded.imageNode wave.kern 0)).map NodeQueue.recBytes = some 16 ∧ site.watches = [] ∧
    scaVa site 2 4 0 = 0x10040 ∧ (holding slotBlock).homeRead 0x100040 64 = slotBlock := by decide +kernel
theorem witness_slotBlock : Reads (holding slotBlock) 0x10040 64 64 (pageFor 0x10040) :=
  reads_of _ _ _ (by decide +kernel) (by decide +kernel) (by decide +kernel)
theorem witness_watches :
    let w : Watch := { handle := 255, env := wave.env, base := 0x20000, count := 128, tse := 0x3F800000, tn := 1, node := 0
                       outmap := 0, period := 10, started := 0, sweep := 0, tile := 0, running := false, raised := 0, skipped := false }
    ({ site with watches := [w] } : State).watches.find? (fun v => v.handle == w.handle) = some w ∧
    w.started + 1000 * w.period * (w.sweep + 1) ≤ 10000 ∧ ¬ (w.running = true ∨ w.started + 1000 * w.period * (w.sweep + 1) ≤ 9999) ∧
    w.tile + 1 < w.count / 64 ∧ site.tileWords w.env (w.base + 1024 * w.tile) ≠ none ∧
    site.tileWords w.env 0x50000 = none := by decide +kernel

/-- SamplingWordsReturnTheirTexels: a texture of one texel, a LATENT one with its slot bound and unbound, a bad descriptor. -/
def texture (fmt : Nat) : List Byte := block 64 [(0, 8, 0x10100), (8, 4, 1), (12, 4, 1), (16, 1, 1), (17, 1, fmt), (19, 1, 1)]
theorem witness_descriptor : Described (holding (texture 0)) 4 (pageFor 0x10040) where
  aligned := by decide +kernel
  mapped := by decide +kernel
  normal := by decide +kernel
  clean := by decide +kernel
  cache := by intro l hl; have : ((holding (texture 0)).coreOf (holding (texture 0)).thr.core).sampler = [] := by decide +kernel
              rw [this] at hl; cases hl
  settled := by decide +kernel
  fresh := rfl
def texel : Tex :=
  { base := 0x10100, width := 1, height := 1, levels := 1, fmt := 0, umode := 0, vmode := 0, aniso := 1, dslot := 0
    soft := false, clamp := false, border := [0, 0, 0, 0] }
theorem witness_texture : Tex.ofBytes (texture 0) = some texel ∧ (Tex.ofBytes (texture 4)).map Tex.fmt = some 4 ∧
    Tex.ofBytes (block 64 []) = none := by decide +kernel
theorem witness_taps : texel.taps 0 [0, 0, 0] = [.texel 0 0 0] ∧ texel.addr 0 0 0 = 0x10100 ∧ texel.bytes = 4 ∧
    (holding (texture 0)).waveWalk 0x200000 0x10100 = .page (pageFor 0x10100) ∧ (pageFor 0x10100).type = .normal ∧
    (holding (texture 0)).poisoned (pageFor 0x10100).pa 4 = false := by decide +kernel
theorem witness_sampling :
    let s := holding (texture 0)
    s.active ≠ 0 ∧ s.tables[(0 : Nat)]? = some ⟨false, 0, 0⟩ ∧ (s.base 4).toNat % 64 = 0 ∧
    ((site.s [(8, 1)]).base 4).toNat % 64 ≠ 0 ∧ 2 ^ 57 ≤ ((site.s [(9, 0x02000000)]).base 4).toNat ∧
    (s.coreOf s.thr.core).tables = [] := by decide +kernel

/-- RaysSendTheirLanesAndReturn: a scene; a call of the greatest depth and one too deep; a ray that is not valid. -/
def scene : List Byte := block 64 [(8, 4, 1)]
theorem witness_rays :
    (Scene.ofBytes scene).isSome ∧ Scene.ofBytes (block 64 []) = none ∧ (53 : Reg).toNat ≤ 53 ∧ (8 : Reg).toNat ≤ site.thr.kern.payregs ∧
    (64 : Nat) ≤ site.thr.kern.spill ∧ wave.kern.depth < 4 + 1 ∧ 3 + 1 ≤ wave.kern.depth ∧
    Ray.ofWords (List.replicate 8 0x7FC00000) = none ∧ (61 : Reg).toNat ≤ 61 ∧
    (Ray.ofWords [0, 0, 0, 0x3F800000, 0, 0, 0, 0x7F800000]).isSome = true ∧
    ((Scene.ofBytes scene).map (fun sc => (site.traverse wave.env false sc false [0, 0, 0, 0x3F800000, 0, 0, 0, 0x7F800000] none 9).2) =
      some (.absent 0 0 ⟨[⟨0, false, 0⟩], none, 0⟩)) ∧
    (let f : Flight := { flight (.ray 0 0 scene) [] [(95, 0, 1)] with op := 2, count := 6, dst := 58 }
     f.dst + f.count ≤ 64 ∧ ∀ x ∈ f.ready, x.1 < 96) := by
  decide +kernel

/-- TriangleHitsAreExact: a triangle that a ray meets, one that lies along it. -/
theorem witness_triangle :
    let r : Ray := ⟨⟨1 / 4, 1 / 4, -1⟩, ⟨0, 0, 1⟩, 0, none⟩
    let l : Leaf := ⟨some (⟨0, 0, 0⟩, ⟨1, 0, 0⟩, ⟨0, 1, 0⟩), 7, 8, 9⟩
    let flat : Leaf := ⟨some (⟨0, 0, 0⟩, ⟨0, 0, 1⟩, ⟨1, 0, 0⟩), 7, 8, 9⟩
    (r.trihit false 0 l).map (fun h => (h.t, h.b1, h.b2, h.prim)) = some (1, 1 / 4, 1 / 4, 7) ∧ r.trihit false 0 flat = none := by
  decide +kernel

/-- DrawsRunToTheirEnd: a draw that may start, one that is malformed, a draw's triangles and its one tile. -/
def drawBlock : List Byte :=
  block 64 [(0, 8, 0x10200), (8, 8, 0x10300), (16, 4, 1), (20, 2, 1), (22, 2, 1), (24, 8, 0x11000), (36, 4, 1), (40, 4, 3)]
def draw (next : Nat) : Draw :=
  { id := 3, env := wave.env, ticket := 0, desc := drawBlock, node := 0, next := next, counts := [], tiles := [], full := false, bad := false, denied := false
    ended := false, cluster := 0, waits := [] }
def drawing (next : Nat) : State := { noded with draws := [draw next], mem := cellsWrite memory 0x100040 drawBlock }
theorem witness_draws :
    noded.drawOk drawBlock = true ∧ noded.drawOk (block 64 []) = false ∧ noded.released ⟨0, 0⟩ = true ∧
    (noded.draws.countP (fun x => x.env.rcb == 0x300000 && !x.ended)) < 16 ∧
    (drawing 0).draws.find? (fun x => x.id == 3) = some (draw 0) ∧ (draw 0).waits = [] ∧ (draw 0).full = false ∧
    (∀ va ∈ blocksOf ((draw 0).f 24 8) (draw 0).visBytes, ((drawing 0).pageAt 0x200000 va).isSome = true) ∧
    (match (drawing 1).fetchTriangle (draw 1) 0 with | .vertices _ _ _ | .discard => true | .wait .. | .poison => false) = true ∧
    (drawing 0).draws.reverse.find? (fun x => x.env.rcb == 0x300000 && x.ticket == (drawing 0).rdS 3) = some (draw 0) := by
  decide +kernel
theorem witness_tiles :
    let d : Draw := { draw 2 with counts := [(0, 96)] }
    d.ntri < d.next ∧ 0 < d.tileCount ∧ 0 ∉ d.tiles ∧ d.counts.find? (fun c => c.1 == 0) = some (0, 96) ∧
    (∀ c ∈ (draw 2).counts, c.1 ≠ 0) ∧ (drawing 2).node? 0x300000 0 = some node ∧ node.hasRoom = true ∧
    ({ node with appended := 4 } : NodeQueue).hasRoom = false ∧ node.slotVa node.appended % 16 = 0 ∧
    (drawing 2).pageAt 0x200000 (node.slotVa node.appended) = some (pageFor 0x10110) ∧ (pageFor 0x10110).ro = false ∧
    Memory.wf (drawing 2).mem = true ∧ (d.tiles.length + 1 = d.tileCount) := by decide +kernel
theorem witness_pixel :
    let s : State := { drawing 2 with mem := cellsWrite (drawing 2).mem 0x101000 (block 16 [(0, 4, 5), (12, 4, 0x3F800000)]) }
    s.pageAt 0x200000 0x11000 = some (pageFor 0x11000) ∧ (pageFor 0x11000).ro = false ∧
    FFmt.fp32.read (wordAt (s.homeRead 0x101000 16) 12) = .fin 1 ∧ rat32 0x3F000000 < 1 ∧ ¬ (rat32 0x40000000 < 1) ∧
    rat32 0x3F800000 = 1 ∧ fieldAt (s.homeRead 0x101000 16) 0 4 = 5 := by decide +kernel
theorem witness_fragment :
    (fragAt ⟨0, 0, 0, 1⟩ ⟨2, 0, 0, 1⟩ ⟨0, 2, 0, 1⟩ 0 0).isSome = true ∧
    (({ site with mem := putEntry memory 0x204028 0x140013 } : State).pageAt 0x200000 0x50000).map Page.ro = some true := by
  decide +kernel

/-! ### Work, engines, the platform -/

/-- LaunchedWorkgroupsRunAndRetire: a launch block right and wrong, a kernel that is known, queues with room and full. -/
def launchBlock : List Byte := block 32 [(0, 8, 0x77), (16, 4, 5)]
def kernel : Kern := { wave.kern with kdesc := 0x77, image := 1 }
def image : Image :=
  { handle := 1, client := 0, tag := 9, rcb := 0x300000, base := 0x10000, bytes := 64, loading := false, kerns := [kernel]
    nodes := [0], templates := [], made := [] }
def launching : State := { holding launchBlock with images := [image], regions := [region wave.env ladle] }
theorem witness_launchBlock : Reads launching 0x10040 32 32 (pageFor 0x10040) :=
  reads_of _ _ _ (by decide +kernel) (by decide +kernel) (by decide +kernel)
theorem witness_launch :
    (launching.base 4).toNat = 0x10040 ∧ launching.released ⟨0, 0⟩ = true ∧
    (launching.findKern 0x200000 0x77).map Prod.snd = some kernel ∧ launching.findKern 0x200000 0x78 = none ∧
    kernel.template = none ∧ kernel.input = none ∧ ({ kernel with input := some 0 } : Kern).input ≠ none ∧
    (launching.resolveEnv 0x300000).map Env.rcb = some 0x300000 ∧ fieldAt launchBlock 16 4 ≠ 0 ∧ fieldAt launchBlock 20 4 = 0 ∧
    launching.doneOk 0x200000 (fieldAt launchBlock 24 8) = true ∧ launching.doneOk 0x200000 2 = false ∧
    launching.dispatches.countP (fun x => x.env.rcb == 0x300000 && x.node.isNone) < 256 ∧
    launching.homeRead 0x100040 32 = launchBlock := by decide +kernel

/-- A kernel with a region template, before and after the launching region has its copy. -/
theorem witness_template :
    let k : Kern := { kernel with template := some 0 }
    let i : Image := { image with kerns := [k], templates := [block 256 []] }
    let s : State := { launching with images := [i] }
    (s.findKern 0x200000 0x77).map (fun x => x.2.template) = some (some 0) ∧ i.copyFor 0 0x300000 = none ∧
    ({ i with made := [(0, 0x300000, 0x300100)] } : Image).copyFor 0 0x300000 = some 0x300100 := by decide +kernel
theorem witness_nodes :
    let q : NodeQueue := { node with appended := 2, taken := 1 }
    noded.node? 0x300000 0 = some node ∧ noded.node? 0x300000 1 = none ∧ noded.thr.env.deterministic = false ∧
    (60 : Reg).toNat + node.recBytes / 4 - 1 ≤ 63 ∧ 63 < (61 : Reg).toNat + node.recBytes / 4 - 1 ∧
    node.appended - node.freed + (lanesIn noded.active).length ≤ node.cap ∧
    ({ node with appended := 4 } : NodeQueue).cap ≤ ({ node with appended := 4 } : NodeQueue).appended - node.freed ∧
    q.taken < q.appended ∧ q.ages.headD 0 + q.timer ≤ 5 ∧ 4 < q.ages.headD 0 + q.timer ∧ q.full = false ∧ 0 < q.kern.waves ∧
    noded.streamReplays 0x300000 node = false ∧ noded.plat.duty.getLsbD 4 = false := by decide +kernel

/-- A part with a dispatch that waits for its next workgroup; one with a saved workgroup. -/
def placing : State := { site with live := false, dispatches := [{ dispatch with kern := { wave.kern with clmBytes := 0 } }] }
def savedGroup : Workgroup := { group with window := none, kern := { wave.kern with clmBytes := 0 }, status := .saved 0x500000, saved := [wave] }
theorem witness_place :
    (match placing.nextPlacement with | some (.fresh d, p) => d.id == 0 && d.node.isNone && p.core == 0 | _ => false) = true ∧
    (∀ r ∈ placing.regions, r.replays = false) ∧ wave.kern.waves ≤ 16 ∧
    ({ placing with plat := Platform.reset } : State).plat.computes = false ∧
    (match ({ site with live := false, groups := [savedGroup] } : State).nextPlacement with
      | some (.saved g, p) => g.id == 0 && site.entsFit g p | _ => false) = true := by decide +kernel
theorem witness_retire :
    let g : Workgroup := { group with window := none, left := 1 }
    let s : State := { site with groups := [g], dispatches := [dispatch] }
    s.group? 0 = some g ∧ g.placed = true ∧ s.dispatch? 0 = some dispatch ∧ g.env.deterministic = false ∧ g.allLeft = true ∧
    group.allLeft = false ∧ s.groupBusy g = false ∧ dispatch.retired.length + 1 ≠ dispatch.count ∧
    ([0] : List Nat).length + 1 = dispatch.count := by decide +kernel

/-- PreemptionKeepsTheContext. -/
theorem witness_preempt :
    let d : Dispatch := { dispatch with id := 5, seq := 1, env := { wave.env with prio := 3 }, kern := { wave.kern with clmBytes := 0 } }
    let s : State := { site with groups := [group], dispatches := [dispatch, d] }
    let f : Workgroup := { group with status := .frozen }
    let b : Workgroup := { group with id := 1, index := 1, status := .shadow, bank := true }
    let v : Workgroup := { group with id := 2, index := 1 }
    s.startRule d = .free ∧ (s.dispatches.find? (fun x => x.env.rcb == d.env.rcb && x.seq.toNat == d.seq.toNat && x.ready)) = some d ∧
    (s.shadowSpot d 0).isSome = true ∧
    (let t : State := { site with groups := [b, f], dispatches := [dispatch], clock := 4096 }
     t.groups.find? (fun g => g.core == 0 && g.status == .shadow) = some b ∧ t.isLowest f = true ∧ f.frozenAt + 4096 ≤ t.clock) ∧
    inHbm site.plat.win.toNat 0x500000 = true ∧
    (let wide : Dispatch := { d with kern := { wave.kern with clmBytes := 2 ^ 22 }, next := 0 }
     ({ site with groups := [v], dispatches := [dispatch, wide] } : State).mayPreempt v = true) ∧ site.keepsResident b = false ∧
    ({ site with live := false, groups := [{ group with status := .saving 0x500000, window := none }] } : State).drained 0 = true ∧
    ({ flying loading with groups := [{ group with status := .saving 0x500000 }] } : State).drained 0 = false ∧
    (region recEnv ladle).env.dmode = 2 := by decide +kernel

/-- MatrixOperationsComplete: words that post, entries that are ready, granted, landed; a format set; an MVNB. -/
def resv (fn : Nat) (granted : Bool) : Resv :=
  { id := 6, key := ⟨0, 16⟩, fn := fn, tile := 31, zero := false, offA := 0, offB := 0x1000, ctl := 0, fmt := MFormat.start
    cls := 0, win := 65536, granted := granted, landed := false }
def engine (r : Resv) : State := { local_ with clusters := [{ banks with resv := [r], locks := [(63, Lock.clmRange 6 65536 0 4096 true)] }] }
def formats : List Byte := block 32 [(0, 1, 1), (4, 1, 1)]
theorem witness_matrix :
    local_.mldfBusy = false ∧ (MFormat.ofBytes formats).isSome = true ∧ MFormat.ofBytes (block 32 [(0, 1, 15)]) = none ∧
    (∀ x ∈ (resv 1 false).ranges, x.1 + x.2.1 ≤ local_.thr.kern.clmBytes) ∧ (0x1000 : Word).toNat % 256 = 0 ∧
    (local_.cluster 0).lockRoom (resv 1 false).locks = true ∧ (local_.cluster 0).resv.length < 16 ∧
    drainCtlOk 0 = true ∧ fillCtlOk 2 = true ∧
    ((engine (resv 5 false)).cluster 0).resvReady (resv 5 false) = true ∧
    ((engine (resv 5 true)).cluster 0).resv.find? (fun x => x.id == 6) = some (resv 5 true) ∧
    (resv 5 true).ctl.getLsbD 10 = false ∧ Memory.wf ((engine (resv 5 true)).cluster 0).clm = true ∧
    ((engine (resv 5 true)).cluster 0).locks.find? (fun x => x.1 == 63) = some (63, Lock.clmRange 6 65536 0 4096 true) ∧
    local_.window 0 = 65536 := by decide +kernel
theorem witness_format : ReadsClm local_ 0 32 32 where
  left := by decide
  right := by
    refine ⟨by decide +kernel, fun x hx => ?_, by decide +kernel⟩
    have : (local_.cluster local_.myCluster).locks = [] := by decide +kernel
    rw [this] at hx
    cases hx
def product : List Byte :=
  block 64 [(0, 8, 0x10100), (24, 4, 1), (28, 4, 128), (32, 4, 256), (36, 1, 3), (39, 1, 1), (40, 4, 0), (44, 4, 1024)]
theorem witness_mvnb :
    mvnbOk product = true ∧ mvnbOk (block 64 []) = false ∧ (∀ x ∈ mvWindow product, x.1 + x.2.1 ≤ local_.thr.kern.clmBytes) ∧
    mvRanges product ≠ [] ∧ fieldAt product 48 4 / 2 % 2 = 0 ∧
    (let m : Mvnb := ⟨6, ⟨0, 16⟩, product, 65536, [], false⟩
     ({ banks with mvnb := [m] } : Cluster).mvnb.find? (fun x => x.id == 6) = some m) := by decide +kernel

/-- HamperOperationsRunToTheirEnd: a descriptor and a command, right and wrong; batches; the lock table; operations that
start, land, share. -/
def boxDesc : List Byte := block 128 [(0, 8, 0x10100), (8, 1, 2), (9, 1, 0)]
def boxCommand : List Byte := block 64 ((List.range 5).map (fun i => (20 + 2 * i, 2, 1)))
theorem witness_copy :
    descOk boxDesc = true ∧ commandOk 0 boxCommand = true ∧ (Copy.read boxDesc boxCommand).consistent 0 = true ∧
    descOk (block 128 [(8, 1, 6)]) = false ∧ (Copy.read boxDesc boxCommand).off + (Copy.read boxDesc boxCommand).imageBytes ≤ 65536 ∧
    local_.receivers (Copy.read boxDesc boxCommand) = some [] := by decide +kernel
def copying (fn : Nat) (started : Bool) : HamperOp :=
  { id := 6, key := ⟨0, 0⟩, sp := 0, word := 6, fn := fn, command := boxCommand, desc := boxDesc, hint := 0, dst := 5, root := 0x200000
    rcb := 0x300000, win := 65536, locked := false, started := started, image := some [1, 2, 3, 4], shares := [0], landed := false
    waits := [], denied := [], lines := [] }
def copies (o : HamperOp) : State := { local_ with clusters := [{ banks with hamper := [o] }] }
theorem witness_hamper :
    (copies (copying 1 false)).clusters.findSome? (fun c => (c.hamper.find? (fun x => x.key == (⟨0, 0⟩ : TKey) && x.sp == 0 && !x.started)).map
      (fun x => (c.id, x))) = some (0, copying 1 false) ∧
    (∀ k ∈ ((copies (copying 1 false)).hamperLocks 0 (copying 1 false)).map Prod.fst, k = 0) ∧
    (banks.lockRoom (((copies (copying 1 false)).hamperLocks 0 (copying 1 false)).map Prod.snd)) = true ∧
    ((copies (copying 0 true)).cluster 0).hamper.find? (fun x => x.id == 6) = some (copying 0 true) ∧ group.status = .resident ∧
    group.window = some 65536 ∧ clusterOf group.core = 0 ∧ (copying 0 true).copy.bar = none ∧ group.id ∈ (copying 2 true).shares ∧
    local_.group? 0 = some group := by decide +kernel
theorem witness_batches :
    let t : Thread := { wave with ctl := { wave.ctl with hbatch := 3 }, batches := [⟨2, [6]⟩] }
    t.mcc = false ∧ (t.ctl.hbatch - (2 : Word)).toNat < 2 ^ 31 ∧ (site.split.bind Split.parked) = none ∧
    (∃ b ∈ t.batches, ((2 : Word) - b.num).toNat < 2 ^ 31) ∧ ¬ (∃ b ∈ t.batches, ((1 : Word) - b.num).toNat < 2 ^ 31) := by
  decide +kernel
theorem witness_store :
    let o := copying 1 true
    let s := copies o
    s.hamperHeld o = none ∧ o.landed = false ∧ o.waits = [] ∧ (o.copy.target 0).map ElemAt.addr = some 0x10100 ∧
    (match s.elemPages o ⟨0x10100, 1, 0⟩ with | .runs l => l == [(0x100100, pageFor 0x10100, 1)] | .hold .. | .fail _ => false) = true ∧
    o.imageBad o.copy { banks with poison := [2048] } 0 = true ∧ o.imageBad o.copy banks 0 = false ∧ o.copy.red = 0 ∧
    o.copy.six = false ∧ Memory.wf s.mem = true := by decide +kernel

/-- PreemptionKeepsTheContext: what the area holds of a wave's record. -/
theorem witness_area :
    let m := cellsWrite (cellsWrite memory 0x500040 (bytesOfNat 8 8192)) 0x502000 (bytesOfNat 4 4480)
    let s : State := { site with live := false, mem := m, groups := [savedGroup] }
    natOfBytes (s.homeRead 0x500040 8) = 8192 ∧ 4480 ≤ natOfBytes (s.homeRead (0x500000 + 8192) 4) ∧ savedGroup.queue = [] ∧
    s.group? savedGroup.id = some savedGroup ∧ savedGroup.saved.map Thread.mcc = [false] := by decide +kernel

/-- PlatformFollowsItsStates: each state of Flask may hold, a rise and a fall that the thermometer shows, soaked and cleared; the
channel of an address; a page to retire; a transfer. -/
def warm (f : FlaskState) : State :=
  { site with time := 600 * 10 ^ 9, plat := { site.plat with flask := f, lowAt := Vector.replicate 4 (some 0), steadyAt := some 0 } }
theorem witness_flask :
    site.plat.duty.getLsbD 5 = false ∧ (0 : BitVec 3).toNat < (1 : BitVec 3).toNat ∧ (1 : BitVec 3).toNat = bandOf 171 ∧
    (171 - 6 : Nat) ≤ bandBound (0 + 1) ∧ (warm .descend).plat.lowAt[(0 : Nat)]?.join = some 0 ∧
    0 + 10 ^ 9 ≤ (warm .descend).time ∧ (warm .soak).plat.steadyAt = some 0 ∧ 0 + 600 * 10 ^ 9 ≤ (warm .soak).time ∧
    (warm .excursion).plat.zeroAt + 60 * 10 ^ 9 ≤ (warm .excursion).time ∧ (warm .soak).plat.band = 0 ∧
    ({ (warm .purge).plat with purged := true } : Platform).purged = true ∧ site.plat.wanted = none := by decide +kernel
theorem witness_platform :
    let c := homeChannel site.plat.win.toNat 0x100040
    let s : State := { site with poison := [0x100040 / 32] }
    c < 384 ∧ site.plat.duty.getLsbD 2 = false ∧ (site.plat.channel c).pos = none ∧ (site.plat.channel c).begun = none ∧
    ({ site.plat.channel c with loaded := true } : MemChannel).classOf 7 = 128 ∧ (site.plat.channel c).classOf 7 = 32 ∧
    site.channelQueue c < site.plat.thresh.toNat ∧ site.mismatch (0x100040 / 32) = false ∧ site.l2 = [] ∧
    (0x100000 : Nat) % 65536 = 0 ∧ inMap site.plat.win.toNat 0x110000 = true ∧ s.mustRetire 0x100000 = true ∧
    site.mustRetire 0x100000 = false ∧ s.isFree 0x110000 65536 = true ∧ site.pageBusy 0x100000 = false ∧
    (flying loading).pageBusy 0x100000 = true ∧ (0x110000 : Nat) ∉ site.plat.retired ∧ inMap site.plat.win.toNat (2 ^ 51) = false := by
  decide +kernel

/-- No region is open, and no entry is buffered. -/
def Idle (s : State) : Prop := s.regions = [] ∧ s.crucible = []
theorem Idle.foldl {α : Type} {f : State → α → State} (hf : ∀ s x, Idle s → Idle (f s x)) (xs : List α) {s : State} (h : Idle s) :
    Idle (xs.foldl f s) := by
  induction xs generalizing s with
  | nil => exact h
  | cons x xs ih => exact ih (hf s x h)
theorem Idle.disown {s : State} (h : Idle s) (w : Nat) : Idle (s.disown w) := by
  unfold State.disown
  cases s.owner w <;> exact h
theorem Idle.foldAll {s : State} (h : Idle s) (pa : Nat) : Idle (s.foldAll pa) := by
  simp [State.foldAll, State.crucibleNow, h.2, State.foldDue, State.buffered, State.setBuffered, Idle, h.1]
theorem Idle.foldRange {s : State} (h : Idle s) (pa n : Nat) : Idle (s.foldRange pa n) :=
  Idle.foldl (fun _ _ h => h.foldAll _) _ h
theorem Idle.engineWrite {s : State} (h : Idle s) (pa : Nat) (bs : List Byte) : Idle (s.engineWrite pa bs) :=
  Idle.foldl (s := s.homeWrite pa bs) (fun _ w h => h.disown w) _ h
theorem Idle.poisonSector {s : State} (h : Idle s) (k : Nat) : Idle (s.poisonSector k) :=
  Idle.foldl (fun _ w h => h.disown w) _ h
theorem Idle.modPlat {s : State} (h : Idle s) (f : Platform → Platform) : Idle ((s.writeTables []).modPlat f) := h
theorem Idle.movePage {s : State} (h : Idle s) (old new : Nat) : Idle (s.movePage old new []) := by
  unfold State.movePage
  refine Idle.modPlat (Idle.foldl (fun _ i h => h.poisonSector _) _ (Idle.engineWrite ?_ _ _)) _
  exact h.foldRange _ _
theorem witness_moved : (site.movePage 0x100000 0x110000 []).unmapped 0x100000 = true := by
  have idle : Idle site := ⟨rfl, rfl⟩
  simp only [State.unmapped, (idle.movePage 0x100000 0x110000).1, List.map_nil, List.dedup_nil, List.all_nil]

/-- RequestsHaveTheirEffect: a client whose doorbell has announced one request, and a part that serves it. -/
def ringing (entry : List (Nat × Nat × Nat)) : State :=
  { launching with plat := { launching.plat with clients :=
      [{ id := 63, slots := [(0, block 64 ((4, 4, 5) :: entry))], bell := 1, read := 0, written := 0, answers := [], allocs := []
         regions := [], seen := 0 }] } }
def request : HostReq := ⟨63, 5⟩
/-- A request is served where its entry says so and Trestle runs. -/
theorem served_of (s : State) (a : Ask) (h : s.serves request a = true) : RequestServed s request a := by
  have said : s.asks request a = true ∧ s.plat.firmware.isSome = true ∧ a.clean (s.nextEntry request) = true := by
    simp_all [State.serves]
  constructor
  · simpa [RequestHeard, State.asks, and_assoc] using said.1
  · exact ⟨said.2.2, Option.isSome_iff_ne_none.mp said.2.1⟩
theorem witness_served :
    RequestServed (ringing [(0, 4, 1), (16, 8, 2), (24, 4, 1)]) request (.load [1, 2] true) ∧
    RequestServed (ringing [(0, 4, 2), (8, 8, 1)]) request (.unload 1) ∧
    RequestServed (ringing [(0, 4, 3), (8, 8, 0x77)]) request (.launch (block 32 [(0, 8, 0x77)])) ∧
    RequestServed (ringing [(0, 4, 4), (8, 8, 65536)]) request (.alloc ⟨65536, 0, 0, 0⟩) ∧
    RequestServed (ringing [(0, 4, 5), (16, 8, 0x10040), (24, 8, 32), (32, 4, 1)]) request (.copy ⟨0x10040, 32, 1, []⟩) ∧
    RequestServed (ringing [(0, 4, 6)]) request (.attest (List.replicate 32 0)) ∧
    RequestServed (ringing [(0, 4, 7), (16, 4, 9)]) request (.events 9) ∧
    RequestServed (ringing [(0, 4, 8), (8, 8, 0x50000), (16, 8, 1)]) request (.free 0x50000 1) ∧
    RequestServed (ringing [(0, 4, 9)]) request (.other 9) := by
  refine ⟨?_, ?_, ?_, ?_, ?_, ?_, ?_, ?_, ?_⟩ <;> exact served_of _ _ (by decide +kernel)
theorem witness_requests :
    Platform.reset.firmware = none ∧ (Ask.unload 1).clean (block 64 [(4, 4, 5), (0, 4, 2), (8, 8, 1), (63, 1, 1)]) = false ∧
    (launching.resolveEnv 0x300000).isSome = true ∧ loadCheck [] false = some (1, 0) ∧ launching.imageBusy image = false ∧
    launching.imageBusy { image with loading := true } = true ∧ launching.rootOf 0x300000 = 0x200000 ∧
    allocPage ⟨65536, 0, 0, 0⟩ = some 65536 ∧ allocPage ⟨1, 0, 0, 0⟩ = none ∧
    (launching.writeTables [(0x204028, 0x140003)]).allocMapped 0x200000 0x50000 65536 ⟨65536, 0, 0, 0⟩ = true ∧
    (launching.writeTables [(0x204008, 0)]).pageAt 0x200000 0x10000 = none ∧
    launching.pageAt 0x200000 0x10040 = some (pageFor 0x10040) ∧ (pageFor 0x10040).type = .normal ∧
    launching.rangeMapped 0x200000 0x50000 1 = false ∧ (0x10040 : Nat) % 32 + 32 ≤ 32 ∧ launching.poisoned 0x100040 32 = false := by
  decide +kernel

/-- An image of one section of data, which the checks admit, and a plan that maps it to a fresh page. -/
def dataImage : List Byte :=
  block 104 [(0, 4, 0x1A464F42), (4, 2, 1), (6, 2, 1), (8, 4, 64), (12, 4, 1), (16, 8, 64), (32, 8, 112), (68, 4, 2), (72, 4, 4),
    (76, 4, 16), (80, 8, 104), (88, 8, 8)] ++ List.replicate 8 7
theorem witness_load :
    loadCheck dataImage false = none ∧ (sectionsOf dataImage).map Sect.size = [8] ∧
    ((launching.resolveEnv 0x300000).map (fun env => launching.planTaken env dataImage false ⟨0x50000, [(0x204028, 0x140033)], [], []⟩)) =
      some true ∧
    ((launching.resolveEnv 0x300000).map (fun env => launching.planTaken env dataImage false ⟨0x50000, [(0x204028, 0x100033)], [], []⟩)) =
      some false ∧
    (({ launching with images := [{ image with loading := true }] } : State).images.find? (fun x => x.handle == 1)) =
      some { image with loading := true } := by decide +kernel
end Sys2Proof.Tests
end

/-! ## Control registers: what CTLW of each register changes -/

section
namespace Sys2Proof

open Machine

/-! ### The Access columns -/

theorem toNat_ofNat_of_register {r : Nat} (hr : r < 2 ^ 12) : (BitVec.ofNat 12 r).toNat = r := by
  rw [BitVec.toNat_ofNat, Nat.mod_eq_of_lt hr]

/-- A CTLW outside the CLM bank registers needs no grant: the register takes the write. -/
theorem exec_ctlw_of_ne_bank (s : State) (a : Reg) {r : Nat} (h : r < 0x020 ∨ 0x040 ≤ r) (hr : r < 2 ^ 12) :
    exec (.ctlw (BitVec.ofNat 12 r) a) s = .next (s.ctlWrite r (s.rdS a)) := by
  have free : ¬ (0x020 ≤ r ∧ r < 0x040 ∧ (!s.thr.env.clmGrant) = true) := by omega
  change execCtlw (BitVec.ofNat 12 r) a s = _
  rw [execCtlw, toNat_ofNat_of_register hr, if_neg free]

theorem exec_trapStateWrite (s : State) {r : Nat} (hr : r < 2 ^ 12) (y : Word) :
    exec (.trapStateWrite (BitVec.ofNat 12 r) y) s = .next (s.writeTrapState r y) := by
  change Host.Outcome.next (s.writeTrapState (BitVec.ofNat 12 r).toNat y) = _
  rw [toNat_ofNat_of_register hr]

theorem exec_sstatClear (s : State) (k : Fin 3) (y : Word) :
    exec (.sstatClear (BitVec.ofNat 2 k) y) s = .next (s.modCtl (fun c => c.clearSstat k y)) := by
  fin_cases k <;> rfl

/-- R95: the low three bits are the mode, unless they name none. -/
theorem setRound_eq (c : Ctl) (x : Word) :
    c.setRound x = if x.toNat % 8 < 6 then { c with round := x.setWidth 3 } else c := by
  simp [Ctl.setRound, BitVec.setWidth_eq_extractLsb' (show 3 ≤ 32 by decide)]

/-- R317: ERR is bit 31. -/
theorem clearHstat_eq (c : Ctl) (x : Word) :
    c.clearHstat x = if x.getLsbD 31 then { c with herr := false, hcause := 0, hbad := 0 } else c := by
  rw [Ctl.clearHstat, BitVec.msb_eq_getLsbD_last]

/-! ### The registers below 0x020 -/

theorem ctlWrite_round (s : State) (x : Word) :
    s.ctlWrite 0x000 x = if x.toNat % 8 < 6 then s.modCtl (fun c => { c with round := x.setWidth 3 }) else s := by
  simp only [State.ctlWrite, ↓reduceIte, setRound_eq, State.modCtl]
  split <;> rfl

theorem setIfInBounds_eq_set {α : Type} {n i : Nat} (v : Vector α n) (h : i < n) (x : α) : v.setIfInBounds i x = v.set i x := by
  ext j hj
  rw [Vector.getElem_setIfInBounds, Vector.getElem_set]

theorem ctlWrite_loopCounter (s : State) (k : Fin 3) (x : Word) :
    s.ctlWrite (0x002 + k) x = { s with thr := { s.thr with level :=
      { s.thr.level with loops := { s.thr.level.loops with lc := s.thr.level.loops.lc.set k x } } } } := by
  rw [← setIfInBounds_eq_set]
  fin_cases k <;> rfl

theorem ctlWrite_sstat (s : State) (k : Fin 3) (x : Word) :
    s.ctlWrite (0x00A + k) x = s.modCtl (fun c => c.clearSstat k x) := by
  fin_cases k <;> rfl

theorem ctlWrite_estdrop (s : State) (x : Word) : s.ctlWrite 0x008 x = s.modCtl (fun c => { c with estdrop := x }) := rfl

theorem ctlWrite_cslot (s : State) (x : Word) :
    s.ctlWrite 0x009 x = s.modCtl (fun c => { c with cslot := x.setWidth 6 }) := by
  rw [BitVec.setWidth_eq_extractLsb' (by decide)]
  rfl

theorem ctlWrite_hstat (s : State) (x : Word) : s.ctlWrite 0x00E x = s.modCtl (fun c => c.clearHstat x) := rfl
theorem ctlWrite_mstat (s : State) (x : Word) : s.ctlWrite 0x012 x = s.modCtl (fun c => c.clearMstat x) := rfl

/-- The read-only registers below the CLM banks. -/
theorem ctlWrite_readOnly_low (s : State) (x : Word) {r : Nat}
    (h : r ∈ [0x001, 0x005, 0x006, 0x007, 0x00D, 0x00F, 0x010, 0x011]) : s.ctlWrite r x = s := by
  simp only [List.mem_cons, List.not_mem_nil, or_false] at h
  rcases h with rfl | rfl | rfl | rfl | rfl | rfl | rfl | rfl <;> rfl

/-! ### The registers from 0x040: tags, trap state, status, place -/

theorem ctlWrite_of_ge (s : State) (x : Word) {r : Nat} (h : 0x040 ≤ r) : s.ctlWrite r x = s.writeTrapState r x := by
  unfold State.ctlWrite
  repeat rw [if_neg (by omega)]

/-- R361: outside trap mode a write of the trap state is ignored. -/
theorem writeTrapState_of_base_none {s : State} (h : s.thr.base = none) (r : Nat) (x : Word) :
    s.writeTrapState r x = s := by
  simp [State.writeTrapState, h]

theorem writeTrapState_of_base_ne_none {s : State} (h : s.thr.base ≠ none) (r : Nat) (x : Word) :
    s.writeTrapState r x = s.modCtl (fun c => c.writeTrap r x) := by
  simp [State.writeTrapState, Option.isSome_iff_ne_none, h]

/-- The registers that no trap handler may write either. -/
theorem writeTrap_of_readOnly (c : Ctl) (x : Word) {r : Nat}
    (h : r ≠ 0x081 ∧ r ≠ 0x082 ∧ ¬ (0x085 ≤ r ∧ r ≤ 0x087)) : c.writeTrap r x = c := by
  obtain ⟨epc, einfo, elanes⟩ := h
  rw [Ctl.writeTrap, if_neg epc, if_neg einfo, if_neg elanes]

theorem writeTrap_epc (c : Ctl) (x : Word) : c.writeTrap 0x081 x = { c with epc := x } := rfl

theorem writeTrap_einfo (c : Ctl) (x : Word) : c.writeTrap 0x082 x =
    { c with replay := x.getLsbD 4, rslot := if x.setWidth 2 = 3 then 0 else x.setWidth 2 } := by
  rw [BitVec.setWidth_eq_extractLsb' (by decide)]
  rfl

theorem writeTrap_elanes (c : Ctl) (k : Fin 3) (x : Word) :
    c.writeTrap (0x085 + k) x = { c with elanes := setMaskWord c.elanes k x } := by
  fin_cases k <;> rfl

theorem ctlWrite_readOnly_high (s : State) (x : Word) {r : Nat} (low : 0x040 ≤ r)
    (h : r ≠ 0x081 ∧ r ≠ 0x082 ∧ ¬ (0x085 ≤ r ∧ r ≤ 0x087)) : s.ctlWrite r x = s := by
  rw [ctlWrite_of_ge s x low, State.writeTrapState]
  split
  · simp only [State.modCtl, writeTrap_of_readOnly _ _ h]
  · rfl

/-! ### CTLW and the event of the same effect -/

/-- A register of the trap state, outside trap mode: neither the word nor the event changes anything. -/
theorem trapState_ignored {s : State} (h : s.thr.base = none) (a : Reg) {r : Nat} (hr : 0x040 ≤ r ∧ r < 2 ^ 12) :
    exec (.ctlw (BitVec.ofNat 12 r) a) s = .next s ∧
      ∀ y, exec (.trapStateWrite (BitVec.ofNat 12 r) y) s = .next s := by
  refine ⟨?_, fun y => ?_⟩
  · rw [exec_ctlw_of_ne_bank s a (.inr hr.1) hr.2, ctlWrite_of_ge s _ hr.1, writeTrapState_of_base_none h]
  · rw [exec_trapStateWrite s hr.2, writeTrapState_of_base_none h]

/-- A register of the trap state, in trap mode: the event writes it, and so does a CTLW of the same value. -/
theorem trapState_written {s : State} (h : s.thr.base ≠ none) (a : Reg) {r : Nat} (hr : 0x040 ≤ r ∧ r < 2 ^ 12) (y : Word) :
    exec (.trapStateWrite (BitVec.ofNat 12 r) y) s = .next (s.modCtl (fun c => c.writeTrap r y)) ∧
      (s.rdS a = y → exec (.ctlw (BitVec.ofNat 12 r) a) s = .next (s.modCtl (fun c => c.writeTrap r y))) := by
  refine ⟨?_, fun e => ?_⟩
  · rw [exec_trapStateWrite s hr.2, writeTrapState_of_base_ne_none h]
  · rw [exec_ctlw_of_ne_bank s a (.inr hr.1) hr.2, ctlWrite_of_ge s _ hr.1, writeTrapState_of_base_ne_none h, e]

/-- Settles O28: below 0x020 by the register's own rule, from 0x040 by whether the thread is in trap mode. -/
theorem controlRegistersTakeTheirWrites : Obligations.ControlRegistersTakeTheirWrites := by
  intro s a x c l ctl writes word
  have takes {r : Nat} (h : r < 0x020 ∨ 0x040 ≤ r ∧ r < 2 ^ 12) {t : State} (e : s.ctlWrite r x = t) : writes r (.next t) :=
    (exec_ctlw_of_ne_bank s a (by omega) (by omega)).trans (congrArg _ e)
  refine ⟨?round, fun k => ⟨?counter, ?sstat, fun y => exec_sstatClear s k y⟩, takes (by decide) (ctlWrite_estdrop s x),
    takes (by decide) (ctlWrite_cslot s x), ?clears, ?readOnly, ?tags, ?base, ?trap⟩
  case round =>
    by_cases valid : x.toNat % 8 < 6
    · rw [if_pos valid]
      exact takes (by decide) ((ctlWrite_round s x).trans (if_pos valid))
    · rw [if_neg valid]
      exact takes (by decide) ((ctlWrite_round s x).trans (if_neg valid))
  case counter => exact takes (by omega) (ctlWrite_loopCounter s k x)
  case sstat => exact takes (by omega) (ctlWrite_sstat s k x)
  case clears =>
    intro y hstat mstat
    have hs : s.modCtl (fun c => c.clearHstat y) = s.modCtl (fun _ => hstat) := by
      simp only [State.modCtl, clearHstat_eq, hstat, c]
    refine ⟨congrArg Host.Outcome.next hs, ?_, rfl, ?_⟩
    · rintro rfl
      exact takes (by decide) ((ctlWrite_hstat s x).trans hs)
    · rintro rfl
      exact takes (by decide) (ctlWrite_mstat s x)
  case readOnly =>
    intro r h
    simp only [List.mem_cons, List.not_mem_nil, or_false] at h
    by_cases below : r < 0x020
    · exact takes (.inl below) (ctlWrite_readOnly_low s x (by simp; omega))
    · exact takes (by omega) (ctlWrite_readOnly_high s x (by omega) (by omega))
  case tags =>
    intro r ge lt
    exact takes (by omega) (ctlWrite_readOnly_high s x ge (by omega))
  case base =>
    intro h r hr
    exact trapState_ignored h a (by simp at hr; omega)
  case trap =>
    intro h y trap
    have written {r : Nat} (hr : 0x040 ≤ r ∧ r < 2 ^ 12) {c' : Ctl} (e : c.writeTrap r y = c') : trap r c' := by
      subst e
      exact trapState_written h a hr y
    exact ⟨written (by decide) (writeTrap_epc c y), written (by decide) (writeTrap_einfo c y),
      fun k => written (by omega) (writeTrap_elanes c k y)⟩

end Sys2Proof
end

/-! ## The machine stops only at holes (R14, R387): every other instruction, event and request answers a next state -/

section
namespace Sys2Proof

open Machine

theorem Ran.next (t : State) : Ran (.next t) := ⟨t, rfl⟩

/-- A meaning that branches on a test runs where both of its sides do. -/
theorem Ran.ite {c : Prop} [Decidable c] {a b : Out} (ha : Ran a) (hb : Ran b) : Ran (if c then a else b) := by
  split
  · exact ha
  · exact hb

/-- Both sides of the test are next states. -/
theorem Ran.either {c : Prop} [Decidable c] {t u : State} : Ran (if c then .next t else .next u) := .ite (.next t) (.next u)

/-! ### Words that direct the split -/

theorem execMjoin_ran (o : BitVec 19) (s : State) : Ran (execMjoin o s) := by
  unfold execMjoin
  split <;> exact .next _

theorem execJoin_ran (s : State) : Ran (execJoin s) := by
  unfold execJoin
  split
  exacts [.next _, .ite (.next _) .either]

theorem execBrs_ran (m : Reg) (e : BitVec 2) (o : BitVec 16) (s : State) : Ran (execBrs m e o s) := by
  dsimp only [execBrs]
  split
  · exact .either
  · exact .either
  · exact .either
  · refine .ite (.next _) (.ite (.next _) ?_)
    split
    · exact .next _
    · split <;> exact .next _

/-! ### CLM queues, ranges and blocks of memory -/

theorem execLpush_ran (d a : Reg) (p : BitVec 5) (s : State) : Ran (execLpush d a p s) := by
  dsimp only [execLpush]
  split <;> exact .next _

theorem execLpop_ran (d a : Reg) (p : BitVec 5) (s : State) : Ran (execLpop d a p s) := by
  dsimp only [execLpop]
  split <;> exact .next _

theorem execFfar_ran (p : BitVec 5) (n : BitVec 8) (s : State) : Ran (execFfar p n s) := by
  dsimp only [execFfar]
  split
  exacts [.next _, .either]

theorem execInvl_ran (p : BitVec 5) (n : BitVec 8) (s : State) : Ran (execInvl p n s) := by
  dsimp only [execInvl]
  split
  exacts [.next _, .either]

theorem execEwatch_ran (d a : Reg) (p : BitVec 5) (s : State) : Ran (execEwatch d a p s) := by
  unfold execEwatch
  split <;> exact .next _

theorem execEunw_ran (d a : Reg) (s : State) : Ran (execEunw d a s) := by
  dsimp only [execEunw]
  split <;> exact .next _

theorem execCbind_ran (d a : Reg) (p : BitVec 5) (s : State) : Ran (execCbind d a p s) := by
  dsimp only [execCbind]
  refine .ite (.next _) (.ite (.next _) ?_)
  split
  exacts [.next _, .either]

theorem execDtbind_ran (d : Reg) (p : BitVec 5) (s : State) : Ran (execDtbind d p s) := by
  unfold execDtbind
  split
  · exact .next _
  · split
    exacts [.next _, .either]

theorem execDtunb_ran (d : Reg) (s : State) : Ran (execDtunb d s) := by
  unfold execDtunb
  split
  exacts [.next _, .either]

theorem execRdraw_ran (d : Reg) (p : BitVec 5) (s : State) : Ran (execRdraw d p s) := by
  dsimp only [execRdraw]
  refine .ite (.next _) ?_
  split
  exacts [.next _, .ite (.next _) .either]

theorem execRwait_ran (d : Reg) (s : State) : Ran (execRwait d s) := by
  dsimp only [execRwait]
  split
  exacts [.next _, .either]

theorem execWgenq_ran (d n a : Reg) (s : State) : Ran (execWgenq d n a s) := by
  unfold execWgenq
  refine .ite (.next _) (.ite (.next _) ?_)
  split <;> exact .next _

theorem execLaunch_ran (d : Reg) (p : BitVec 5) (s : State) : Ran (execLaunch d p s) := by
  unfold execLaunch
  refine .ite (.next _) ?_
  split
  exacts [.next _, .either]

theorem execMldf_ran (d n : Reg) (s : State) : Ran (execMldf d n s) := by
  unfold execMldf
  refine .ite (.next _) ?_
  split <;> exact .next _

theorem execMvnb_ran (d a : Reg) (s : State) : Ran (execMvnb d a s) := by
  unfold execMvnb
  refine .ite (.next _) ?_
  split
  · exact .next _
  · refine .ite (.next _) ?_
    dsimp only
    split
    · exact .next _
    · exact .next _
    · exact .next _
    · exact .ite (.next _) .either

/-! ### Barriers and the ordered append -/

theorem execBar_ran (b : BitVec 4) (s : State) : Ran (execBar b s) := by
  unfold execBar
  refine .ite (.next _) ?_
  split
  · exact .either
  · split <;> exact .next _

theorem execBara_ran (b : BitVec 4) (s : State) : Ran (execBara b s) := by
  unfold execBara
  split
  exacts [.either, .next _]

theorem execBarw_ran (b : BitVec 4) (s : State) : Ran (execBarw b s) := by
  dsimp only [execBarw]
  refine .ite (.next _) ?_
  split <;> exact .next _

theorem execOapp_ran (d n : Reg) (c : BitVec 4) (s : State) : Ran (execOapp d n c s) := by
  unfold execOapp
  extract_lets t
  split
  exacts [.next _, .ite (.next _) .either]

/-! ### Groups, dispatches and threads -/

theorem execWorkgroupRetire_ran (wg : Nat) (s : State) : Ran (execWorkgroupRetire wg s) := by
  unfold execWorkgroupRetire
  split
  exacts [.next _, .either]

theorem execProgressPromote_ran (t : TKey) (sp : BitVec 2) (s : State) : Ran (execProgressPromote t sp s) := by
  unfold execProgressPromote
  split
  exacts [.either, .next _]

theorem execNodeGroupTimer_ran (rcb node : Nat) (s : State) : Ran (execNodeGroupTimer rcb node s) := by
  unfold execNodeGroupTimer
  split
  exacts [.either, .next _]

theorem execWorkgroupPlace_ran (s : State) : Ran (execWorkgroupPlace s) := by
  dsimp only [execWorkgroupPlace]
  split <;> exact .next _

theorem execShadowSwap_ran (core rcb seq : Nat) (s : State) : Ran (execShadowSwap core rcb seq s) := by
  unfold execShadowSwap
  split
  · exact .next _
  · refine .ite (.next _) ?_
    split <;> exact .next _

theorem execShadowSaveTimeout_ran (core area : Nat) (s : State) : Ran (execShadowSaveTimeout core area s) := by
  unfold execShadowSaveTimeout
  split
  exacts [.next _, .either]

theorem execFullSave_ran (wg area : Nat) (s : State) : Ran (execFullSave wg area s) := by
  unfold execFullSave
  split
  · exact .next _
  · split
    · exact .either
    · exact .either
    · exact .either
    · exact .next _
    · exact .next _

theorem execRestore_ran (wg : Nat) (s : State) : Ran (execRestore wg s) := by
  unfold execRestore
  split
  · split
    · exact .either
    all_goals exact .next _
  · exact .next _
  · exact .next _

theorem execScallAnswer_ran (t : TKey) (sp : BitVec 2) (ans : Option (List Word)) (s : State) :
    Ran (execScallAnswer t sp ans s) := by
  unfold execScallAnswer
  extract_lets calls
  split
  · split <;> exact .next _
  · split
    · split
      · split <;> exact .next _
      · exact .next _
    · exact .next _

theorem execBkptResume_ran (t : TKey) (resume : Bool) (s : State) : Ran (execBkptResume t resume s) := by
  unfold execBkptResume
  split
  · exact .next _
  · split
    exacts [.next _, .either]

/-! ### Stores, atomics and faults on their way -/

theorem execStoreReachHome_ran (core id : Nat) (s : State) : Ran (execStoreReachHome core id s) := by
  unfold execStoreReachHome
  split
  exacts [.next _, .either]

theorem execRevoke_ran (core id cluster : Nat) (s : State) : Ran (execRevoke core id cluster s) := by
  unfold execRevoke
  split
  · exact .next _
  · split
    exacts [.either, .next _]

theorem execStoreAck_ran (core id : Nat) (s : State) : Ran (execStoreAck core id s) := by
  unfold execStoreAck
  split
  exacts [.either, .next _]

theorem execFarStoreAck_ran (core id : Nat) (s : State) : Ran (execFarStoreAck core id s) := by
  unfold execFarStoreAck
  split
  exacts [.either, .next _]

theorem execFarTimeout_ran (store : Bool) (core id : Nat) (s : State) : Ran (execFarTimeout store core id s) := by
  unfold execFarTimeout
  refine .ite ?_ (.next _)
  split
  exacts [.either, .next _]

theorem execOrderGateAdmit_ran (id lane : Nat) (s : State) : Ran (execOrderGateAdmit id lane s) := by
  unfold execOrderGateAdmit
  split
  exacts [.either, .next _]

theorem execOrderGateTimeout_ran (rcb va : Nat) (s : State) : Ran (execOrderGateTimeout rcb va s) := by
  unfold execOrderGateTimeout
  split
  · exact .next _
  · refine .ite (.next _) ?_
    split
    exacts [.either, .next _]

theorem execFaultMap_ran (rec : Nat) (ents : List (Nat × BitVec 64)) (s : State) : Ran (execFaultMap rec ents s) := by
  unfold execFaultMap
  split
  exacts [.either, .next _]

theorem execFaultDeny_ran (rec : Nat) (s : State) : Ran (execFaultDeny rec s) := by
  unfold execFaultDeny
  split <;> exact .next _

theorem execFaultPoison_ran (rec : Nat) (s : State) : Ran (execFaultPoison rec s) := by
  unfold execFaultPoison
  split <;> exact .next _

theorem execFaultRetry_ran (rec : Nat) (s : State) : Ran (execFaultRetry rec s) := by
  unfold execFaultRetry
  split <;> exact .next _

theorem execLadleHandon_ran (rcb : Nat) (s : State) : Ran (execLadleHandon rcb s) := by
  unfold execLadleHandon
  split
  · exact .next _
  · refine .ite (.next _) ?_
    split
    exacts [.either, .next _]

theorem execLadleVisitTimeout_ran (rcb : Nat) (s : State) : Ran (execLadleVisitTimeout rcb s) := by
  unfold execLadleVisitTimeout
  split
  exacts [.next _, .either]

/-! ### Estimators, compositing, engines -/

theorem execWatchSweep_ran (handle : Nat) (s : State) : Ran (execWatchSweep handle s) := by
  unfold execWatchSweep
  split
  exacts [.next _, .either]

theorem execCmpTermArrive_ran (id lane : Nat) (s : State) : Ran (execCmpTermArrive id lane s) := by
  unfold execCmpTermArrive
  split
  · exact .next _
  · split
    exacts [.next _, .either]

theorem execMatGrant_ran (cluster : Nat) (port : Bool) (s : State) : Ran (execMatGrant cluster port s) := by
  unfold execMatGrant
  refine .ite (.next _) ?_
  split <;> exact .next _

theorem execMatEntryComplete_ran (cluster entry : Nat) (s : State) : Ran (execMatEntryComplete cluster entry s) := by
  unfold execMatEntryComplete
  split
  exacts [.next _, .either]

theorem execMvnbComplete_ran (cluster id : Nat) (s : State) : Ran (execMvnbComplete cluster id s) := by
  unfold execMvnbComplete
  split <;> exact .next _

theorem execHamperOpStart_ran (t : TKey) (sp : BitVec 2) (s : State) : Ran (execHamperOpStart t sp s) := by
  unfold execHamperOpStart
  split
  exacts [.next _, .ite (.next _) .either]

theorem execHamperOpComplete_ran (cluster id : Nat) (s : State) : Ran (execHamperOpComplete cluster id s) := by
  unfold execHamperOpComplete
  split
  · exact .next _
  · refine .ite (.next _) (.ite (.next _) ?_)
    dsimp only
    split
    exacts [.next _, .either]

theorem execHmcastShareLand_ran (cluster id recv : Nat) (s : State) : Ran (execHmcastShareLand cluster id recv s) := by
  unfold execHmcastShareLand
  split
  · exact .next _
  · refine .ite (.next _) ?_
    dsimp only
    split
    · exact .next _
    · split <;> exact .next _

theorem execRangeLockRelease_ran (cluster entry : Nat) (s : State) : Ran (execRangeLockRelease cluster entry s) := by
  dsimp only [execRangeLockRelease]
  split
  · exact .next _
  · split
    · exact .either
    · exact .next _
    · refine .ite (.next _) ?_
      split <;> exact .next _
    · exact .next _

/-! ### Rays and raster -/

theorem execTraceLaneFinish_ran (id : Nat) (lane : LaneVisits) (s : State) : Ran (execTraceLaneFinish id lane s) := by
  dsimp only [execTraceLaneFinish]
  split
  · exact .next _
  · split
    · split
      · exact .next _
      · refine .ite (.next _) (.ite (.next _) ?_)
        split
        · exact .next _
        · exact .next _
        · exact .next _
        · exact .next _
        · exact .either
    · exact .next _

theorem execTraceComplete_ran (id : Nat) (s : State) : Ran (execTraceComplete id s) := by
  unfold execTraceComplete
  split
  · exact .next _
  · split
    · refine .ite (.next _) (.ite (.next _) ?_)
      dsimp only
      split
      · exact .next _
      · split <;> exact .next _
    · exact .next _

theorem execRasterTriangle_ran (draw : Nat) (s : State) : Ran (execRasterTriangle draw s) := by
  unfold execRasterTriangle
  split
  · exact .next _
  · refine .ite (.next _) (.ite (.next _) (.ite (.next _) (.ite ?_ (.ite ?_ (.next _)))))
    · split <;> exact .next _
    · split <;> exact .next _

theorem execRasterTileRecord_ran (draw tile : Nat) (s : State) : Ran (execRasterTileRecord draw tile s) := by
  unfold execRasterTileRecord
  split
  · exact .next _
  · refine .ite (.next _) (.ite (.next _) ?_)
    dsimp only
    split <;> exact .next _

/-! ### Platform and host -/

theorem execFlaskResume_ran (s : State) : Ran (execFlaskResume s) := by
  unfold execFlaskResume
  split
  exacts [.next _, .either]

theorem execPlatformRegisterWrite_ran (reg : PfReg) (x : Word) (s : State) : Ran (execPlatformRegisterWrite reg x s) := by
  cases reg <;> exact .next _

theorem execDutyRequestAnswer_ran (req : Nat) (s : State) : Ran (execDutyRequestAnswer req s) := by
  dsimp only [execDutyRequestAnswer]
  split
  · exact .next _
  · split <;> exact .next _

theorem execRefreshRow_ran (chan row : Nat) (s : State) : Ran (execRefreshRow chan row s) := by
  dsimp only [execRefreshRow]
  split
  exacts [.either, .next _]

theorem execPageRetire_ran (old new : Nat) (ents : List (Nat × BitVec 64)) (s : State) :
    Ran (execPageRetire old new ents s) := by
  dsimp only [execPageRetire]
  split <;> exact .either

theorem execHostLoad_ran (rq : HostReq) (rcb : Nat) (image : List Byte) (sig : Bool) (plan : LoadPlan) (s : State) :
    Ran (execHostLoad rq rcb image sig plan s) := by
  dsimp only [execHostLoad]
  split
  exacts [.next _, .either]

theorem execHostAlloc_ran (rq : HostReq) (rcb : Nat) (args : AllocArgs) (va : Nat) (ents : List (Nat × BitVec 64))
    (s : State) : Ran (execHostAlloc rq rcb args va ents s) := by
  unfold execHostAlloc
  split
  exacts [.next _, .ite (.next _) .either]

theorem execHostCopy_ran (rq : HostReq) (rcb : Nat) (args : CopyArgs) (s : State) : Ran (execHostCopy rq rcb args s) := by
  dsimp only [execHostCopy]
  refine .ite (.next _) (.ite (.ite (.next _) .either) ?_)
  split <;> exact .next _

theorem execLoadComplete_ran (handle : Nat) (s : State) : Ran (execLoadComplete handle s) := by
  unfold execLoadComplete
  split
  exacts [.next _, .either]

theorem execRunEnd_ran (rcb : Nat) (s : State) : Ran (execRunEnd rcb s) := by
  unfold execRunEnd
  split
  exacts [.next _, .either]

/-! ### Every meaning -/

/-- The rows that name a physical address or a CLM byte from outside: a soft error and a Decro transfer. -/
def Instr.namesPlace : Instr → Bool
  | .softError .. | .decroTransferArrive .. => true
  | _ => false

/-- Every other row answers a next state: most at once, some on each side of a test, the rest by the lemmas above. -/
theorem exec_ran (i : Instr) (s : State) (h : i.namesPlace = false) : Ran (exec i s) := by
  cases i with
  | softError | decroTransferArrive => cases h
  | yield | waitx | bru | acq | rel | acqrel | fsmp | fbvh | dtqry | mwait | mdrain | mfill | mvwait | scall | ctlw
    | bkpt | exit | crucibleHoldExpire | sstatClear | bandRise | bandFall | soakStable | trainComplete | trainFail
    | excursionClear | flaskCool | flaskWarm | flaskService | scrubEscalate | hostLaunch | hostUnknownRequest
    | bloomFilterLoad => exact .either
  | lbrk | lget | hostFree | rowBinning => exact .ite (.next _) .either
  | rte | scrubPassStart => exact .ite (.next _) (.ite (.next _) .either)
  | scrubSector => exact .ite (.next _) (.ite (.next _) (.ite (.next _) .either))
  | mjoin => exact execMjoin_ran _ _
  | join => exact execJoin_ran _
  | brs => exact execBrs_ran _ _ _ _
  | lpush => exact execLpush_ran _ _ _ _
  | lpop => exact execLpop_ran _ _ _ _
  | ffar => exact execFfar_ran _ _ _
  | invl => exact execInvl_ran _ _ _
  | ewatch => exact execEwatch_ran _ _ _ _
  | eunw => exact execEunw_ran _ _ _
  | cbind => exact execCbind_ran _ _ _ _
  | bar => exact execBar_ran _ _
  | bara => exact execBara_ran _ _
  | barw => exact execBarw_ran _ _
  | oapp => exact execOapp_ran _ _ _ _
  | dtbind => exact execDtbind_ran _ _ _
  | dtunb => exact execDtunb_ran _ _
  | rdraw => exact execRdraw_ran _ _ _
  | rwait => exact execRwait_ran _ _
  | wgenq => exact execWgenq_ran _ _ _ _
  | launch => exact execLaunch_ran _ _ _
  | mldf => exact execMldf_ran _ _ _
  | mvnb => exact execMvnb_ran _ _ _
  | workgroupRetire => exact execWorkgroupRetire_ran _ _
  | progressPromote => exact execProgressPromote_ran _ _ _
  | storeReachHome => exact execStoreReachHome_ran _ _ _
  | revoke => exact execRevoke_ran _ _ _ _
  | storeAck => exact execStoreAck_ran _ _ _
  | orderGateAdmit => exact execOrderGateAdmit_ran _ _ _
  | orderGateTimeout => exact execOrderGateTimeout_ran _ _ _
  | faultMap => exact execFaultMap_ran _ _ _
  | faultDeny => exact execFaultDeny_ran _ _
  | faultPoison => exact execFaultPoison_ran _ _
  | faultRetry => exact execFaultRetry_ran _ _
  | farStoreAck => exact execFarStoreAck_ran _ _ _
  | farTimeout => exact execFarTimeout_ran _ _ _ _
  | rangeLockRelease => exact execRangeLockRelease_ran _ _ _
  | watchSweep => exact execWatchSweep_ran _ _
  | cmpTermArrive => exact execCmpTermArrive_ran _ _ _
  | matGrant => exact execMatGrant_ran _ _ _
  | matEntryComplete => exact execMatEntryComplete_ran _ _ _
  | mvnbComplete => exact execMvnbComplete_ran _ _ _
  | hamperOpStart => exact execHamperOpStart_ran _ _ _
  | hamperOpComplete => exact execHamperOpComplete_ran _ _ _
  | hmcastShareLand => exact execHmcastShareLand_ran _ _ _ _
  | traceLaneFinish => exact execTraceLaneFinish_ran _ _ _
  | traceComplete => exact execTraceComplete_ran _ _
  | rasterTriangle => exact execRasterTriangle_ran _ _
  | rasterTileRecord => exact execRasterTileRecord_ran _ _ _
  | nodeGroupTimer => exact execNodeGroupTimer_ran _ _ _
  | workgroupPlace => exact execWorkgroupPlace_ran _
  | shadowSwap => exact execShadowSwap_ran _ _ _ _
  | shadowSaveTimeout => exact execShadowSaveTimeout_ran _ _ _
  | fullSave => exact execFullSave_ran _ _ _
  | restore => exact execRestore_ran _ _
  | ladleHandon => exact execLadleHandon_ran _ _
  | ladleVisitTimeout => exact execLadleVisitTimeout_ran _ _
  | scallAnswer => exact execScallAnswer_ran _ _ _ _
  | bkptResume => exact execBkptResume_ran _ _ _
  | flaskResume => exact execFlaskResume_ran _
  | platformRegisterWrite => exact execPlatformRegisterWrite_ran _ _ _
  | dutyRequestAnswer => exact execDutyRequestAnswer_ran _ _
  | refreshRow => exact execRefreshRow_ran _ _ _
  | hostLoad => exact execHostLoad_ran _ _ _ _ _ _
  | hostAlloc => exact execHostAlloc_ran _ _ _ _ _ _
  | hostCopy => exact execHostCopy_ran _ _ _ _
  | loadComplete => exact execLoadComplete_ran _ _
  | runEnd => exact execRunEnd_ran _ _
  | pageRetire => exact execPageRetire_ran _ _ _ _
  | _ => exact .next _

/-- SOFT_ERROR stops only where the map of R387, or the part, has no such byte (R166). -/
theorem softError_ran_or_hole (clm : Option Nat) (a : Nat) (s : State) :
    Ran (exec (.softError clm a) s) ∨ exec (.softError clm a) s = .fault .physicalHole ∧
      ((clm = none ∧ inMap s.plat.win.toNat a = false) ∨ ∃ c, clm = some c ∧ (160 ≤ c ∨ 2 ^ 21 ≤ a)) := by
  change Ran (execSoftError clm a s) ∨ execSoftError clm a s = _ ∧ _
  cases clm with
  | none =>
    by_cases mapped : inMap s.plat.win.toNat a = true
    · exact .inl ⟨_, if_pos mapped⟩
    · exact .inr ⟨if_neg mapped, .inl ⟨rfl, by simpa using mapped⟩⟩
  | some c =>
    by_cases inPart : c < 160 ∧ a < 2 ^ 21
    · exact .inl ⟨_, if_pos inPart⟩
    · exact .inr ⟨if_neg inPart, .inr ⟨c, rfl, by omega⟩⟩

/-- DECRO_TRANSFER_ARRIVE stops only where an end of the transfer is outside the map of R387 (R392). -/
theorem decroTransferArrive_ran_or_hole (x a : Nat) (bs : List Byte) (s : State) :
    Ran (exec (.decroTransferArrive x a bs) s) ∨ exec (.decroTransferArrive x a bs) s = .fault .physicalHole ∧
      (inMap s.plat.win.toNat a = false ∨ inMap s.plat.win.toNat (a + bs.length - 1) = false) := by
  change Ran (execDecroTransferArrive x a bs s) ∨ execDecroTransferArrive x a bs s = _ ∧ _
  unfold execDecroTransferArrive
  split
  · exact .inl (.next _)
  · split
    next hole => exact .inr ⟨rfl, by simpa [Bool.and_eq_false_iff] using hole⟩
    next => exact .inl (.next _)

/-- Settles O7: two rows alone can meet a hole, and they stop nowhere else. -/
theorem stopsOnlyAtHoles : Obligations.StopsOnlyAtHoles := by
  intro i s
  cases i with
  | softError clm a =>
    refine (softError_ran_or_hole clm a s).imp_right (And.imp_right ?_)
    rintro (⟨rfl, unmapped⟩ | ⟨c, rfl, outside⟩)
    · exact .inl ⟨a, rfl, unmapped⟩
    · exact .inr (.inl ⟨c, a, rfl, outside⟩)
  | decroTransferArrive x a bs =>
    exact (decroTransferArrive_ran_or_hole x a bs s).imp_right (And.imp_right fun hole => .inr (.inr ⟨x, a, bs, rfl, hole⟩))
  | _ => exact .inl (exec_ran _ s rfl)

end Sys2Proof
end

/-! ## Decoding and encoding: the fields of each format (R16, R20 to R29) -/

section
namespace Sys2Proof

open Machine

/-! ### The fields of a word -/

/-- Bits [29:0] of a word: its fields, without the chain bit and the switch marker (R16, R20). -/
def bodyOf (w : Word) : BitVec 30 := fld w 0 30

theorem append_eq_append_iff {m n : Nat} {a x : BitVec m} {b y : BitVec n} : a ++ b = x ++ y ↔ a = x ∧ b = y := by
  constructor
  · intro h
    have high := congrArg (BitVec.extractLsb' n m) h
    have low := congrArg (BitVec.extractLsb' 0 n) h
    rw [BitVec.extractLsb'_append_eq_left, BitVec.extractLsb'_append_eq_left] at high
    rw [BitVec.extractLsb'_append_eq_right, BitVec.extractLsb'_append_eq_right] at low
    exact ⟨high, low⟩
  · rintro ⟨rfl, rfl⟩
    rfl

/-- Two values side by side are a field exactly when each is its part of it. -/
theorem append_eq_fld_iff {w : Word} {lo m n : Nat} {a : BitVec m} {b : BitVec n} :
    a ++ b = fld w lo (m + n) ↔ a = fld w (lo + n) m ∧ b = fld w lo n := by
  unfold fld
  rw [← BitVec.extractLsb'_append_extractLsb'_eq_extractLsb' rfl, append_eq_append_iff]

theorem ofBool_eq_fld_iff {w : Word} {i : Nat} {b : Bool} : BitVec.ofBool b = fld w i 1 ↔ b = w.getLsbD i := by
  have bit : fld w i 1 = BitVec.ofBool (w.getLsbD i) := by
    ext j hj
    simp [fld, show j = 0 by omega]
  rw [bit]
  cases b <;> cases w.getLsbD i <;> decide

theorem append_eq_zero_iff {m n : Nat} {x : BitVec m} {y : BitVec n} : 0#(m + n) = x ++ y ↔ 0#m = x ∧ 0#n = y := by
  rw [← BitVec.zero_append_zero, append_eq_append_iff]

theorem zero_eq_fld_iff {w : Word} (lo m n : Nat) :
    0#(m + n) = fld w lo (m + n) ↔ 0#m = fld w (lo + n) m ∧ 0#n = fld w lo n := by
  rw [← BitVec.zero_append_zero, append_eq_fld_iff]

theorem zero_eq_bit_iff {w : Word} {i : Nat} : 0#1 = fld w i 1 ↔ false = w.getLsbD i := ofBool_eq_fld_iff (b := false)

/-! ### The formats of R20 and R21, field by field -/

section
variable {w : Word} {op d a b : BitVec 6} {fn p : BitVec 5} {l : Bool}

theorem encR_eq_bodyOf_iff : encR op fn d a b l = bodyOf w ↔
    op = fld w 24 6 ∧ d = fld w 18 6 ∧ a = fld w 12 6 ∧ b = fld w 6 6 ∧ l = w.getLsbD 5 ∧ fn = fld w 0 5 := by
  show op ++ d ++ a ++ b ++ BitVec.ofBool l ++ fn = fld w 0 (6 + 6 + 6 + 6 + 1 + 5) ↔ _
  simp only [append_eq_fld_iff, ofBool_eq_fld_iff, and_assoc]

theorem encI_eq_bodyOf_iff {i : BitVec 12} : encI op d a i = bodyOf w ↔
    op = fld w 24 6 ∧ d = fld w 18 6 ∧ a = fld w 12 6 ∧ i = fld w 0 12 := by
  show op ++ d ++ a ++ i = fld w 0 (6 + 6 + 6 + 12) ↔ _
  simp only [append_eq_fld_iff, and_assoc]

theorem encF_eq_bodyOf_iff {imm : BitVec 19} : encF op fn imm = bodyOf w ↔
    op = fld w 24 6 ∧ fn = fld w 19 5 ∧ imm = fld w 0 19 := by
  show op ++ fn ++ imm = fld w 0 (6 + 5 + 19) ↔ _
  simp only [append_eq_fld_iff, and_assoc]

theorem encFL_eq_bodyOf_iff {imm : BitVec 19} : encFL op imm fn = bodyOf w ↔
    op = fld w 24 6 ∧ imm = fld w 5 19 ∧ fn = fld w 0 5 := by
  show op ++ imm ++ fn = fld w 0 (6 + 19 + 5) ↔ _
  simp only [append_eq_fld_iff, and_assoc]

theorem encB_eq_bodyOf_iff {o : BitVec 23} : encB op l o = bodyOf w ↔
    op = fld w 24 6 ∧ l = w.getLsbD 23 ∧ o = fld w 0 23 := by
  show op ++ BitVec.ofBool l ++ o = fld w 0 (6 + 1 + 23) ↔ _
  simp only [append_eq_fld_iff, ofBool_eq_fld_iff, and_assoc]

theorem encB16_eq_bodyOf_iff {q : BitVec 2} {o : BitVec 16} : encB16 op a q o = bodyOf w ↔
    op = fld w 24 6 ∧ a = fld w 18 6 ∧ q = fld w 16 2 ∧ o = fld w 0 16 := by
  show op ++ a ++ q ++ o = fld w 0 (6 + 6 + 2 + 16) ↔ _
  simp only [append_eq_fld_iff, and_assoc]

theorem encM_eq_bodyOf_iff {h : BitVec 2} : encM op fn d a p h = bodyOf w ↔
    op = fld w 24 6 ∧ d = fld w 18 6 ∧ a = fld w 12 6 ∧ p = fld w 7 5 ∧ h = fld w 5 2 ∧ fn = fld w 0 5 := by
  show op ++ d ++ a ++ p ++ h ++ fn = fld w 0 (6 + 6 + 6 + 5 + 2 + 5) ↔ _
  simp only [append_eq_fld_iff, and_assoc]

theorem encC_eq_bodyOf_iff {s t : BitVec 4} {r : BitVec 3} {u : Bool} : encC op d a s t r u = bodyOf w ↔
    op = fld w 24 6 ∧ d = fld w 18 6 ∧ a = fld w 12 6 ∧ s = fld w 8 4 ∧ t = fld w 4 4 ∧ r = fld w 1 3 ∧
      u = w.getLsbD 0 := by
  show op ++ d ++ a ++ s ++ t ++ r ++ BitVec.ofBool u = fld w 0 (6 + 6 + 6 + 4 + 4 + 3 + 1) ↔ _
  simp only [append_eq_fld_iff, ofBool_eq_fld_iff, and_assoc]

theorem encX_eq_bodyOf_iff {x : BitVec 24} : encX op x = bodyOf w ↔ op = fld w 24 6 ∧ x = fld w 0 24 :=
  append_eq_fld_iff

end

/-! ### The opcodes of R27 -/

section
variable {w : Word}

theorem decodeBody_eq_decodeFlow (op : 0x00#6 = fld w 24 6) : decodeBody w = decodeFlow w := by
  rw [decodeBody, decodeLow, ← op]
  rfl

theorem decodeBody_eq_decodeSalu (op : 0x04#6 = fld w 24 6) : decodeBody w = decodeSalu w := by
  rw [decodeBody, decodeLow, ← op]
  rfl

theorem decodeBody_eq_decodeVint (op : 0x08#6 = fld w 24 6) : decodeBody w = decodeVint w := by
  rw [decodeBody, decodeLow, ← op]
  rfl

theorem decodeBody_eq_decodeVcmp (op : 0x0C#6 = fld w 24 6) : decodeBody w = decodeVcmp w := by
  rw [decodeBody, decodeLow, ← op]
  rfl

theorem decodeBody_eq_decodeVdot (op : 0x0D#6 = fld w 24 6) : decodeBody w = decodeVdot w := by
  rw [decodeBody, decodeLow, ← op]
  rfl

theorem decodeBody_eq_decodeVf32 (op : 0x0E#6 = fld w 24 6) : decodeBody w = decodeVf32 w := by
  rw [decodeBody, decodeLow, ← op]
  rfl

theorem decodeBody_eq_decodeVf16 (op : 0x0F#6 = fld w 24 6) : decodeBody w = decodeVf16 w := by
  rw [decodeBody, decodeLow, ← op]
  rfl

theorem decodeBody_eq_decodeXsf (op : 0x11#6 = fld w 24 6) : decodeBody w = decodeXsf w := by
  rw [decodeBody, decodeLow, ← op]
  rfl

theorem decodeBody_eq_decodeXpack (op : 0x12#6 = fld w 24 6) : decodeBody w = decodeXpack w := by
  rw [decodeBody, decodeLow, ← op]
  rfl

theorem decodeBody_eq_decodeXqnt (op : 0x13#6 = fld w 24 6) : decodeBody w = decodeXqnt w := by
  rw [decodeBody, decodeLow, ← op]
  rfl

theorem decodeBody_eq_decodeXrng (op : 0x14#6 = fld w 24 6) : decodeBody w = decodeXrng w := by
  rw [decodeBody, decodeLow, ← op]
  rfl

theorem decodeBody_eq_decodeWlane (op : 0x15#6 = fld w 24 6) : decodeBody w = decodeWlane w := by
  rw [decodeBody, decodeLow, ← op]
  rfl

theorem decodeBody_eq_decodeLd (op : 0x18#6 = fld w 24 6) : decodeBody w = decodeLd w := by
  rw [decodeBody, decodeLow, ← op]
  rfl

theorem decodeBody_eq_decodeSt (op : 0x19#6 = fld w 24 6) : decodeBody w = decodeSt w := by
  rw [decodeBody, decodeLow, ← op]
  rfl

theorem decodeBody_eq_decodeLcl (op : 0x1A#6 = fld w 24 6) : decodeBody w = decodeLcl w := by
  rw [decodeBody, decodeLow, ← op]
  rfl

theorem decodeBody_eq_decodeAtom (op : 0x1B#6 = fld w 24 6) : decodeBody w = decodeAtom w := by
  rw [decodeBody, decodeLow, ← op]
  rfl

theorem decodeBody_eq_decodeOrd (op : 0x1C#6 = fld w 24 6) : decodeBody w = decodeOrd w := by
  rw [decodeBody, decodeLow, ← op]
  rfl

theorem decodeBody_eq_decodeEst (op : 0x1D#6 = fld w 24 6) : decodeBody w = decodeEst w := by
  rw [decodeBody, decodeLow, ← op]
  rfl

theorem decodeBody_eq_decodeCmps (op : 0x1E#6 = fld w 24 6) : decodeBody w = decodeCmps w := by
  rw [decodeBody, decodeLow, ← op]
  rfl

theorem decodeBody_eq_decodeSync (op : 0x1F#6 = fld w 24 6) : decodeBody w = decodeSync w := by
  rw [decodeBody, decodeLow, ← op]
  rfl

theorem decodeBody_eq_decodeSmp (op : 0x20#6 = fld w 24 6) : decodeBody w = decodeSmp w := by
  rw [decodeBody, decodeLow, ← op]
  rfl

theorem decodeBody_eq_decodeDtb (op : 0x21#6 = fld w 24 6) : decodeBody w = decodeDtb w := by
  rw [decodeBody, ← op]
  rfl

theorem decodeBody_eq_decodeRay (op : 0x22#6 = fld w 24 6) : decodeBody w = decodeRay w := by
  rw [decodeBody, ← op]
  rfl

theorem decodeBody_eq_decodeRast (op : 0x23#6 = fld w 24 6) : decodeBody w = decodeRast w := by
  rw [decodeBody, ← op]
  rfl

theorem decodeBody_eq_decodeWork (op : 0x24#6 = fld w 24 6) : decodeBody w = decodeWork w := by
  rw [decodeBody, ← op]
  rfl

theorem decodeBody_eq_decodeMat (op : 0x28#6 = fld w 24 6) : decodeBody w = decodeMat w := by
  rw [decodeBody, ← op]
  rfl

theorem decodeBody_eq_decodeHamp (op : 0x2C#6 = fld w 24 6) : decodeBody w = decodeHamp w := by
  rw [decodeBody, ← op]
  rfl

theorem decodeBody_eq_decodeSys (op : 0x3E#6 = fld w 24 6) : decodeBody w = decodeSys w := by
  rw [decodeBody, ← op]
  rfl

end
/-! ### What is encoded decodes -/

/-- An instruction whose encoding stands in a word is what the decoder reads there: a branch for each opcode and layout. -/
theorem decodeBody_of_encodeBody {w : Word} {i : Instr} (h : encodeBody i = some (bodyOf w)) : decodeBody w = .ok i := by
  cases i with
  | nop | join | ret | lbrk =>
    obtain ⟨op, fn, z⟩ := encF_eq_bodyOf_iff.mp (Option.some.inj h)
    rw [decodeBody_eq_decodeFlow op, decodeFlow, ← fn, ← z]
    rfl
  | mjoin | yield =>
    obtain ⟨op, fn, rfl⟩ := encF_eq_bodyOf_iff.mp (Option.some.inj h)
    rw [decodeBody_eq_decodeFlow op, decodeFlow, ← fn]
    rfl
  | jmpr | waitx =>
    obtain ⟨op, fn, imm⟩ := encF_eq_bodyOf_iff.mp (Option.some.inj h)
    obtain ⟨z, rfl⟩ := append_eq_fld_iff.mp imm
    rw [decodeBody_eq_decodeFlow op, decodeFlow, ← fn, ← z]
    rfl
  | loop =>
    obtain ⟨op, fn, imm⟩ := encF_eq_bodyOf_iff.mp (Option.some.inj h)
    obtain ⟨high, rfl⟩ := append_eq_fld_iff.mp imm
    obtain ⟨z, rfl⟩ := append_eq_fld_iff.mp high
    rw [decodeBody_eq_decodeFlow op, decodeFlow, ← fn, ← z]
    rfl
  | loopi =>
    obtain ⟨op, fn, imm⟩ := encF_eq_bodyOf_iff.mp (Option.some.inj h)
    obtain ⟨rfl, rfl⟩ := append_eq_fld_iff.mp imm
    rw [decodeBody_eq_decodeFlow op, decodeFlow, ← fn]
    rfl
  | br | call =>
    obtain ⟨op, link, rfl⟩ := encB_eq_bodyOf_iff.mp (Option.some.inj h)
    rw [decodeBody, decodeLow, ← op, ← link]
    rfl
  | bru | brs =>
    obtain ⟨op, rfl, rfl, rfl⟩ := encB16_eq_bodyOf_iff.mp (Option.some.inj h)
    rw [decodeBody, decodeLow, ← op]
    rfl
  | sadd | ssub | smul | smulh | sdiv | sdivu | srem | sand | sor | sxor | sshl | sshr | ssra | sshli | sshri | ssrai | smin
    | smax | sceq | sclt | scltu | ssel =>
    obtain ⟨op, rfl, rfl, rfl, rfl, fn⟩ := encR_eq_bodyOf_iff.mp (Option.some.inj h)
    rw [decodeBody_eq_decodeSalu op, decodeSalu, ← fn]
    rfl
  | sclz | spop | smov =>
    obtain ⟨op, rfl, rfl, z, rfl, fn⟩ := encR_eq_bodyOf_iff.mp (Option.some.inj h)
    rw [decodeBody_eq_decodeSalu op, decodeSalu, ← fn, ← z]
    rfl
  | saddi | sandi | sori | vaddi | vandi =>
    obtain ⟨op, rfl, rfl, rfl⟩ := encI_eq_bodyOf_iff.mp (Option.some.inj h)
    rw [decodeBody, decodeLow, ← op]
    rfl
  | vli =>
    obtain ⟨op, rfl, z, rfl⟩ := encI_eq_bodyOf_iff.mp (Option.some.inj h)
    rw [decodeBody, decodeLow, ← op, ← z]
    rfl
  | vadd | vsub | vmul | vmulh | vmad | vand | vor | vxor | vshl | vshr | vsra | vshli | vshri | vsrai | vmin | vmax
    | vselz =>
    obtain ⟨op, rfl, rfl, rfl, rfl, fn⟩ := encR_eq_bodyOf_iff.mp (Option.some.inj h)
    rw [decodeBody_eq_decodeVint op, decodeVint, ← fn]
    rfl
  | vnot | vabs | vneg | vclz | vpop | vmov =>
    obtain ⟨op, rfl, rfl, z, rfl, fn⟩ := encR_eq_bodyOf_iff.mp (Option.some.inj h)
    rw [decodeBody_eq_decodeVint op, decodeVint, ← fn, ← z]
    rfl
  | vceq | vcne | vclt | vcle | vcltu | vcleu | vfceq | vfcne | vfclt | vfcle | vfcun =>
    obtain ⟨op, rfl, rfl, rfl, rfl, fn⟩ := encR_eq_bodyOf_iff.mp (Option.some.inj h)
    rw [decodeBody_eq_decodeVcmp op, decodeVcmp, ← fn]
    rfl
  | vdotb | vdotbs | vdotub | vdotubs | vdotn | vdotns | vdoth | vdotbf =>
    obtain ⟨op, rfl, rfl, rfl, rfl, fn⟩ := encR_eq_bodyOf_iff.mp (Option.some.inj h)
    rw [decodeBody_eq_decodeVdot op, decodeVdot, ← fn]
    rfl
  | vfadd | vfsub | vfmul | vfma | vfms | vfnma | vfmin | vfmax | vfminn | vfmaxn | vfcps =>
    obtain ⟨op, rfl, rfl, rfl, rfl, fn⟩ := encR_eq_bodyOf_iff.mp (Option.some.inj h)
    rw [decodeBody_eq_decodeVf32 op, decodeVf32, ← fn]
    rfl
  | vfabs | vfneg | vfrnd | vftrc | vfclass =>
    obtain ⟨op, rfl, rfl, z, rfl, fn⟩ := encR_eq_bodyOf_iff.mp (Option.some.inj h)
    rw [decodeBody_eq_decodeVf32 op, decodeVf32, ← fn, ← z]
    rfl
  | hadd | hsub | hmul | hfma | hmin | hmax | badd | bmul | bfma =>
    obtain ⟨op, rfl, rfl, rfl, rfl, fn⟩ := encR_eq_bodyOf_iff.mp (Option.some.inj h)
    rw [decodeBody_eq_decodeVf16 op, decodeVf16, ← fn]
    rfl
  | xcvt =>
    obtain ⟨op, rfl, rfl, rfl, rfl, rfl, rfl⟩ := encC_eq_bodyOf_iff.mp (Option.some.inj h)
    rw [decodeBody, decodeLow, ← op]
    rfl
  | xrcp | xrsq | xsqrt | xexp2 | xlog2 | xsin | xcos | xtanh =>
    obtain ⟨op, rfl, rfl, z, rfl, fn⟩ := encR_eq_bodyOf_iff.mp (Option.some.inj h)
    rw [decodeBody_eq_decodeXsf op, decodeXsf, ← fn, ← z]
    rfl
  | xdiv =>
    obtain ⟨op, rfl, rfl, rfl, rfl, fn⟩ := encR_eq_bodyOf_iff.mp (Option.some.inj h)
    rw [decodeBody_eq_decodeXsf op, decodeXsf, ← fn]
    rfl
  | xpack6 | xunpk6 | xunpk4 =>
    obtain ⟨op, rfl, rfl, z, rfl, fn⟩ := encR_eq_bodyOf_iff.mp (Option.some.inj h)
    rw [decodeBody_eq_decodeXpack op, decodeXpack, ← fn, ← z]
    rfl
  | xpack4 | xpackh | xpackb =>
    obtain ⟨op, rfl, rfl, rfl, rfl, fn⟩ := encR_eq_bodyOf_iff.mp (Option.some.inj h)
    rw [decodeBody_eq_decodeXpack op, decodeXpack, ← fn]
    rfl
  | xqnt4 | xqnt8 | xdqnt4 | xdqnt8 | xqmx | xdqmx | xamax =>
    obtain ⟨op, rfl, rfl, rfl, rfl, fn⟩ := encR_eq_bodyOf_iff.mp (Option.some.inj h)
    rw [decodeBody_eq_decodeXqnt op, decodeXqnt, ← fn]
    rfl
  | xrngb | xrngu =>
    obtain ⟨op, rfl, z2, z1, z0, fn⟩ := encR_eq_bodyOf_iff.mp (Option.some.inj h)
    have z := append_eq_fld_iff.mpr ⟨append_eq_fld_iff.mpr ⟨z2, z1⟩, ofBool_eq_fld_iff.mpr z0⟩
    rw [decodeBody_eq_decodeXrng op, decodeXrng, ← fn, ← z]
    rfl
  | xrngk =>
    obtain ⟨op, rfl, rfl, rfl, rfl, fn⟩ := encR_eq_bodyOf_iff.mp (Option.some.inj h)
    rw [decodeBody_eq_decodeXrng op, decodeXrng, ← fn]
    rfl
  | xrngj =>
    obtain ⟨op, z, rfl, rfl, rfl, fn⟩ := encR_eq_bodyOf_iff.mp (Option.some.inj h)
    rw [decodeBody_eq_decodeXrng op, decodeXrng, ← fn, ← z]
    rfl
  | wshf | wshfi | wxor | wup | wdn | wcomp | wmaxi =>
    obtain ⟨op, rfl, rfl, rfl, rfl, fn⟩ := encR_eq_bodyOf_iff.mp (Option.some.inj h)
    rw [decodeBody_eq_decodeWlane op, decodeWlane, ← fn]
    rfl
  | wbc | wscan | wscanx | wscanf | wscanmin | wscanmax | wred | wredf | wredmin | wredmax | wredand | wredor | wvote | wany
    | wall =>
    obtain ⟨op, rfl, rfl, z, rfl, fn⟩ := encR_eq_bodyOf_iff.mp (Option.some.inj h)
    rw [decodeBody_eq_decodeWlane op, decodeWlane, ← fn, ← z]
    rfl
  | wflg =>
    obtain ⟨op, rfl, z1, rfl, z0, fn⟩ := encR_eq_bodyOf_iff.mp (Option.some.inj h)
    rw [decodeBody_eq_decodeWlane op, decodeWlane, ← fn, ← z1, ← ofBool_eq_fld_iff.mpr z0]
    rfl
  | wflclr =>
    obtain ⟨op, z3, z2, imm, z0, fn⟩ := encR_eq_bodyOf_iff.mp (Option.some.inj h)
    obtain ⟨z1, rfl⟩ := append_eq_fld_iff.mp imm
    have z := append_eq_fld_iff.mpr ⟨append_eq_fld_iff.mpr ⟨z3, z2⟩, z1⟩
    rw [decodeBody_eq_decodeWlane op, decodeWlane, ← fn, ← z, ← ofBool_eq_fld_iff.mpr z0]
    rfl
  | ldb | ldbu | ldh | ldhu | ldw | ldd | ldq | sldw | sldd | sldq =>
    obtain ⟨op, rfl, rfl, rfl, rfl, fn⟩ := encM_eq_bodyOf_iff.mp (Option.some.inj h)
    rw [decodeBody_eq_decodeLd op, decodeLd, ← fn]
    rfl
  | stb | sth | stw | std | stq | st64 | sstw | sstd =>
    obtain ⟨op, rfl, rfl, rfl, rfl, fn⟩ := encM_eq_bodyOf_iff.mp (Option.some.inj h)
    rw [decodeBody_eq_decodeSt op, decodeSt, ← fn]
    rfl
  | lldw | lldq | lstw | lstq | lpush | lpop | laadd | lamin | lamax | laxch =>
    obtain ⟨op, rfl, rfl, rfl, z, fn⟩ := encM_eq_bodyOf_iff.mp (Option.some.inj h)
    rw [decodeBody_eq_decodeLcl op, decodeLcl, ← fn, ← z]
    rfl
  | aadd | amin | amax | aand | aor | axor | axch | acas | afadd | afmin | afmax | amxi =>
    obtain ⟨op, rfl, rfl, rfl, rfl, fn⟩ := encM_eq_bodyOf_iff.mp (Option.some.inj h)
    rw [decodeBody_eq_decodeAtom op, decodeAtom, ← fn]
    rfl
  | acq | rel | acqrel | fsmp | fbvh =>
    obtain ⟨op, fn, z⟩ := encF_eq_bodyOf_iff.mp (Option.some.inj h)
    rw [decodeBody_eq_decodeOrd op, decodeOrd, ← fn, ← z]
    rfl
  | ffar | invl =>
    obtain ⟨op, fn, imm⟩ := encF_eq_bodyOf_iff.mp (Option.some.inj h)
    obtain ⟨high, rfl⟩ := append_eq_fld_iff.mp imm
    obtain ⟨upper, z0⟩ := append_eq_fld_iff.mp high
    obtain ⟨z1, rfl⟩ := append_eq_fld_iff.mp upper
    rw [decodeBody_eq_decodeOrd op, decodeOrd, ← fn, ← z1, ← z0]
    rfl
  | pref =>
    obtain ⟨op, fn, imm⟩ := encF_eq_bodyOf_iff.mp (Option.some.inj h)
    obtain ⟨high, rfl⟩ := append_eq_fld_iff.mp imm
    obtain ⟨upper, rfl⟩ := append_eq_fld_iff.mp high
    obtain ⟨z, rfl⟩ := append_eq_fld_iff.mp upper
    rw [decodeBody_eq_decodeOrd op, decodeOrd, ← fn, ← z]
    rfl
  | esta | estw | estg | emrg | eld | eldr | egen =>
    obtain ⟨op, rfl, rfl, rfl, rfl, fn⟩ := encM_eq_bodyOf_iff.mp (Option.some.inj h)
    rw [decodeBody_eq_decodeEst op, decodeEst, ← fn]
    rfl
  | ewatch =>
    obtain ⟨op, rfl, rfl, rfl, z, fn⟩ := encM_eq_bodyOf_iff.mp (Option.some.inj h)
    rw [decodeBody_eq_decodeEst op, decodeEst, ← fn, ← z]
    rfl
  | eunw =>
    obtain ⟨op, rfl, rfl, z1, z0, fn⟩ := encM_eq_bodyOf_iff.mp (Option.some.inj h)
    rw [decodeBody_eq_decodeEst op, decodeEst, ← fn, ← append_eq_fld_iff.mpr ⟨z1, z0⟩]
    rfl
  | cmpt | clda | crep =>
    obtain ⟨op, rfl, rfl, rfl, rfl, fn⟩ := encM_eq_bodyOf_iff.mp (Option.some.inj h)
    rw [decodeBody_eq_decodeCmps op, decodeCmps, ← fn]
    rfl
  | cflush | cclr =>
    obtain ⟨op, z, rfl, rfl, rfl, fn⟩ := encM_eq_bodyOf_iff.mp (Option.some.inj h)
    rw [decodeBody_eq_decodeCmps op, decodeCmps, ← fn, ← z]
    rfl
  | cbind =>
    obtain ⟨op, rfl, rfl, rfl, z, fn⟩ := encM_eq_bodyOf_iff.mp (Option.some.inj h)
    rw [decodeBody_eq_decodeCmps op, decodeCmps, ← fn, ← z]
    rfl
  | bar | bara | barw =>
    obtain ⟨op, fn, imm⟩ := encF_eq_bodyOf_iff.mp (Option.some.inj h)
    obtain ⟨z, rfl⟩ := append_eq_fld_iff.mp imm
    rw [decodeBody_eq_decodeSync op, decodeSync, ← fn, ← z]
    rfl
  | barx =>
    obtain ⟨op, fn, imm⟩ := encF_eq_bodyOf_iff.mp (Option.some.inj h)
    obtain ⟨high, rfl⟩ := append_eq_fld_iff.mp imm
    obtain ⟨z, rfl⟩ := append_eq_fld_iff.mp high
    rw [decodeBody_eq_decodeSync op, decodeSync, ← fn, ← z]
    rfl
  | oapp =>
    obtain ⟨op, fn, imm⟩ := encF_eq_bodyOf_iff.mp (Option.some.inj h)
    obtain ⟨high, rfl⟩ := append_eq_fld_iff.mp imm
    obtain ⟨upper, rfl⟩ := append_eq_fld_iff.mp high
    obtain ⟨z, rfl⟩ := append_eq_fld_iff.mp upper
    rw [decodeBody_eq_decodeSync op, decodeSync, ← fn, ← z]
    rfl
  | odecl =>
    obtain ⟨op, fn, imm⟩ := encF_eq_bodyOf_iff.mp (Option.some.inj h)
    obtain ⟨high, z0⟩ := append_eq_fld_iff.mp imm
    obtain ⟨z1, rfl⟩ := append_eq_fld_iff.mp high
    rw [decodeBody_eq_decodeSync op, decodeSync, ← fn, ← z1, ← z0]
    rfl
  | lget | lpass =>
    obtain ⟨op, fn, z⟩ := encF_eq_bodyOf_iff.mp (Option.some.inj h)
    rw [decodeBody_eq_decodeSync op, decodeSync, ← fn, ← z]
    rfl
  | smpp | smpb | smpt | smpa | smpg | sfet | slat | sqry =>
    obtain ⟨op, rfl, rfl, rfl, rfl, fn⟩ := encM_eq_bodyOf_iff.mp (Option.some.inj h)
    rw [decodeBody_eq_decodeSmp op, decodeSmp, ← fn]
    rfl
  | dtbind =>
    obtain ⟨op, fn, imm⟩ := encF_eq_bodyOf_iff.mp (Option.some.inj h)
    obtain ⟨high, rfl⟩ := append_eq_fld_iff.mp imm
    obtain ⟨z, rfl⟩ := append_eq_fld_iff.mp high
    rw [decodeBody_eq_decodeDtb op, decodeDtb, ← fn, ← z]
    rfl
  | dtunb | dtqry =>
    obtain ⟨op, fn, imm⟩ := encF_eq_bodyOf_iff.mp (Option.some.inj h)
    obtain ⟨high, z0⟩ := append_eq_fld_iff.mp imm
    obtain ⟨z1, rfl⟩ := append_eq_fld_iff.mp high
    rw [decodeBody_eq_decodeDtb op, decodeDtb, ← fn, ← z1, ← z0]
    rfl
  | trace | tracea | tcall =>
    obtain ⟨op, rfl, rfl, rfl, z, fn⟩ := encM_eq_bodyOf_iff.mp (Option.some.inj h)
    rw [decodeBody_eq_decodeRay op, decodeRay, ← fn, ← z]
    rfl
  | trres =>
    obtain ⟨op, rfl, z2, z1, z0, fn⟩ := encM_eq_bodyOf_iff.mp (Option.some.inj h)
    have z := append_eq_fld_iff.mpr ⟨append_eq_fld_iff.mpr ⟨z2, z1⟩, z0⟩
    rw [decodeBody_eq_decodeRay op, decodeRay, ← fn, ← z]
    rfl
  | rdraw =>
    obtain ⟨op, fn, imm⟩ := encF_eq_bodyOf_iff.mp (Option.some.inj h)
    obtain ⟨high, rfl⟩ := append_eq_fld_iff.mp imm
    obtain ⟨z, rfl⟩ := append_eq_fld_iff.mp high
    rw [decodeBody_eq_decodeRast op, decodeRast, ← fn, ← z]
    rfl
  | rwait =>
    obtain ⟨op, fn, imm⟩ := encF_eq_bodyOf_iff.mp (Option.some.inj h)
    obtain ⟨high, z0⟩ := append_eq_fld_iff.mp imm
    obtain ⟨z1, rfl⟩ := append_eq_fld_iff.mp high
    rw [decodeBody_eq_decodeRast op, decodeRast, ← fn, ← z1, ← z0]
    rfl
  | wgenq =>
    obtain ⟨op, fn, imm⟩ := encF_eq_bodyOf_iff.mp (Option.some.inj h)
    obtain ⟨high, rfl⟩ := append_eq_fld_iff.mp imm
    obtain ⟨upper, rfl⟩ := append_eq_fld_iff.mp high
    obtain ⟨z, rfl⟩ := append_eq_fld_iff.mp upper
    rw [decodeBody_eq_decodeWork op, decodeWork, ← fn, ← z]
    rfl
  | launch =>
    obtain ⟨op, fn, imm⟩ := encF_eq_bodyOf_iff.mp (Option.some.inj h)
    obtain ⟨high, rfl⟩ := append_eq_fld_iff.mp imm
    obtain ⟨z, rfl⟩ := append_eq_fld_iff.mp high
    rw [decodeBody_eq_decodeWork op, decodeWork, ← fn, ← z]
    rfl
  | wgfin =>
    obtain ⟨op, fn, z⟩ := encF_eq_bodyOf_iff.mp (Option.some.inj h)
    rw [decodeBody_eq_decodeWork op, decodeWork, ← fn, ← z]
    rfl
  | mldf =>
    obtain ⟨op, imm, fn⟩ := encFL_eq_bodyOf_iff.mp (Option.some.inj h)
    obtain ⟨high, rfl⟩ := append_eq_fld_iff.mp imm
    obtain ⟨z, rfl⟩ := append_eq_fld_iff.mp high
    rw [decodeBody_eq_decodeMat op, decodeMat, ← fn, ← z]
    rfl
  | mma | mmaz | mdrain | mfill =>
    obtain ⟨op, rfl, rfl, rfl, z, fn⟩ := encR_eq_bodyOf_iff.mp (Option.some.inj h)
    rw [decodeBody_eq_decodeMat op, decodeMat, ← fn, ← ofBool_eq_fld_iff.mpr z]
    rfl
  | mpost =>
    obtain ⟨op, tile, rfl, rfl, z, fn⟩ := encR_eq_bodyOf_iff.mp (Option.some.inj h)
    obtain ⟨clear, rfl⟩ := append_eq_fld_iff.mp tile
    obtain rfl := ofBool_eq_fld_iff.mp clear
    rw [decodeBody_eq_decodeMat op, decodeMat, ← fn, ← ofBool_eq_fld_iff.mpr z]
    rfl
  | mwait =>
    obtain ⟨op, imm, fn⟩ := encFL_eq_bodyOf_iff.mp (Option.some.inj h)
    obtain ⟨high, rfl⟩ := append_eq_fld_iff.mp imm
    obtain ⟨z, every⟩ := append_eq_fld_iff.mp high
    obtain rfl := ofBool_eq_fld_iff.mp every
    rw [decodeBody_eq_decodeMat op, decodeMat, ← fn, ← z]
    rfl
  | mvnb =>
    obtain ⟨op, rfl, rfl, z1, z0, fn⟩ := encR_eq_bodyOf_iff.mp (Option.some.inj h)
    have z := append_eq_fld_iff.mpr ⟨z1, ofBool_eq_fld_iff.mpr z0⟩
    rw [decodeBody_eq_decodeMat op, decodeMat, ← fn, ← z]
    rfl
  | mvwait =>
    obtain ⟨op, z, fn⟩ := encFL_eq_bodyOf_iff.mp (Option.some.inj h)
    rw [decodeBody_eq_decodeMat op, decodeMat, ← fn, ← z]
    rfl
  | hload | hstore | hmcast | hpref | hqry =>
    obtain ⟨op, rfl, rfl, rfl, rfl, fn⟩ := encM_eq_bodyOf_iff.mp (Option.some.inj h)
    rw [decodeBody_eq_decodeHamp op, decodeHamp, ← fn]
    rfl
  | hbatch | waitb =>
    obtain ⟨op, imm, fn⟩ := encFL_eq_bodyOf_iff.mp (Option.some.inj h)
    obtain ⟨z, rfl⟩ := append_eq_fld_iff.mp imm
    rw [decodeBody_eq_decodeHamp op, decodeHamp, ← fn, ← z]
    rfl
  | trap | scall | bkpt | rdtime =>
    obtain ⟨op, fn, imm⟩ := encF_eq_bodyOf_iff.mp (Option.some.inj h)
    obtain ⟨z, rfl⟩ := append_eq_fld_iff.mp imm
    rw [decodeBody_eq_decodeSys op, decodeSys, ← fn, ← z]
    rfl
  | rte | exit =>
    obtain ⟨op, fn, z⟩ := encF_eq_bodyOf_iff.mp (Option.some.inj h)
    rw [decodeBody_eq_decodeSys op, decodeSys, ← fn, ← z]
    rfl
  | ctlr | ctlw =>
    obtain ⟨op, fn, imm⟩ := encF_eq_bodyOf_iff.mp (Option.some.inj h)
    obtain ⟨high, rfl⟩ := append_eq_fld_iff.mp imm
    obtain ⟨z, rfl⟩ := append_eq_fld_iff.mp high
    rw [decodeBody_eq_decodeSys op, decodeSys, ← fn, ← z]
    rfl
  | const =>
    obtain ⟨op, rfl⟩ := encX_eq_bodyOf_iff.mp (Option.some.inj h)
    rw [decodeBody, ← op]
    rfl
  | _ => cases h

/-! ### What is decoded is encoded in the word -/

/-- What the decoder reads, if it reads an instruction, is the one whose encoding stands in the word. -/
def EncodedIn (w : Word) (r : Except Reject Instr) : Prop := ∀ i, r = .ok i → encodeBody i = some (bodyOf w)

theorem EncodedIn.ok {w : Word} {i : Instr} (h : encodeBody i = some (bodyOf w)) : EncodedIn w (.ok i) := by
  rintro _ ⟨⟩
  exact h

theorem EncodedIn.zero {w : Word} {n : Nat} {x : BitVec n} {i : Instr} (h : 0#n = x → encodeBody i = some (bodyOf w)) :
    EncodedIn w (Sys2Proof.zero x i) := by
  unfold Sys2Proof.zero
  split
  next z => exact .ok (h z.symm)
  next => exact fun _ none => nomatch none

theorem EncodedIn.error {w : Word} {r : Reject} : EncodedIn w (.error r) := fun _ none => nomatch none

section
variable {w : Word} {o d a b : BitVec 6} {f p : BitVec 5} {l : Bool} {imm : BitVec 19} {h : BitVec 2}

/-- A word of format R, by its opcode and FN; its other fields are those named, unless they are given. -/
theorem encR_stands (op : (fld w 24 6).toNat = o.toNat) (fn : (fld w 0 5).toNat = f.toNat) (hd : d = fld w 18 6 := by rfl)
    (ha : a = fld w 12 6 := by rfl) (hb : b = fld w 6 6 := by rfl) (hl : l = w.getLsbD 5 := by rfl) :
    some (encR o f d a b l) = some (bodyOf w) :=
  congrArg some (encR_eq_bodyOf_iff.mpr ⟨BitVec.eq_of_toNat_eq op.symm, hd, ha, hb, hl, BitVec.eq_of_toNat_eq fn.symm⟩)

/-- A word of format M. -/
theorem encM_stands (op : (fld w 24 6).toNat = o.toNat) (fn : (fld w 0 5).toNat = f.toNat) (hd : d = fld w 18 6 := by rfl)
    (ha : a = fld w 12 6 := by rfl) (hp : p = fld w 7 5 := by rfl) (hh : h = fld w 5 2 := by rfl) :
    some (encM o f d a p h) = some (bodyOf w) :=
  congrArg some (encM_eq_bodyOf_iff.mpr ⟨BitVec.eq_of_toNat_eq op.symm, hd, ha, hp, hh, BitVec.eq_of_toNat_eq fn.symm⟩)

/-- A word of format F. -/
theorem encF_stands (op : (fld w 24 6).toNat = o.toNat) (fn : (fld w 19 5).toNat = f.toNat) (him : imm = fld w 0 19) :
    some (encF o f imm) = some (bodyOf w) :=
  congrArg some (encF_eq_bodyOf_iff.mpr ⟨BitVec.eq_of_toNat_eq op.symm, BitVec.eq_of_toNat_eq fn.symm, him⟩)

/-- A word of format FL. -/
theorem encFL_stands (op : (fld w 24 6).toNat = o.toNat) (fn : (fld w 0 5).toNat = f.toNat) (him : imm = fld w 5 19) :
    some (encFL o imm f) = some (bodyOf w) :=
  congrArg some (encFL_eq_bodyOf_iff.mpr ⟨BitVec.eq_of_toNat_eq op.symm, him, BitVec.eq_of_toNat_eq fn.symm⟩)

/-- A word of format I. -/
theorem encI_stands {i : BitVec 12} (op : (fld w 24 6).toNat = o.toNat) (hd : d = fld w 18 6 := by rfl)
    (ha : a = fld w 12 6 := by rfl) (hi : i = fld w 0 12 := by rfl) : some (encI o d a i) = some (bodyOf w) :=
  congrArg some (encI_eq_bodyOf_iff.mpr ⟨BitVec.eq_of_toNat_eq op.symm, hd, ha, hi⟩)

theorem decodeFlow_encodedIn (op : (fld w 24 6).toNat = 0x00) : EncodedIn w (decodeFlow w) := by
  unfold decodeFlow
  split
  case h_2 fn | h_9 fn => exact .ok (encF_stands op fn rfl)
  case h_5 fn | h_10 fn => exact .zero fun z => encF_stands op fn (append_eq_fld_iff.mpr ⟨z, rfl⟩)
  case h_6 fn =>
    exact .zero fun z => encF_stands op fn (append_eq_fld_iff.mpr ⟨append_eq_fld_iff.mpr ⟨z, rfl⟩, rfl⟩)
  case h_7 fn => exact .ok (encF_stands op fn (append_eq_fld_iff.mpr ⟨rfl, rfl⟩))
  case h_11 => exact .error
  all_goals next fn => exact .zero (encF_stands op fn)

theorem decodeSalu_encodedIn (op : (fld w 24 6).toNat = 0x04) : EncodedIn w (decodeSalu w) := by
  unfold decodeSalu
  split
  case h_23 fn | h_24 fn | h_25 fn => exact .zero fun z => encR_stands op fn (hb := z)
  case h_26 => exact .error
  all_goals next fn => exact .ok (encR_stands op fn)

theorem decodeVint_encodedIn (op : (fld w 24 6).toNat = 0x08) : EncodedIn w (decodeVint w) := by
  unfold decodeVint
  split
  case h_9 fn | h_18 fn | h_19 fn | h_20 fn | h_21 fn | h_22 fn => exact .zero fun z => encR_stands op fn (hb := z)
  case h_24 => exact .error
  all_goals next fn => exact .ok (encR_stands op fn)

theorem decodeVcmp_encodedIn (op : (fld w 24 6).toNat = 0x0C) : EncodedIn w (decodeVcmp w) := by
  unfold decodeVcmp
  split
  case h_12 => exact .error
  all_goals next fn => exact .ok (encR_stands op fn)

theorem decodeVdot_encodedIn (op : (fld w 24 6).toNat = 0x0D) : EncodedIn w (decodeVdot w) := by
  unfold decodeVdot
  split
  case h_9 => exact .error
  all_goals next fn => exact .ok (encR_stands op fn)

theorem decodeVf32_encodedIn (op : (fld w 24 6).toNat = 0x0E) : EncodedIn w (decodeVf32 w) := by
  unfold decodeVf32
  split
  case h_11 fn | h_12 fn | h_14 fn | h_15 fn | h_16 fn => exact .zero fun z => encR_stands op fn (hb := z)
  case h_17 => exact .error
  all_goals next fn => exact .ok (encR_stands op fn)

theorem decodeVf16_encodedIn (op : (fld w 24 6).toNat = 0x0F) : EncodedIn w (decodeVf16 w) := by
  unfold decodeVf16
  split
  case h_10 => exact .error
  all_goals next fn => exact .ok (encR_stands op fn)

theorem decodeXsf_encodedIn (op : (fld w 24 6).toNat = 0x11) : EncodedIn w (decodeXsf w) := by
  unfold decodeXsf
  split
  case h_9 fn => exact .ok (encR_stands op fn)
  case h_10 => exact .error
  all_goals next fn => exact .zero fun z => encR_stands op fn (hb := z)

theorem decodeXpack_encodedIn (op : (fld w 24 6).toNat = 0x12) : EncodedIn w (decodeXpack w) := by
  unfold decodeXpack
  split
  case h_1 fn | h_2 fn | h_4 fn => exact .zero fun z => encR_stands op fn (hb := z)
  case h_7 => exact .error
  all_goals next fn => exact .ok (encR_stands op fn)

theorem decodeXqnt_encodedIn (op : (fld w 24 6).toNat = 0x13) : EncodedIn w (decodeXqnt w) := by
  unfold decodeXqnt
  split
  case h_8 => exact .error
  all_goals next fn => exact .ok (encR_stands op fn)

theorem decodeXrng_encodedIn (op : (fld w 24 6).toNat = 0x14) : EncodedIn w (decodeXrng w) := by
  unfold decodeXrng
  split
  case h_1 fn | h_2 fn =>
    refine .zero fun z => ?_
    obtain ⟨high, low⟩ := (zero_eq_fld_iff 5 12 1).mp z
    obtain ⟨ha, hb⟩ := (zero_eq_fld_iff 6 6 6).mp high
    exact encR_stands op fn (ha := ha) (hb := hb) (hl := zero_eq_bit_iff.mp low)
  case h_3 fn => exact .ok (encR_stands op fn)
  case h_4 fn => exact .zero fun z => encR_stands op fn (hd := z)
  case h_5 => exact .error

theorem decodeWlane_encodedIn (op : (fld w 24 6).toNat = 0x15) : EncodedIn w (decodeWlane w) := by
  unfold decodeWlane
  split
  case h_1 fn | h_2 fn | h_3 fn | h_4 fn | h_5 fn | h_21 fn | h_22 fn => exact .ok (encR_stands op fn)
  case h_23 fn =>
    refine .zero fun z => ?_
    obtain ⟨ha, low⟩ := append_eq_zero_iff.mp z
    exact encR_stands op fn (ha := ha) (hl := zero_eq_bit_iff.mp low)
  case h_24 fn =>
    refine .zero fun z => ?_
    obtain ⟨high, low⟩ := append_eq_zero_iff.mp z
    obtain ⟨regs, bit⟩ := (zero_eq_fld_iff 11 12 1).mp high
    obtain ⟨hd, ha⟩ := (zero_eq_fld_iff 12 6 6).mp regs
    exact encR_stands op fn (hd := hd) (ha := ha) (hb := append_eq_fld_iff.mpr ⟨bit, rfl⟩) (hl := zero_eq_bit_iff.mp low)
  case h_25 => exact .error
  all_goals next fn => exact .zero fun z => encR_stands op fn (hb := z)

theorem decodeLd_encodedIn (op : (fld w 24 6).toNat = 0x18) : EncodedIn w (decodeLd w) := by
  unfold decodeLd
  split
  case h_11 => exact .error
  all_goals next fn => exact .ok (encM_stands op fn)

theorem decodeSt_encodedIn (op : (fld w 24 6).toNat = 0x19) : EncodedIn w (decodeSt w) := by
  unfold decodeSt
  split
  case h_9 => exact .error
  all_goals next fn => exact .ok (encM_stands op fn)

theorem decodeLcl_encodedIn (op : (fld w 24 6).toNat = 0x1A) : EncodedIn w (decodeLcl w) := by
  unfold decodeLcl
  split
  case h_11 => exact .error
  all_goals next fn => exact .zero fun z => encM_stands op fn (hh := z)

theorem decodeAtom_encodedIn (op : (fld w 24 6).toNat = 0x1B) : EncodedIn w (decodeAtom w) := by
  unfold decodeAtom
  split
  case h_13 => exact .error
  all_goals next fn => exact .ok (encM_stands op fn)

theorem decodeOrd_encodedIn (op : (fld w 24 6).toNat = 0x1C) : EncodedIn w (decodeOrd w) := by
  unfold decodeOrd
  split
  case h_6 fn | h_8 fn =>
    refine .zero fun z => encF_stands op fn ?_
    obtain ⟨high, low⟩ := append_eq_zero_iff.mp z
    exact append_eq_fld_iff.mpr ⟨append_eq_fld_iff.mpr ⟨append_eq_fld_iff.mpr ⟨high, rfl⟩, low⟩, rfl⟩
  case h_7 fn =>
    refine .zero fun z => encF_stands op fn ?_
    exact append_eq_fld_iff.mpr ⟨append_eq_fld_iff.mpr ⟨append_eq_fld_iff.mpr ⟨z, rfl⟩, rfl⟩, rfl⟩
  case h_9 => exact .error
  all_goals next fn => exact .zero (encF_stands op fn)

theorem decodeEst_encodedIn (op : (fld w 24 6).toNat = 0x1D) : EncodedIn w (decodeEst w) := by
  unfold decodeEst
  split
  case h_8 fn => exact .zero fun z => encM_stands op fn (hh := z)
  case h_9 fn =>
    refine .zero fun z => ?_
    obtain ⟨hp, hh⟩ := (zero_eq_fld_iff 5 5 2).mp z
    exact encM_stands op fn (hp := hp) (hh := hh)
  case h_10 => exact .error
  all_goals next fn => exact .ok (encM_stands op fn)

theorem decodeCmps_encodedIn (op : (fld w 24 6).toNat = 0x1E) : EncodedIn w (decodeCmps w) := by
  unfold decodeCmps
  split
  case h_3 fn | h_4 fn => exact .zero fun z => encM_stands op fn (hd := z)
  case h_6 fn => exact .zero fun z => encM_stands op fn (hh := z)
  case h_7 => exact .error
  all_goals next fn => exact .ok (encM_stands op fn)

theorem decodeSync_encodedIn (op : (fld w 24 6).toNat = 0x1F) : EncodedIn w (decodeSync w) := by
  unfold decodeSync
  split
  case h_4 fn => exact .zero fun z => encF_stands op fn (append_eq_fld_iff.mpr ⟨append_eq_fld_iff.mpr ⟨z, rfl⟩, rfl⟩)
  case h_5 fn =>
    refine .zero fun z => encF_stands op fn ?_
    exact append_eq_fld_iff.mpr ⟨append_eq_fld_iff.mpr ⟨append_eq_fld_iff.mpr ⟨z, rfl⟩, rfl⟩, rfl⟩
  case h_6 fn =>
    refine .zero fun z => encF_stands op fn ?_
    obtain ⟨high, low⟩ := append_eq_zero_iff.mp z
    exact append_eq_fld_iff.mpr ⟨append_eq_fld_iff.mpr ⟨high, rfl⟩, low⟩
  case h_7 fn | h_8 fn => exact .zero (encF_stands op fn)
  case h_9 => exact .error
  all_goals next fn => exact .zero fun z => encF_stands op fn (append_eq_fld_iff.mpr ⟨z, rfl⟩)

theorem decodeSmp_encodedIn (op : (fld w 24 6).toNat = 0x20) : EncodedIn w (decodeSmp w) := by
  unfold decodeSmp
  split
  case h_9 => exact .error
  all_goals next fn => exact .ok (encM_stands op fn)

theorem decodeDtb_encodedIn (op : (fld w 24 6).toNat = 0x21) : EncodedIn w (decodeDtb w) := by
  unfold decodeDtb
  split
  case h_1 fn => exact .zero fun z => encF_stands op fn (append_eq_fld_iff.mpr ⟨append_eq_fld_iff.mpr ⟨z, rfl⟩, rfl⟩)
  case h_4 => exact .error
  all_goals
    next fn =>
      refine .zero fun z => encF_stands op fn ?_
      obtain ⟨high, low⟩ := append_eq_zero_iff.mp z
      exact append_eq_fld_iff.mpr ⟨append_eq_fld_iff.mpr ⟨high, rfl⟩, low⟩

theorem decodeRay_encodedIn (op : (fld w 24 6).toNat = 0x22) : EncodedIn w (decodeRay w) := by
  unfold decodeRay
  split
  case h_4 fn =>
    refine .zero fun z => ?_
    obtain ⟨high, hh⟩ := (zero_eq_fld_iff 5 11 2).mp z
    obtain ⟨ha, hp⟩ := (zero_eq_fld_iff 7 6 5).mp high
    exact encM_stands op fn (ha := ha) (hp := hp) (hh := hh)
  case h_5 => exact .error
  all_goals next fn => exact .zero fun z => encM_stands op fn (hh := z)

theorem decodeRast_encodedIn (op : (fld w 24 6).toNat = 0x23) : EncodedIn w (decodeRast w) := by
  unfold decodeRast
  split
  case h_1 fn => exact .zero fun z => encF_stands op fn (append_eq_fld_iff.mpr ⟨append_eq_fld_iff.mpr ⟨z, rfl⟩, rfl⟩)
  case h_2 fn =>
    refine .zero fun z => encF_stands op fn ?_
    obtain ⟨high, low⟩ := append_eq_zero_iff.mp z
    exact append_eq_fld_iff.mpr ⟨append_eq_fld_iff.mpr ⟨high, rfl⟩, low⟩
  case h_3 => exact .error

theorem decodeWork_encodedIn (op : (fld w 24 6).toNat = 0x24) : EncodedIn w (decodeWork w) := by
  unfold decodeWork
  split
  case h_1 fn =>
    refine .zero fun z => encF_stands op fn ?_
    exact append_eq_fld_iff.mpr ⟨append_eq_fld_iff.mpr ⟨append_eq_fld_iff.mpr ⟨z, rfl⟩, rfl⟩, rfl⟩
  case h_2 fn => exact .zero fun z => encF_stands op fn (append_eq_fld_iff.mpr ⟨append_eq_fld_iff.mpr ⟨z, rfl⟩, rfl⟩)
  case h_3 fn => exact .zero (encF_stands op fn)
  case h_4 => exact .error

theorem decodeMat_encodedIn (op : (fld w 24 6).toNat = 0x28) : EncodedIn w (decodeMat w) := by
  unfold decodeMat
  split
  case h_1 fn => exact .zero fun z => encFL_stands op fn (append_eq_fld_iff.mpr ⟨append_eq_fld_iff.mpr ⟨z, rfl⟩, rfl⟩)
  case h_4 fn =>
    refine .zero fun z => encR_stands op fn (hd := ?_) (hl := zero_eq_bit_iff.mp z)
    exact append_eq_fld_iff.mpr ⟨ofBool_eq_fld_iff.mpr rfl, rfl⟩
  case h_5 fn =>
    refine .zero fun z => encFL_stands op fn ?_
    exact append_eq_fld_iff.mpr ⟨append_eq_fld_iff.mpr ⟨z, ofBool_eq_fld_iff.mpr rfl⟩, rfl⟩
  case h_8 fn =>
    refine .zero fun z => ?_
    obtain ⟨hb, low⟩ := (zero_eq_fld_iff 5 6 1).mp z
    exact encR_stands op fn (hb := hb) (hl := zero_eq_bit_iff.mp low)
  case h_9 fn => exact .zero (encFL_stands op fn)
  case h_10 => exact .error
  all_goals next fn => exact .zero fun z => encR_stands op fn (hl := zero_eq_bit_iff.mp z)

theorem decodeHamp_encodedIn (op : (fld w 24 6).toNat = 0x2C) : EncodedIn w (decodeHamp w) := by
  unfold decodeHamp
  split
  case h_5 fn | h_6 fn => exact .zero fun z => encFL_stands op fn (append_eq_fld_iff.mpr ⟨z, rfl⟩)
  case h_8 => exact .error
  all_goals next fn => exact .ok (encM_stands op fn)

theorem decodeSys_encodedIn (op : (fld w 24 6).toNat = 0x3E) : EncodedIn w (decodeSys w) := by
  unfold decodeSys
  split
  case h_2 fn | h_7 fn => exact .zero (encF_stands op fn)
  case h_4 fn | h_5 fn =>
    exact .zero fun z => encF_stands op fn (append_eq_fld_iff.mpr ⟨append_eq_fld_iff.mpr ⟨z, rfl⟩, rfl⟩)
  case h_9 => exact .error
  all_goals next fn => exact .zero fun z => encF_stands op fn (append_eq_fld_iff.mpr ⟨z, rfl⟩)

theorem decodeLow_encodedIn : EncodedIn w (decodeLow w) := by
  unfold decodeLow
  split
  case h_1 op => exact decodeFlow_encodedIn op
  case h_2 op =>
    split
    next link => exact .ok (congrArg some (encB_eq_bodyOf_iff.mpr ⟨BitVec.eq_of_toNat_eq op.symm, link.symm, rfl⟩))
    next plain =>
      exact .ok (congrArg some (encB_eq_bodyOf_iff.mpr
        ⟨BitVec.eq_of_toNat_eq op.symm, (Bool.eq_false_iff.mpr plain).symm, rfl⟩))
  case h_3 op | h_4 op =>
    exact .ok (congrArg some (encB16_eq_bodyOf_iff.mpr ⟨BitVec.eq_of_toNat_eq op.symm, rfl, rfl, rfl⟩))
  case h_5 op => exact decodeSalu_encodedIn op
  case h_6 op | h_7 op | h_8 op | h_10 op | h_11 op => exact .ok (encI_stands op)
  case h_9 op => exact decodeVint_encodedIn op
  case h_12 op => exact .zero fun z => encI_stands op (ha := z)
  case h_13 op => exact decodeVcmp_encodedIn op
  case h_14 op => exact decodeVdot_encodedIn op
  case h_15 op => exact decodeVf32_encodedIn op
  case h_16 op => exact decodeVf16_encodedIn op
  case h_17 op =>
    exact .ok (congrArg some (encC_eq_bodyOf_iff.mpr ⟨BitVec.eq_of_toNat_eq op.symm, rfl, rfl, rfl, rfl, rfl, rfl⟩))
  case h_18 op => exact decodeXsf_encodedIn op
  case h_19 op => exact decodeXpack_encodedIn op
  case h_20 op => exact decodeXqnt_encodedIn op
  case h_21 op => exact decodeXrng_encodedIn op
  case h_22 op => exact decodeWlane_encodedIn op
  case h_23 op => exact decodeLd_encodedIn op
  case h_24 op => exact decodeSt_encodedIn op
  case h_25 op => exact decodeLcl_encodedIn op
  case h_26 op => exact decodeAtom_encodedIn op
  case h_27 op => exact decodeOrd_encodedIn op
  case h_28 op => exact decodeEst_encodedIn op
  case h_29 op => exact decodeCmps_encodedIn op
  case h_30 op => exact decodeSync_encodedIn op
  case h_31 op => exact decodeSmp_encodedIn op
  case h_32 => exact .error

theorem decodeBody_encodedIn : EncodedIn w (decodeBody w) := by
  unfold decodeBody
  split
  case h_1 op => exact decodeDtb_encodedIn op
  case h_2 op => exact decodeRay_encodedIn op
  case h_3 op => exact decodeRast_encodedIn op
  case h_4 op => exact decodeWork_encodedIn op
  case h_5 op => exact decodeMat_encodedIn op
  case h_6 op => exact decodeHamp_encodedIn op
  case h_7 op => exact decodeSys_encodedIn op
  case h_8 op => exact .ok (congrArg some (encX_eq_bodyOf_iff.mpr ⟨BitVec.eq_of_toNat_eq op.symm, rfl⟩))
  case h_9 => exact decodeLow_encodedIn

end

/-! ### Words and instructions -/

/-- The decoder reads an instruction in bits [29:0] exactly when its encoding stands there. -/
theorem decodeBody_eq_ok_iff {w : Word} {i : Instr} : decodeBody w = .ok i ↔ encodeBody i = some (bodyOf w) :=
  ⟨decodeBody_encodedIn i, decodeBody_of_encodeBody⟩

/-- A word is its chain bit, its switch marker and its body (R16). -/
theorem eq_wordOf_iff {w : Word} {c k : Bool} {b : BitVec 30} :
    (BitVec.ofBool c ++ BitVec.ofBool k ++ b : BitVec (1 + 1 + 30)) = w ↔
      c = w.getLsbD 31 ∧ k = w.getLsbD 30 ∧ b = bodyOf w := by
  have whole : w = fld w 0 (1 + 1 + 30) := (BitVec.extractLsb'_eq_self (x := w)).symm
  rw [whole, append_eq_fld_iff, append_eq_fld_iff, ofBool_eq_fld_iff, ofBool_eq_fld_iff, ← whole, and_assoc]
  rfl

theorem encode_eq_some_iff {w : Word} {c k : Bool} {i : Instr} :
    encode c k i = some w ↔ c = w.getLsbD 31 ∧ k = w.getLsbD 30 ∧ encodeBody i = some (bodyOf w) := by
  unfold encode
  cases encodeBody i with
  | none => simp
  | some b => simp [eq_wordOf_iff]

/-- The decoder gives an instruction that stands in the word with fields that may be so, and no other (R23, R26, R29). -/
theorem decodeWord_eq_word_iff {w : Word} {c k : Bool} {i : Instr} : decodeWord w = .word c k i ↔
    decodeBody w = .ok i ∧ i.wellFormed = true ∧ (i.isConst = true → w.getLsbD 30 = false) ∧
      c = w.getLsbD 31 ∧ k = w.getLsbD 30 := by
  unfold decodeWord
  cases decodeBody w with
  | error r => simp
  | ok j =>
    simp only [Except.ok.injEq]
    by_cases fields : j.wellFormed = true
    · by_cases marker : j.isConst = true → w.getLsbD 30 = false
      · have kept : ¬ (j.isConst && w.getLsbD 30) = true := by simpa using marker
        rw [if_neg (by simp [fields]), if_neg kept, Decoded.word.injEq]
        constructor
        · rintro ⟨rfl, rfl, rfl⟩
          exact ⟨rfl, fields, marker, rfl, rfl⟩
        · rintro ⟨rfl, -, -, rfl, rfl⟩
          exact ⟨rfl, rfl, rfl⟩
      · have marked : (j.isConst && w.getLsbD 30) = true := by simpa using marker
        rw [if_neg (by simp [fields]), if_pos marked]
        exact ⟨nofun, fun ⟨same, _, holds, _⟩ => absurd (same ▸ holds) marker⟩
    · rw [if_pos (by simpa using fields)]
      exact ⟨nofun, fun ⟨same, holds, _⟩ => absurd (same ▸ holds) fields⟩

/-- Settles O2: the decoder reads the instruction whose encoding stands in the word, and the checks of its fields are those
of well-formedness. -/
theorem decodeAndEncodeAgree : Obligations.DecodeAndEncodeAgree := by
  intro w c k i
  rw [decodeWord_eq_word_iff, decodeBody_eq_ok_iff, encode_eq_some_iff]
  constructor
  · rintro ⟨stands, fields, marker, rfl, rfl⟩
    exact ⟨fields, marker, rfl, rfl, stands⟩
  · rintro ⟨fields, marker, rfl, rfl, stands⟩
    exact ⟨stands, fields, marker, rfl, rfl⟩

end Sys2Proof
end

/-! ## Integer vector words and dot products (R97 to R103) -/

section
namespace Sys2Proof

open Machine

/-! ### Results and tags -/

theorem tagAffine2_eq (x y : Tag) : tagAffine2 x y =
    if x = .u ∧ y = .u then Tag.u else if x = .a ∧ y = .u ∨ x = .u ∧ y = .a then .a else .g := by
  cases x <;> cases y <;> rfl

section
variable {s : State} {i : Instr} {d a b : Reg} {l : Bool} {tag : Tag}

/-- A word that `vint2t` performs writes the function of its two operands. -/
theorem runsV2_of_vint2t {f g : Word → Word → Word} (runs : exec i s = .next (vint2t g tag d a b l s))
    (same : ∀ x y, g x y = f x y) : RunsV2 s i d a b l tag f := by
  obtain rfl : g = f := funext fun x => funext (same x)
  exact ⟨_, runs, vectorTo s d a l _ tag⟩

/-- A word that `vint1t` performs writes the function of its operand. -/
theorem runsV1_of_vint1t {f g : Word → Word} (runs : exec i s = .next (vint1t g tag d a l s)) (same : ∀ x, g x = f x) :
    RunsV1 s i d a l tag f := by
  obtain rfl : g = f := funext same
  exact ⟨_, runs, vectorTo s d a l _ tag⟩

/-- A word that `vint3` performs writes the function of its two operands and the old vD. -/
theorem runsV3_of_vint3 {f g : Word → Word → Word → Word} (runs : exec i s = .next (vint3 g d a b l s))
    (same : ∀ x y z, g x y z = f x y z) : RunsV3 s i d a b l (s.tagU [a, b, d]) f := by
  obtain rfl : g = f := funext fun x => funext fun y => funext (same x y)
  exact ⟨_, runs, vectorTo s d a l _ _⟩

end

/-! ### The immediate of R22 and R23 -/

theorem immS_eq (s : State) (i : BitVec 12) : s.immS i = match s.ctx.ext with
    | some p => p.setWidth 20 ++ i
    | none => i.signExtend 32 := by
  unfold State.immS
  cases s.ctx.ext with
  | none => rfl
  | some p =>
    have low : p.extractLsb' 0 20 = p.setWidth 20 := by simp [BitVec.setWidth_eq_extractLsb']
    exact congrArg (· ++ i) low

/-! ### The integer dot products (R103) -/

theorem bitsOf_eq (x : Word) (lo n : Nat) : bitsOf x lo n = (x.extractLsb' lo n).toNat := by
  rw [BitVec.extractLsb'_toNat, Nat.shiftRight_eq_div_pow]
  rfl

/-- An unsigned element of a lane. -/
theorem zext_bitsOf (x : Word) (lo n : Nat) : zext (bitsOf x lo n) n = (x.extractLsb' lo n).toNat := by
  rw [bitsOf_eq]
  exact Nat.mod_eq_of_lt (BitVec.isLt _)

/-- A signed element of a lane. -/
theorem sext_bitsOf (x : Word) (lo n : Nat) : sext (bitsOf x lo (n + 1)) (n + 1) = (x.extractLsb' lo (n + 1)).toInt := by
  have small := (x.extractLsb' lo (n + 1)).isLt
  rw [bitsOf_eq, BitVec.toInt_eq_toNat_cond]
  unfold sext
  simp only [Nat.mod_eq_of_lt small, Nat.add_sub_cancel, ne_eq, Nat.add_eq_zero_iff, one_ne_zero, and_false, not_false_iff,
    true_and]
  rw [Nat.pow_succ] at *
  by_cases negative : 2 ^ n ≤ (x.extractLsb' lo (n + 1)).toNat
  · rw [if_pos negative, if_neg (by omega)]
    push_cast
    ring
  · rw [if_neg negative, if_pos (by omega)]

/-- The exact total of four products of bytes and the old vD. -/
theorem dotInt_bytes (x y z : Word) : dotInt 4 8 true x y z =
    z.toInt + (x.extractLsb' (8 * 0) 8).toInt * (y.extractLsb' (8 * 0) 8).toInt +
      (x.extractLsb' (8 * 1) 8).toInt * (y.extractLsb' (8 * 1) 8).toInt +
      (x.extractLsb' (8 * 2) 8).toInt * (y.extractLsb' (8 * 2) 8).toInt +
      (x.extractLsb' (8 * 3) 8).toInt * (y.extractLsb' (8 * 3) 8).toInt := by
  simp only [← sext_bitsOf]
  rfl

/-- The exact total of four products of an unsigned and a signed byte, and the old vD. -/
theorem dotInt_ubytes (x y z : Word) : dotInt 4 8 false x y z =
    z.toInt + (x.extractLsb' (8 * 0) 8).toNat * (y.extractLsb' (8 * 0) 8).toInt +
      (x.extractLsb' (8 * 1) 8).toNat * (y.extractLsb' (8 * 1) 8).toInt +
      (x.extractLsb' (8 * 2) 8).toNat * (y.extractLsb' (8 * 2) 8).toInt +
      (x.extractLsb' (8 * 3) 8).toNat * (y.extractLsb' (8 * 3) 8).toInt := by
  simp only [← sext_bitsOf, ← zext_bitsOf]
  rfl

/-- The exact total of eight products of nibbles and the old vD. -/
theorem dotInt_nibbles (x y z : Word) : dotInt 8 4 true x y z =
    (List.range 8).foldl (fun t i => t + (x.extractLsb' (4 * i) 4).toInt * (y.extractLsb' (4 * i) 4).toInt) z.toInt := by
  simp only [← sext_bitsOf]
  rfl

/-! ### Every VINT word and integer dot product -/

/-- Settles O10: each word is one of `vint1t`, `vint2t` and `vint3` with its function of a lane. -/
theorem vectorIntegerWordsWriteTheirResult : Obligations.VectorIntegerWordsWriteTheirResult := by
  refine ⟨fun s d a b n l => ?_, fun s d a i => ?_, fun s d a b l => ?_⟩
  · intro u2 u1 u3 affine
    have tags : tagAffine2 (s.tagOf a) (s.tagOf b) = affine := tagAffine2_eq _ _
    refine ⟨?_, ?_, ?_, ?_, ?_, ?_, ?_, ?_, ?_, ?_, ?_, ?_, fun _ => ?_, fun _ => ?_, fun _ => ?_, ?_, ?_, ?_, ?_, ?_, ?_,
      ?_, ?_⟩
    · exact tags ▸ runsV2_of_vint2t rfl fun _ _ => rfl
    · exact tags ▸ runsV2_of_vint2t rfl fun _ _ => rfl
    · exact runsV2_of_vint2t rfl fun _ _ => rfl
    · exact runsV2_of_vint2t rfl fun _ _ => rfl
    · exact runsV3_of_vint3 rfl fun _ _ _ => rfl
    · exact runsV2_of_vint2t rfl fun _ _ => rfl
    · exact runsV2_of_vint2t rfl fun _ _ => rfl
    · exact runsV2_of_vint2t rfl fun _ _ => rfl
    · exact runsV1_of_vint1t rfl fun _ => rfl
    · exact runsV2_of_vint2t rfl fun _ _ => rfl
    · exact runsV2_of_vint2t rfl fun _ _ => rfl
    · exact runsV2_of_vint2t rfl sraW_eq
    · exact runsV1_of_vint1t rfl fun _ => rfl
    · exact runsV1_of_vint1t rfl fun _ => rfl
    · exact runsV1_of_vint1t rfl fun _ => rfl
    · exact runsV2_of_vint2t rfl sminW_eq
    · exact runsV2_of_vint2t rfl smaxW_eq
    · exact runsV1_of_vint1t rfl absW_eq
    · exact runsV1_of_vint1t rfl fun x => (BitVec.zero_sub x).symm
    · exact runsV1_of_vint1t rfl fun _ => rfl
    · exact runsV1_of_vint1t rfl fun _ => rfl
    · exact runsV1_of_vint1t rfl fun _ => rfl
    · exact runsV3_of_vint3 rfl fun _ _ _ => rfl
  · intro imm
    have value : s.immS i = imm := immS_eq s i
    refine ⟨?_, ?_, _, rfl, ?_⟩
    · exact runsV1_of_vint1t rfl fun x => congrArg (x + ·) value
    · exact runsV1_of_vint1t rfl fun x => congrArg (x &&& ·) value
    · exact value ▸ vectorTo_plain s d d _ _
  · intro byte nibble bytes ubytes nibbles wrap sat tag
    refine ⟨?_, ?_, ?_, ?_, ?_, ?_⟩
    · exact runsV3_of_vint3 rfl fun x y z => congrArg wordOfInt (dotInt_bytes x y z)
    · exact runsV3_of_vint3 rfl fun x y z => congrArg sat (dotInt_bytes x y z)
    · exact runsV3_of_vint3 rfl fun x y z => congrArg wordOfInt (dotInt_ubytes x y z)
    · exact runsV3_of_vint3 rfl fun x y z => congrArg sat (dotInt_ubytes x y z)
    · exact runsV3_of_vint3 rfl fun x y z => congrArg wordOfInt (dotInt_nibbles x y z)
    · exact runsV3_of_vint3 rfl fun x y z => congrArg sat (dotInt_nibbles x y z)

end Sys2Proof
end

/-! ## The words that the spec writes out -/

section
namespace Sys2Proof

/-- Settles O1: the decoder evaluated at each of the words. -/
theorem decodeSpecWords : Obligations.DecodeSpecWords := by
  unfold Obligations.DecodeSpecWords
  decide

end Sys2Proof
end

/-! ## A step of the part -/

section
namespace Sys2Proof

open Machine

/-! ### The step's choice -/

@[simp] theorem tick_agenda (s : State) : s.tick.agenda = s.agenda := rfl
@[simp] theorem tick_plat (s : State) : s.tick.plat = s.plat := rfl

/-- The split that stands first in its issuer's order and is picked is the first to be tried (R83). -/
theorem issueFrom_of_head {s : State} {p : Nat} {k : TKey} {sp : BitVec 2} {o : Out}
    (first : (issueOrder s p).head? = some (k, sp)) (issues : issueSplit exec s k sp = some o) :
    issueFrom s p (some (k, sp)) = some o := by
  obtain ⟨rest, order⟩ := List.head?_eq_some_iff.mp first
  simp [issueFrom, order, issueFirst, issues]

/-! ### The group of one word -/

/-- A word of a pipe, alone in its group, is the group's work. -/
theorem groupWork_singleton {g : GWord} {i : Instr} (reads : g.instr? = some i) (does : i.isConst = false)
    (piped : pipeOf g.op ≠ .none) : groupWork [g] = [(g, i, none)] := by
  unfold groupWork groupWork.pair
  simp only [reads, does, groupWork.pair]
  cases h : pipeOf g.op
  case none => exact absurd h piped
  all_goals simp [h]

/-- An instruction that stands in a word, a CONST aside, is of the pipe of the word's opcode (R27). -/
theorem pipeOf_ne_none {w : Word} {i : Instr} (reads : decodeBody w = .ok i) (does : i.isConst = false) :
    pipeOf (fld w 24 6).toNat ≠ .none := by
  unfold decodeBody at reads
  split at reads
  case h_8 =>
    cases reads
    cases does
  case h_9 =>
    unfold decodeLow at reads
    split at reads
    case h_32 => cases reads
    all_goals next op => rw [op]; decide
  all_goals next op => rw [op]; decide

/-- The one word of a group. -/
def groupWord (e : Split) (w : Word) (m : Bool) (i : Instr) : GWord :=
  ⟨e.at_.slot.toNat, (w.extractLsb' 24 6).toNat, .word false m i, w⟩

/-- The group of a split that may issue is its one word. -/
theorem fetchGroup_of_issues {u : State} {sp : BitVec 2} {e : Split} {w : Word} {m : Bool} {i : Instr}
    (h : Issues u sp e w m i) (s : State) (fetches : s.fetch s.thr e.at_ = .word w) :
    fetchGroup s s.thr e.at_.pc 3 e.at_.slot.toNat [] = .words [groupWord e w m i] := by
  have place : (⟨e.at_.pc, BitVec.ofNat 2 e.at_.slot.toNat⟩ : Place) = e.at_ := by
    rw [BitVec.ofNat_toNat, BitVec.setWidth_eq]
  unfold fetchGroup
  rw [place, fetches]
  simp only [h.alone, h.decodes, Bool.false_and, Bool.false_eq_true, if_false]
  rfl

/-- Setting a split to what it is changes nothing. -/
theorem Level.setSplit_self {l : Level} {sp : BitVec 2} {e : Split} (held : l.split? sp = some e) :
    l.setSplit sp (some e) = l := by
  obtain ⟨splits, stack, loops⟩ := l
  obtain ⟨_, entry⟩ := Vector.getElem?_eq_some_iff.mp (Option.join_eq_some_iff.mp held)
  refine congrArg (Level.mk · stack loops) (Vector.ext fun j hj => ?_)
  rw [Vector.getElem_set]
  split
  next at_ =>
    subst at_
    exact entry.symm
  next => rfl

theorem State.setSplit_of_split {s : State} {e : Split} (f : Split → Split) (held : s.split = some e) :
    s.setSplit f = { s with thr := { s.thr with level := s.thr.level.setSplit s.ctx.sp (some (f e)) } } := by
  unfold State.setSplit
  rw [held]

/-- A split that waits for no YIELD is as it was when another moves on. -/
theorem yieldMoved_split? {s : State} {e : Split} (k : TKey) (sp i : BitVec 2) (held : s.thr.level.split? i = some e)
    (wait : e.wait = .none) : (s.yieldMoved k sp).thr.level.split? i = some e := by
  unfold Level.split? at *
  simp only [State.yieldMoved, Vector.getElem?_map]
  obtain entry := Option.join_eq_some_iff.mp held
  simp [entry, wait]

variable {s u : State} {k : TKey} {sp : BitVec 2} {e : Split} {w : Word} {m : Bool} {i : Instr}

/-- The state in which the group's words issue: `issuing` before the word's result is noted. -/
def setOut (s : State) (sp : BitVec 2) (e : Split) : State :=
  let next : Place := ⟨e.at_.pc, BitVec.ofNat 2 (e.at_.slot.toNat + 1)⟩
  let s := (s.enterCtx sp e.at_ next none).yieldMoved s.thr.key sp
  { s with thr := { s.thr with level := s.thr.level.setSplit sp (some { e with next := next, fell := true, xfer := none }) } }

theorem issuing_eq : issuing u sp e i = { setOut u sp e with ctx := { (setOut u sp e).ctx with owed := owedBy i } } := rfl

/-- A split that may issue at a group of one word issues that group. -/
theorem issueSplit_of_issues (focus : s.focus k = some u) (key : u.thr.key = k) (h : Issues u sp e w m i) :
    issueSplit exec s k sp = some (issueGroup exec (setOut u sp e) sp [groupWord e w m i]) := by
  obtain ⟨due, parked, replay, wait, mark⟩ := h.ready
  have noDue : e.dueNow = none := by simp [Split.dueNow, due]
  have free : u.blocked sp e = false := by simp [State.blocked, State.blockedAt, mark, h.noFar, wait]
  have rests : (u.enterCtx sp e.at_ e.at_ none).setSplit (fun e => { e with wait := .none, mark := false }) =
      u.enterCtx sp e.at_ e.at_ none := by
    have same : ({ e with wait := .none, mark := false } : Split) = e := by rw [← wait, ← mark]
    rw [State.setSplit_of_split _ (show (u.enterCtx sp e.at_ e.at_ none).split = some e from h.split), same]
    show { u.enterCtx sp e.at_ e.at_ none with thr := { u.thr with level := u.thr.level.setSplit sp (some e) } } = _
    rw [Level.setSplit_self h.split]
    rfl
  have inside : (u.enterCtx sp e.at_ e.at_ none).atPacketEnd (u.enterCtx sp e.at_ e.at_ none).thr e.at_ = false := h.inPacket
  have words := fetchGroup_of_issues h (u.enterCtx sp e.at_ e.at_ none) h.fetch
  have allowed : groupBad (u.enterCtx sp e.at_ e.at_ none).thr [groupWord e w m i] = none := h.allowed
  have unheld : (u.enterCtx sp e.at_ e.at_ none).groupHeld sp [groupWord e w m i] = false := h.unheld
  have goesOn : ((u.enterCtx sp e.at_ ⟨e.at_.pc, BitVec.ofNat 2 (e.at_.slot.toNat + 1)⟩ none).yieldMoved k sp).setSplit
      (fun x => { x with next := ⟨e.at_.pc, BitVec.ofNat 2 (e.at_.slot.toNat + 1)⟩, fell := true, xfer := none }) =
      setOut u sp e := by
    have held : ((u.enterCtx sp e.at_ ⟨e.at_.pc, BitVec.ofNat 2 (e.at_.slot.toNat + 1)⟩ none).yieldMoved k sp).split = some e :=
      yieldMoved_split? k sp sp h.split wait
    rw [State.setSplit_of_split _ held, ← key]
    rfl
  unfold issueSplit
  simp only [focus, h.split, h.runs, h.noTrap, noDue, parked, replay, free, wait, rests, inside, words, allowed, unheld,
    Bool.not_true, Bool.false_eq_true, if_false]
  exact congrArg (fun x => some (issueGroup exec x sp [groupWord e w m i])) goesOn

/-! ### What the group's word does -/

/-- A group that is not at the end of its packet starts at a slot of it. -/
theorem slot_lt_three (h : Issues u sp e w m i) : e.at_.slot.toNat < 3 := by
  by_contra behind
  have nothing : 3 - e.at_.slot.toNat = 0 := by omega
  have ended : u.atPacketEnd u.thr e.at_ = true := by simp [State.atPacketEnd, State.restOfPacket, nothing]
  exact Bool.false_ne_true (h.inPacket.symm.trans ended)

/-- The word of the group is executed in `issuing`. -/
theorem runWord_setOut (e : Split) (i : Instr) :
    runWord exec (setOut u sp e) e.at_.slot.toNat i none = exec i (issuing u sp e i) := by
  have slot : BitVec.ofNat 2 e.at_.slot.toNat = e.at_.slot := by rw [BitVec.ofNat_toNat, BitVec.setWidth_eq]
  unfold runWord
  rw [slot]
  rfl

/-- With no hazard, the group's word is tried for a trap by executing it (R80, R363). -/
theorem wordTrap_setOut (h : Issues u sp e w m i) {t : State} (runs : exec i (issuing u sp e i) = .next t) :
    wordTrap exec (setOut u sp e) sp e.at_.slot.toNat i none = if t.ctx.out = .trap then some (.next t) else none := by
  have clean : (if (setOut u sp e).thr.env.hazards = true then hazardOf (setOut u sp e) sp i else none) = none := by
    split
    next on => exact h.checked on
    next => rfl
  unfold wordTrap
  rw [clean, runWord_setOut, runs]

/-- The traps of a group's words, in the order of their slots (R363). -/
noncomputable def groupTraps (ex : Instr → State → Out) (s : State) (sp : BitVec 2) (ws : List GWord) : List Out :=
  (List.range 3).filterMap (fun n =>
    match (groupWork ws).find? (fun (g, _, _) => g.slot == n) with
    | some (g, i, c) => wordTrap ex s sp g.slot i (c.map .const)
    | none => none)

/-- The traps of a group of one word. -/
theorem groupTraps_singleton {ex : Instr → State → Out} {s : State} {g : GWord} (work : groupWork [g] = [(g, i, none)])
    (slot : g.slot < 3) : groupTraps ex s sp [g] = (wordTrap ex s sp g.slot i none).toList := by
  obtain ⟨n, op, dec, raw⟩ := g
  change n < 3 at slot
  unfold groupTraps
  rw [work]
  obtain rfl | rfl | rfl : n = 0 ∨ n = 1 ∨ n = 2 := by omega
  all_goals cases trap : wordTrap ex s sp _ i none <;> simp [List.range_succ, trap]

/-- A group in which a word traps ends in the first trap. -/
theorem issueGroup_of_trap {ex : Instr → State → Out} {s : State} {ws : List GWord} {o : Out} (traps : groupTraps ex s sp ws = [o]) :
    issueGroup ex s sp ws = o := by
  unfold issueGroup
  change (match groupTraps ex s sp ws with | o :: _ => o | [] => _) = _
  rw [traps]

/-- The state in which the words of a group are executed when none of them traps. -/
def groupStart (s : State) (work : List (GWord × Instr × Option (BitVec 24))) : State :=
  { s with
    thr := { s.thr with progress := s.thr.progress + (work.filter (fun (_, i, _) => i != .nop)).length }
    ctx := { s.ctx with
      grp := some s.thr
      vdst := work.foldl (fun b (_, i, _) => b ||| runBits (uses i).vw) 0
      sdst := work.foldl (fun b (_, i, _) => b ||| runBits (uses i).sw) 0 } }

/-- What the issue of a group adds to what its words leave. -/
def groupEnd (s : State) (sp : BitVec 2) (m : Bool) (r : State) : State :=
  let fs := r.flights.map (fun (f : Flight) =>
    if f.id < s.nextId ∧ f.key = s.thr.key ∧ !f.inBase ∧ f.splits.getLsbD sp.toNat then { f with later := true } else f)
  let r : State := { r with flights := fs, ctx := { r.ctx with grp := none, ext := none, vdst := 0, sdst := 0 } }
  let r : State := match r.ctx.out with
    | .left | .trap => r
    | .done | .stall => (r.markNew s.thr.level m).setSplit (fun e =>
        { e with mark := e.mark || m, last := s.stamp, since := s.clock, promoted := false })
  r.goOn sp

/-- A group in which no word traps runs its words one after another. -/
theorem issueGroup_of_no_trap {ex : Instr → State → Out} {s r : State} {ws : List GWord} (traps : groupTraps ex s sp ws = [])
    (runs : runWords ex .const (groupWork ws) (groupStart s (groupWork ws)) = .next r) :
    issueGroup ex s sp ws = .next (groupEnd s sp (ws.any GWord.k) r) := by
  have apart : issueGroup ex s sp ws = match groupTraps ex s sp ws with
    | o :: _ => o
    | [] => match runWords ex .const (groupWork ws) (groupStart s (groupWork ws)) with
      | .next r => .next (groupEnd s sp (ws.any GWord.k) r)
      | .fault f => .fault f
      | .refused r => .refused r := rfl
  rw [apart, traps, runs]

/-- The word of the group is executed in `grouped`, the thread's registers as they were when the group issued (R19). -/
theorem runWords_singleton (g : GWord) (slot : g.slot = e.at_.slot.toNat) :
    runWords exec .const [(g, i, none)] (groupStart (setOut u sp e) [(g, i, none)]) =
      exec i (grouped (issuing u sp e i) i) := by
  have bits : BitVec.ofNat 2 e.at_.slot.toNat = e.at_.slot := by rw [BitVec.ofNat_toNat, BitVec.setWidth_eq]
  have progress (n : Nat) : n + ([(g, i, (none : Option (BitVec 24)))].filter (fun (_, i, _) => i != .nop)).length =
      if i = .nop then n else n + 1 := by
    by_cases h : i = .nop <;> simp [h]
  have vector : [(g, i, (none : Option (BitVec 24)))].foldl (fun b (_, i, _) => b ||| runBits (uses i).vw) 0 = runBits (uses i).vw :=
    BitVec.zero_or
  have scalar : [(g, i, (none : Option (BitVec 24)))].foldl (fun b (_, i, _) => b ||| runBits (uses i).sw) 0 = runBits (uses i).sw :=
    BitVec.zero_or
  have start : runWord exec (groupStart (setOut u sp e) [(g, i, none)]) g.slot i none =
      exec i (grouped (issuing u sp e i) i) := by
    unfold runWord groupStart
    rw [slot, bits, progress, vector, scalar]
    rfl
  unfold runWords
  rw [Option.map_none, start]
  cases exec i (grouped (issuing u sp e i) i) <;> rfl

/-- What the issue adds is `issued`. -/
theorem groupEnd_setOut (e : Split) (i : Instr) (r : State) : groupEnd (setOut u sp e) sp m r = issued (issuing u sp e i) sp m r := by
  have later (f : Flight) : (if f.id < (setOut u sp e).nextId ∧ f.key = (setOut u sp e).thr.key ∧ !f.inBase ∧
      f.splits.getLsbD sp.toNat then { f with later := true } else f) =
      if f.id < (issuing u sp e i).nextId ∧ f.key = (issuing u sp e i).thr.key ∧ f.inBase = false ∧
        f.splits.getLsbD sp.toNat = true then { f with later := true } else f := by
    simp only [Bool.not_eq_true']
    rfl
  unfold groupEnd issued
  simp only [later]
  cases out : r.ctx.out <;> simp only [reduceCtorEq, or_false, or_true, if_true, if_false] <;> rfl

/-- A group of one word issues as its word is executed: where it traps, in the trap alone, and else on the state in which
the group's registers are noted (R19, R363). -/
theorem issueGroup_of_issues (h : Issues u sp e w m i) {t : State} (runs : exec i (issuing u sp e i) = .next t) :
    (t.ctx.out = .trap → issueGroup exec (setOut u sp e) sp [groupWord e w m i] = .next t) ∧
      (t.ctx.out ≠ .trap → ∀ r, exec i (grouped (issuing u sp e i) i) = .next r →
        issueGroup exec (setOut u sp e) sp [groupWord e w m i] = .next (issued (issuing u sp e i) sp m r)) := by
  obtain ⟨body, -, -, -, marker⟩ := decodeWord_eq_word_iff.mp h.decodes
  have work : groupWork [groupWord e w m i] = [(groupWord e w m i, i, none)] :=
    groupWork_singleton rfl h.payload (pipeOf_ne_none body h.payload)
  have traps := (groupTraps_singleton (ex := exec) (s := setOut u sp e) (sp := sp) work (slot_lt_three h)).trans
    (congrArg Option.toList (wordTrap_setOut h runs))
  refine ⟨fun trapped => ?_, fun goes r result => ?_⟩
  · rw [if_pos trapped] at traps
    exact issueGroup_of_trap traps
  · rw [if_neg goes] at traps
    have marks : [groupWord e w m i].any GWord.k = m := by simp [groupWord, GWord.k, marker]
    rw [issueGroup_of_no_trap traps (by rw [work, runWords_singleton _ rfl, result]), marks, groupEnd_setOut e i]

/-! ### The step -/

/-- Taking a thread into focus leaves the platform alone. -/
theorem focus_plat (focus : s.focus k = some u) : u.plat = s.plat := by
  have unfocused : s.unfocus.plat = s.plat := by unfold State.unfocus; split <;> rfl
  unfold State.focus at focus
  split at focus
  · rw [Option.some.inj focus]
  · dsimp only at focus
    split at focus
    · rw [← Option.some.inj focus, ← unfocused]
    · cases focus

theorem Issues.computes (h : Issues u sp e w m i) : u.plat.computes = true := by
  have runs := h.runs
  unfold State.running at runs
  exact (Bool.and_eq_true_iff.mp (Bool.and_eq_true_iff.mp runs).1).1

/-- A step that issues is the issue at its issuer, while the part computes (R380). -/
theorem step_of_issue {rest : List Choice} (agenda : s.agenda = .issue k sp :: rest) :
    step s = match ({ s.tick with agenda := rest } : State).thread? k with
      | some y => if s.plat.computes then
          (issueFrom { s.tick with agenda := rest } y.issuer (some (k, sp))).getD (.next { s.tick with agenda := rest })
        else .next { s.tick with agenda := rest }
      | none => .next { s.tick with agenda := rest } := by
  unfold step
  simp only [tick_agenda, agenda]
  rfl

/-- Settles O3: a step of each kind taken apart, the issue by what each stage of it makes of a group of one word. -/
theorem stepRunsDecoded : Obligations.StepRunsDecoded := by
  unfold Obligations.StepRunsDecoded
  refine ⟨?_, ?_, ?_⟩
  · intro s u k y sp rest e w m i agenda focus key thread first issues x t runs
    have computes : s.plat.computes = true := (congrArg Platform.computes (focus_plat focus)).symm.trans issues.computes
    have steps : step s = issueGroup exec (setOut u sp e) sp [groupWord e w m i] := by
      rw [step_of_issue agenda, thread]
      simp only [computes, if_true, issueFrom_of_head first (issueSplit_of_issues focus key issues), Option.getD_some]
    rw [steps]
    exact issueGroup_of_issues issues runs
  · intro s i rest agenda comes
    unfold step
    simp only [tick_agenda, agenda, comes, if_true]
  · intro s k sp rest agenda held
    rw [step_of_issue agenda, held]
    split <;> rfl

end Sys2Proof
end

/-! ## What a word keeps: the other threads, the workgroups, the key of its own thread (R24) -/

section
namespace Sys2Proof

open Machine

/-! ### What a word keeps: the other threads, the workgroups, the key of its own thread -/

/-- The other threads, the workgroups and the key of the thread in focus are as before. -/
structure Keeps (s t : State) : Prop where
  key : t.thr.key = s.thr.key
  threads : t.threads = s.threads
  groups : t.groups = s.groups

theorem Keeps.refl (s : State) : Keeps s s := ⟨rfl, rfl, rfl⟩

theorem Keeps.trans {s t u : State} (h : Keeps s t) (k : Keeps t u) : Keeps s u :=
  ⟨k.key.trans h.key, k.threads.trans h.threads, k.groups.trans h.groups⟩

/-- A change of the other fields of the state keeps them. -/
theorem Keeps.of {s t : State} (h : Keeps s t) {u : State} (key : u.thr.key = t.thr.key) (threads : u.threads = t.threads)
    (groups : u.groups = t.groups) : Keeps s u := h.trans ⟨key, threads, groups⟩

/-- The same, before what keeps them. -/
theorem Keeps.after {t u : State} (h : Keeps t u) {s : State} (key : t.thr.key = s.thr.key) (threads : t.threads = s.threads)
    (groups : t.groups = s.groups) : Keeps s u := .trans ⟨key, threads, groups⟩ h

theorem Keeps.ite {c : Prop} [Decidable c] {s a b : State} (ha : Keeps s a) (hb : Keeps s b) : Keeps s (if c then a else b) := by
  split
  · exact ha
  · exact hb

theorem Keeps.foldl {α : Type} {f : State → α → State} (step : ∀ s x, Keeps s (f s x)) (xs : List α) (s : State) :
    Keeps s (xs.foldl f s) := by
  induction xs generalizing s with
  | nil => exact .refl s
  | cons x xs ih => exact (step s x).trans (ih _)

/-- A fold that carries a result beside the state. -/
theorem Keeps.foldl_fst {α β : Type} {f : State × β → α → State × β} (step : ∀ p x, Keeps p.1 (f p x).1) (xs : List α)
    (p : State × β) : Keeps p.1 (xs.foldl f p).1 := by
  induction xs generalizing p with
  | nil => exact .refl p.1
  | cons x xs ih => exact (step p x).trans (ih _)

/-! ### Registers and splits -/

theorem Thread.wrS_key (t : Thread) (sp : BitVec 2) (r : Nat) (x : Word) : (t.wrS sp r x).key = t.key := by
  unfold Thread.wrS
  split_ifs <;> try rfl
  split <;> rfl

theorem Thread.wrV_key (t : Thread) (stamp d : Nat) (m : Mask) (f : Nat → Word) (tag : Tag) :
    (t.wrV stamp d m f tag).key = t.key := by
  unfold Thread.wrV
  split_ifs <;> rfl

variable (s : State)

theorem keeps_wrSn (r : Nat) (x : Word) : Keeps s (s.wrSn r x) := ⟨Thread.wrS_key _ _ _ _, rfl, rfl⟩
theorem keeps_wrS (r : Reg) (x : Word) : Keeps s (s.wrS r x) := ⟨Thread.wrS_key _ _ _ _, rfl, rfl⟩

theorem keeps_releaseS (l : Bool) (a d : Reg) : Keeps s (s.releaseS l a d) := .ite ⟨rfl, rfl, rfl⟩ (.refl s)
theorem keeps_releaseV0 (l : Bool) (a : Reg) : Keeps s (s.releaseV0 l a) := .ite ⟨rfl, rfl, rfl⟩ (.refl s)
theorem keeps_releaseV (l : Bool) (a d : Reg) : Keeps s (s.releaseV l a d) := .ite (.refl s) (keeps_releaseV0 s l a)

theorem keeps_wrVn (d : Nat) (f : Nat → Word) (tag : Tag) : Keeps s (s.wrVn d f tag) :=
  .ite (.refl s) ⟨Thread.wrV_key _ _ _ _ _ _, rfl, rfl⟩
theorem keeps_wrV (d : Reg) (f : Nat → Word) (tag : Tag) : Keeps s (s.wrV d f tag) := keeps_wrVn s _ _ _

theorem keeps_raise (f : Nat → Fl) : Keeps s (s.raise f) := ⟨rfl, rfl, rfl⟩
theorem keeps_advance (n : Nat → Nat) : Keeps s (s.advance n) := ⟨rfl, rfl, rfl⟩
theorem keeps_setLevel (l : Level) : Keeps s (s.setLevel l) := ⟨rfl, rfl, rfl⟩
theorem keeps_modCtl (f : Ctl → Ctl) : Keeps s (s.modCtl f) := ⟨rfl, rfl, rfl⟩

theorem keeps_setSplit (f : Split → Split) : Keeps s (s.setSplit f) := by
  unfold State.setSplit
  split
  · exact ⟨rfl, rfl, rfl⟩
  · exact .refl s

theorem keeps_transfer (p : Word) : Keeps s (s.transfer p) := keeps_setSplit s _
theorem keeps_parkAt (p : ParkedWord) : Keeps s (s.parkAt p) := (keeps_setSplit s _).of rfl rfl rfl
theorem keeps_parkOrder (stage : Nat) : Keeps s (s.parkOrder stage) := keeps_parkAt s _
theorem keeps_parkRel : Keeps s s.parkRel := keeps_parkAt s _
theorem keeps_parkAgain (waits : List (Nat × Nat)) : Keeps s (s.parkAgain waits) := keeps_parkAt s _
theorem keeps_parkRange (p : BitVec 5) (stage : Nat) : Keeps s (s.parkRange p stage) := keeps_parkAt s _
theorem keeps_waitFor (w : Wait) : Keeps s (s.waitFor w) := (keeps_setSplit s _).of rfl rfl rfl

theorem keeps_settle (sp : BitVec 2) (p : Place) (fell : Bool) : Keeps s (s.settle sp p fell) := by
  unfold State.settle
  split
  · exact .refl s
  · exact .ite ⟨rfl, rfl, rfl⟩ ⟨rfl, rfl, rfl⟩

theorem keeps_stopAtBkpt (n : BitVec 16) : Keeps s (s.stopAtBkpt n) := (keeps_settle s _ _ _).of rfl rfl rfl

theorem keeps_trapDue (sp : BitVec 2) (inBase : Bool) (t : Trap) : Keeps s (s.trapDue sp inBase t) := by
  unfold State.trapDue
  split
  · split
    · split
      · exact ⟨rfl, rfl, rfl⟩
      · exact .refl s
    · exact .refl s
  · split
    · split
      · exact ⟨rfl, rfl, rfl⟩
      · exact .refl s
    · exact .refl s

theorem keeps_arriveAt (sp : BitVec 2) (cur owned : Mask) : Keeps s (s.arriveAt sp cur owned) := by
  unfold State.arriveAt
  split
  · exact .refl s
  · dsimp only
    split
    · exact keeps_setLevel s _
    · split
      · split
        · refine .ite (Keeps.trans ?_ (keeps_settle _ _ _ _)) ?_ <;> exact ⟨rfl, rfl, rfl⟩
        · refine .ite (keeps_setLevel s _) ?_
          split <;> exact keeps_setLevel s _
      · exact keeps_setLevel s _
      · exact keeps_setLevel s _

theorem keeps_arrive (sp : BitVec 2) (cur owned : Mask) : Keeps s (s.arrive sp cur owned) := by
  unfold State.arrive
  dsimp only
  split
  · exact (keeps_arriveAt s _ _ _).trans (keeps_trapDue _ _ _ _)
  · exact keeps_arriveAt s _ _ _

/-! ### Flights, clusters, regions and memory -/

theorem keeps_fly (f : Flight) : Keeps s (s.fly f) := .ite (.refl s) ⟨rfl, rfl, rfl⟩
theorem keeps_flyScalars (cls : Nat) (d : Reg) (vals : List Word) : Keeps s (s.flyScalars cls d vals) := keeps_fly s _
theorem keeps_flyVectors (cls : Nat) (d : Reg) (count : Nat) (vals : List (Nat × Nat × Word)) :
    Keeps s (s.flyVectors cls d count vals) := keeps_fly s _
theorem keeps_flyRead (cls : Nat) (load : Bool) (d count : Nat) (ready : List (Nat × Nat × Word)) (bad : List (Nat × Nat)) :
    Keeps s (s.flyRead cls load d count ready bad) := keeps_fly s _

theorem keeps_shareFlights (i : BitVec 2) : Keeps s (s.shareFlights i) := ⟨rfl, rfl, rfl⟩
theorem keeps_sharePending (j : BitVec 4) : Keeps s (s.sharePending j) := ⟨rfl, rfl, rfl⟩
theorem keeps_setCluster (c : Cluster) : Keeps s (s.setCluster c) := ⟨rfl, rfl, rfl⟩
theorem keeps_modCluster (c : Nat) (f : Cluster → Cluster) : Keeps s (s.modCluster c f) := ⟨rfl, rfl, rfl⟩
theorem keeps_modCore (c : Nat) (f : Core → Core) : Keeps s (s.modCore c f) := ⟨rfl, rfl, rfl⟩
theorem keeps_modRegion (rcb : Nat) (f : Region → Region) : Keeps s (s.modRegion rcb f) := ⟨rfl, rfl, rfl⟩
theorem keeps_modNode (rcb n : Nat) (f : NodeQueue → NodeQueue) : Keeps s (s.modNode rcb n f) := ⟨rfl, rfl, rfl⟩
theorem keeps_modDispatch (id : Nat) (f : Dispatch → Dispatch) : Keeps s (s.modDispatch id f) := ⟨rfl, rfl, rfl⟩
theorem keeps_releaseRecords (recs : List RecordHeld) : Keeps s (s.releaseRecords recs) := ⟨rfl, rfl, rfl⟩
theorem keeps_giveUp (t : Thread) : Keeps s (s.giveUp t) := ⟨rfl, rfl, rfl⟩
theorem keeps_acquire : Keeps s s.acquire := ⟨rfl, rfl, rfl⟩
theorem keeps_invalidate (pa : Nat) : Keeps s (s.invalidate pa) := ⟨rfl, rfl, rfl⟩
theorem keeps_unvalid (cl pa n : Nat) : Keeps s (s.unvalid cl pa n) := ⟨rfl, rfl, rfl⟩
theorem keeps_ask (fn a b : Nat) (data : List Byte) : Keeps s (s.ask fn a b data) := ⟨rfl, rfl, rfl⟩

theorem keeps_disown (w : Nat) : Keeps s (s.disown w) := by
  unfold State.disown
  split
  · exact ⟨rfl, rfl, rfl⟩
  · exact .refl s

theorem keeps_engineWrite (pa : Nat) (bs : List Byte) : Keeps s (s.engineWrite pa bs) :=
  Keeps.trans (t := s.homeWrite pa bs) ⟨rfl, rfl, rfl⟩ (.foldl keeps_disown _ _)

theorem keeps_writeVirt (root va : Nat) (bytes : List Byte) : Keeps s (s.writeVirt root va bytes) := by
  refine .foldl (fun s x => ?_) _ s
  dsimp only
  split
  · exact .ite (.refl s) (keeps_engineWrite s _ _)
  · exact .refl s

theorem keeps_setRcbWord (rcb off v : Nat) : Keeps s (s.setRcbWord rcb off v) := keeps_engineWrite s _ _

theorem keeps_l2Room (e : Env) (line : Nat) : Keeps s (s.l2Room e line) := by
  unfold State.l2Room
  dsimp only
  split
  · exact ⟨rfl, rfl, rfl⟩
  · exact .refl s

theorem keeps_touchL2 (e : Env) (pa : Nat) (hint : BitVec 2) (far : Bool) : Keeps s (s.touchL2 e pa hint far) := by
  unfold State.touchL2
  dsimp only
  split
  · exact ⟨rfl, rfl, rfl⟩
  · exact (keeps_l2Room s _ _).of rfl rfl rfl

theorem keeps_dropScalar (core pa n : Nat) : Keeps s (s.dropScalar core pa n) := keeps_modCore s _ _

theorem keeps_queueStore (op core : Nat) (key : TKey) (sp : BitVec 2) (whole ds : Bool) (hint : BitVec 2)
    (lanes : List (Nat × Page × List Byte)) : Keeps s (s.queueStore op core key sp whole ds hint lanes) :=
  Keeps.trans (t := s.enterSectors _) ⟨rfl, rfl, rfl⟩ (.foldl (fun s _ => keeps_dropScalar s _ _ _) _ _)

theorem keeps_keepTable (slot gen : Nat) (bs : List Byte) : Keeps s (s.keepTable slot gen bs) := keeps_modCore s _ _
theorem keeps_touchTable (pa : Nat) (h : BitVec 2) : Keeps s (s.touchTable pa h) :=
  .foldl (fun s _ => keeps_touchL2 s _ _ _ _) _ s

theorem keeps_setSlot (k : Nat) (bound : Bool) (addr : Nat) : Keeps s (s.setSlot k bound addr).1 := by
  unfold State.setSlot
  split
  · exact .refl s
  · exact .ite ⟨rfl, rfl, rfl⟩ ⟨rfl, rfl, rfl⟩

theorem keeps_writeBankMode (cl b : Nat) (m : BitVec 2) : Keeps s (s.writeBankMode cl b m) := by
  unfold State.writeBankMode
  split
  · exact .refl s
  · exact .ite (.refl s) (.ite (keeps_modCluster s _ _) (keeps_modCluster s _ _))

theorem keeps_writeBank (cl b : Nat) (x : Word) : Keeps s (s.writeBank cl b x) :=
  Keeps.trans (t := s.clearRefused cl b x) (.ite (keeps_modCluster s _ _) (.refl s)) (keeps_writeBankMode _ _ _ _)

theorem keeps_writeTrapState (r : Nat) (x : Word) : Keeps s (s.writeTrapState r x) := .ite (keeps_modCtl s _) (.refl s)

theorem keeps_ctlWrite (r : Nat) (x : Word) : Keeps s (s.ctlWrite r x) := by
  unfold State.ctlWrite
  exact .ite (keeps_modCtl s _) (.ite (.refl s) (.ite ⟨rfl, rfl, rfl⟩ (.ite (.refl s) (.ite (keeps_modCtl s _)
    (.ite (keeps_modCtl s _) (.ite (keeps_modCtl s _) (.ite (keeps_modCtl s _) (.ite (keeps_modCtl s _) (.ite (.refl s)
      (.ite (keeps_writeBank s _ _ _) (keeps_writeTrapState s _ _)))))))))))

/-! ### Regions: divergence, the Ladle and its trace -/

theorem keeps_diverge (rcb cause : Nat) (seq index : Word) : Keeps s (s.diverge rcb cause seq index) :=
  (keeps_setRcbWord s _ _ _).of rfl rfl rfl

theorem keeps_handOn (k : TKey) (rcb : Nat) : Keeps s (s.handOn k rcb) := by
  unfold State.handOn
  split
  · exact .refl s
  · exact .ite (Keeps.trans (.ite (keeps_diverge s _ _ _ _) (.refl s)) (keeps_modRegion _ _ _)) (.refl s)

theorem keeps_ladleDiverge (rcb : Nat) (seq index : Word) : Keeps s (s.ladleDiverge rcb seq index) :=
  (keeps_diverge s _ _ _ _).trans (keeps_modRegion _ _ _)

theorem keeps_countDsFor (rcb : Nat) (seq index : Word) : Keeps s (s.countDsFor rcb seq index) := by
  unfold State.countDsFor
  split
  · exact .refl s
  · exact Keeps.trans (.ite (keeps_ladleDiverge s _ _ _) (.refl s)) (keeps_modRegion _ _ _)

theorem keeps_dsEnter {t : State} (ds : Bool) (enters : s.dsEnter ds = some t) : Keeps s t := by
  unfold State.dsEnter at enters
  split_ifs at enters
  · exact Option.some.inj enters ▸ .refl s
  · exact Option.some.inj enters ▸ keeps_countDsFor s _ _ _

theorem keeps_traceStore (rcb : Nat) (e : TraceEntry) : Keeps s (s.traceStore rcb e) := by
  unfold State.traceStore
  split
  · exact .refl s
  · refine .ite (.refl s) (.ite ((keeps_diverge s _ _ _ _).trans (keeps_modRegion _ _ _)) ?_)
    split
    · exact ((keeps_engineWrite s _ _).trans (keeps_setRcbWord _ _ _ _)).trans (keeps_setRcbWord _ _ _ _)
    · exact (keeps_diverge s _ _ _ _).trans (keeps_modRegion _ _ _)

theorem keeps_traceWrite (rcb : Nat) (e : TraceEntry) : Keeps s (s.traceWrite rcb e) :=
  .ite (keeps_ask s _ _ _ _) (keeps_traceStore s _ _)

theorem keeps_endVisit (r : Region) : Keeps s (s.endVisit r) :=
  Keeps.trans (.ite (keeps_traceWrite s _ _) (.refl s)) (keeps_modRegion _ _ _)

theorem keeps_parkLadle (phase : BitVec 16) : Keeps s (s.parkLadle phase) := by
  unfold State.parkLadle
  refine Keeps.trans ?_ (keeps_parkAt _ _)
  split
  · exact .ite (keeps_endVisit s _) (.refl s)
  · exact .refl s

/-! ### Fault records -/

theorem keeps_addFault (cluster region va type cls cause : Nat) : Keeps s (s.addFault cluster region va type cls cause).1 := by
  unfold State.addFault
  split
  · exact ⟨rfl, rfl, rfl⟩
  · exact .ite ⟨rfl, rfl, rfl⟩ ⟨rfl, rfl, rfl⟩

theorem keeps_addFaults (vas : List (Nat × Nat)) (type cls : Nat) : Keeps s (s.addFaults vas type cls).1 :=
  Keeps.foldl_fst (β := List (Nat × Nat)) (fun p _ => keeps_addFault p.1 _ _ _ _ _ _) _ (s, [])

theorem keeps_missFaults (miss : List (Nat × Nat × Nat)) (type : Nat) : Keeps s (s.missFaults miss type).1 :=
  (keeps_addFaults s _ _ _).trans (keeps_addFaults _ _ _ _)

theorem keeps_smpPark (cap : Option Capture) (texels : Texels) (lanes : Mask) (miss : List (Nat × Nat × Nat)) :
    Keeps s (s.smpPark cap texels lanes miss) := (keeps_missFaults s _ _).trans (keeps_parkAt _ _)

theorem keeps_hashStores (lanes : List (Nat × List Byte)) : Keeps s (s.hashStores lanes) := .ite ⟨rfl, rfl, rfl⟩ (.refl s)

theorem keeps_enqueue (op type : Nat) (work : Option Work) (whole ds : Bool) (hint : BitVec 2)
    (lanes : List (Nat × Nat × List Byte)) (block cause : Nat) :
    Keeps s (s.enqueue op type work whole ds hint lanes block cause) := by
  unfold State.enqueue
  dsimp only
  split
  · exact ⟨rfl, rfl, rfl⟩
  · exact (keeps_addFaults s _ _ _).of rfl rfl rfl

end Sys2Proof
end

/-! ## What a word may do to other threads: barriers, the end of a thread, traps (R83, R183, R367) -/

section
namespace Sys2Proof

open Machine

/-! ### What a word may do: a phase that completes resets the progress of its workgroup's threads -/

/-- Of every other thread the progress count changes at most, and that to zero with a completed barrier phase of the
workgroup of the thread in focus. -/
def Acts (s t : State) : Prop :=
  t.threads.length = s.threads.length ∧
    ∀ (n : Nat) (u v : Thread), s.threads[n]? = some u → t.threads[n]? = some v →
      v = { u with progress := v.progress } ∧
      (v.progress = u.progress ∨
        v.progress = 0 ∧ u.key.wg = s.thr.key.wg ∧ ∃ g h, s.group? u.key.wg = some g ∧ t.group? u.key.wg = some h ∧
          ∃ b : Fin 16, h.bars[b].phase ≠ g.bars[b].phase)

theorem Acts.of_threads {s t : State} (threads : t.threads = s.threads) : Acts s t := by
  refine ⟨by rw [threads], fun n u v before after => ?_⟩
  rw [threads, before] at after
  obtain rfl := Option.some.inj after
  exact ⟨rfl, .inl rfl⟩

theorem Keeps.acts {s t : State} (h : Keeps s t) : Acts s t := .of_threads h.threads

theorem Acts.refl (s : State) : Acts s s := (Keeps.refl s).acts

theorem Keeps.group? {s t : State} (h : Keeps s t) (id : Nat) : t.group? id = s.group? id := by
  unfold State.group?
  rw [h.groups]

/-- What a word does after it has changed only its own thread and the machine. -/
theorem Keeps.then {s t u : State} (h : Keeps s t) (k : Acts t u) : Acts s u := by
  unfold Acts at k ⊢
  simpa only [h.key, h.threads, h.group?] using k

/-- Changes to its own thread and the machine behind what a word does. -/
theorem Acts.keeps {s t u : State} (h : Acts s t) (k : Keeps t u) : Acts s u := by
  unfold Acts at h ⊢
  simpa only [k.threads, k.group?] using h

theorem Acts.of {s t u : State} (h : Acts s t) (key : u.thr.key = t.thr.key) (threads : u.threads = t.threads)
    (groups : u.groups = t.groups) : Acts s u := h.keeps ⟨key, threads, groups⟩

theorem Acts.ite {c : Prop} [Decidable c] {s a b : State} (ha : Acts s a) (hb : Acts s b) : Acts s (if c then a else b) := by
  split
  · exact ha
  · exact hb

/-! ### Barriers and the end of a thread -/

theorem group?_modGroup {s : State} (wg id : Nat) (f : Workgroup → Workgroup) (number : ∀ g, (f g).id = g.id) :
    (s.modGroup wg f).group? id = (s.group? id).map (fun g => if g.id == wg then f g else g) := by
  unfold State.group? State.modGroup
  rw [List.find?_map]
  refine congrArg (Option.map _) (List.find?_congr fun g _ => ?_)
  simp only [Function.comp_apply]
  split
  · rw [number]
  · rfl

/-- A full barrier enters its next phase. -/
theorem settle_phase_ne {b : Barrier} (full : b.full = true) : b.settle.phase ≠ b.phase := by
  unfold Barrier.settle
  rw [if_pos full]
  simp

/-- A barrier of the workgroup completes a phase when its barriers change as `f` says. -/
def Completes (f : Nat → Barrier → Barrier) (g : Workgroup) : Prop :=
  ((List.range 16).map (fun i => f i (g.bars[i]?.getD ⟨0, 0, 0, 0⟩))).any Barrier.full = true

/-- The barriers of the workgroup when they have changed as `f` says. -/
def nextBars (f : Nat → Barrier → Barrier) (g : Workgroup) : Vector Barrier 16 :=
  ⟨⟨(List.range 16).map (fun i => (f i (g.bars[i]?.getD ⟨0, 0, 0, 0⟩)).settle)⟩, by simp⟩

theorem nextBars_getElem (f : Nat → Barrier → Barrier) (g : Workgroup) (b : Fin 16) :
    (nextBars f g)[b] = (f b g.bars[b]).settle := by simp [nextBars]

/-- Where a phase completes, some barrier changes its phase. -/
theorem Completes.phase_ne {f : Nat → Barrier → Barrier} {g : Workgroup} (completes : Completes f g)
    (phase : ∀ i b, (f i b).phase = b.phase) : ∃ b : Fin 16, (nextBars f g)[b].phase ≠ g.bars[b].phase := by
  obtain ⟨_, among, full⟩ := List.any_eq_true.mp completes
  obtain ⟨i, inRange, rfl⟩ := List.mem_map.mp among
  have lt := List.mem_range.mp inRange
  rw [Vector.getElem?_eq_getElem lt, Option.getD_some] at full
  refine ⟨⟨i, lt⟩, ?_⟩
  rw [nextBars_getElem]
  exact fun same => settle_phase_ne full (same.trans (phase i _).symm)

variable (s : State)

/-- The barriers of the workgroup change; a phase that completes resets the progress of its threads (R83, R183). -/
theorem modBarriers_eq {wg : Nat} {f : Nat → Barrier → Barrier} {g : Workgroup} (found : s.group? wg = some g) :
    (s.modBarriers wg f).group? wg = some { g with bars := nextBars f g } ∧
      (¬ Completes f g → (s.modBarriers wg f).threads = s.threads) ∧
      (Completes f g → (s.modBarriers wg f).threads =
        s.threads.map (fun t => if t.key.wg = wg then { t with progress := 0 } else t)) := by
  have number : (g.id == wg) = true := List.find?_some (p := fun (g : Workgroup) => g.id == wg) found
  have changed : (s.modGroup wg (fun g' => { g' with bars := nextBars f g })).group? wg = some { g with bars := nextBars f g } :=
    (group?_modGroup wg wg (fun g' => { g' with bars := nextBars f g }) fun _ => rfl).trans
      (by rw [found, Option.map_some, if_pos number])
  unfold State.modBarriers
  rw [found]
  unfold Completes
  by_cases completes : ((List.range 16).map (fun i => f i (g.bars[i]?.getD ⟨0, 0, 0, 0⟩))).any Barrier.full = true
  · refine ⟨?_, absurd completes, fun _ => ?_⟩ <;> dsimp only <;> rw [if_pos completes]
    · exact changed
    · rfl
  · refine ⟨?_, fun _ => ?_, fun c => absurd c completes⟩ <;> dsimp only <;> rw [if_neg completes]
    · exact changed
    · rfl

theorem acts_modBarriers {f : Nat → Barrier → Barrier} (phase : ∀ i b, (f i b).phase = b.phase) :
    Acts s (s.modBarriers s.thr.key.wg f) := by
  cases found : s.group? s.thr.key.wg with
  | none =>
    unfold State.modBarriers
    rw [found]
    exact .refl s
  | some g =>
    obtain ⟨group, same, reset⟩ := modBarriers_eq s (f := f) found
    by_cases completes : Completes f g
    · refine ⟨by rw [reset completes, List.length_map], fun n u v before after => ?_⟩
      rw [reset completes, List.getElem?_map, before, Option.map_some, Option.some.injEq] at after
      split at after
      next mine =>
        subst after
        rw [mine]
        exact ⟨rfl, .inr ⟨rfl, rfl, g, _, found, group, completes.phase_ne phase⟩⟩
      next => exact after ▸ ⟨rfl, .inl rfl⟩
    · exact .of_threads (same completes)

/-- A change of a workgroup that leaves its number and its barriers alone. -/
theorem Acts.modGroup {s t : State} (h : Acts s t) (wg : Nat) {f : Workgroup → Workgroup} (number : ∀ g, (f g).id = g.id)
    (bars : ∀ g, (f g).bars = g.bars) : Acts s (t.modGroup wg f) := by
  refine ⟨h.1, fun n u v before after => ?_⟩
  obtain ⟨rest, same | ⟨zero, mine, g, k, found, now, b, phase⟩⟩ := h.2 n u v before after
  · exact ⟨rest, .inl same⟩
  · have kept : (if k.id == wg then f k else k).bars = k.bars := by
      split
      · exact bars k
      · rfl
    refine ⟨rest, .inr ⟨zero, mine, g, if k.id == wg then f k else k, found, ?_, b, fun same => phase ?_⟩⟩
    · rw [group?_modGroup _ _ _ number, now, Option.map_some]
    · exact (congrArg (fun v : Vector Barrier 16 => v[b].phase) kept).symm.trans same

theorem acts_retireThread : Acts s s.retireThread := by
  have left : Acts s ((s.modBarriers s.thr.key.wg (fun _ b => b.leave s.thr.key.ix)).modGroup s.thr.key.wg (fun g =>
      { g with
        left := g.left ||| ((1 : BitVec 17) <<< s.thr.key.ix)
        hash := if s.thr.mcc then g.hash else g.hash ++ [(s.thr.key.ix, s.thr.ctl.shash)] })) :=
    (acts_modBarriers s (f := fun _ b => b.leave s.thr.key.ix) fun _ _ => rfl).modGroup _ (by intro; rfl) (by intro; rfl)
  exact (((left.keeps (keeps_releaseRecords _ _)).keeps (keeps_giveUp _ _)).keeps (keeps_handOn _ _ _)).of rfl rfl rfl

theorem acts_endThread (cls cause : Nat) (pc : Word) (addr : BitVec 64) : Acts s (s.endThread cls cause pc addr) := by
  unfold State.endThread
  dsimp only
  refine Acts.of (t := State.retireThread _) (Keeps.then (.ite ?_ ?_) (acts_retireThread _)) rfl rfl rfl
  · exact ⟨rfl, rfl, rfl⟩
  · exact ⟨rfl, rfl, rfl⟩

theorem keeps_enterTrap (sp : BitVec 2) (h : Word) (t : Trap) : Keeps s (s.enterTrap sp h t) := by
  unfold State.enterTrap
  split
  · exact .refl s
  · exact ⟨rfl, rfl, rfl⟩

theorem acts_takeTrap (sp : BitVec 2) (t : Trap) : Acts s (s.takeTrap sp t) := by
  unfold State.takeTrap
  refine .ite (acts_endThread s _ _ _ _) (.ite (acts_endThread s _ _ _ _) ?_)
  split
  · exact (keeps_enterTrap s _ _ _).acts
  · exact acts_endThread s _ _ _ _

theorem acts_trapGroup (cls cause : Nat) (addr : BitVec 64) (lanes : Mask) : Acts s (s.trapGroup cls cause addr lanes) :=
  acts_takeTrap s _ _
theorem acts_trapWord (cls cause : Nat) : Acts s (s.trapWord cls cause) := acts_trapGroup s _ _ _ _
theorem acts_trapClm (cls cause o : Nat) : Acts s (s.trapClm cls cause o) := acts_trapGroup s _ _ _ _
theorem acts_trapNext (cls cause : Nat) (addr : BitVec 64) : Acts s (s.trapNext cls cause addr) :=
  (keeps_settle s _ _ _).then (acts_takeTrap _ _ _)

theorem acts_trapReturn : Acts s s.trapReturn := by
  unfold State.trapReturn
  split
  · exact .refl s
  · dsimp only
    have back (u : State) (h : Keeps s u) : Acts s (match u.thr.level.firstPending with
        | some (sp, t) => u.takeTrap sp t
        | none => u) := by
      split
      · exact h.then (acts_takeTrap u _ _)
      · exact h.acts
    apply back
    split <;> exact ⟨rfl, rfl, rfl⟩

theorem acts_leave (sp : BitVec 2) : Acts s (s.leave sp) :=
  .ite (acts_retireThread s) ((keeps_arrive s _ _ _).then (.ite (acts_retireThread _) (.refl _)))

/-! ### Barrier words -/

theorem keeps_acquirePart : Keeps s s.acquirePart := .ite (keeps_acquire s) (keeps_parkOrder s _)

theorem keeps_awaitPhase (b : BitVec 4) (phase : BitVec 16) : Keeps s (s.awaitPhase b phase) := by
  unfold State.awaitPhase
  split
  · exact keeps_acquirePart s
  · exact .ite (keeps_parkAt s _) (keeps_acquirePart s)

theorem keeps_barOn (b : BitVec 4) : Keeps s (s.barOn b) := .ite (keeps_acquirePart s) (keeps_awaitPhase s _ _)

theorem acts_arriveBar (b : BitVec 4) (phase : BitVec 16) : Acts s (s.arriveBar b phase) := by
  have noted (u : State) : Acts u (({ u with thr := { u.thr with
      arrived := u.thr.arrived.set b.toNat (some phase) (by omega) } } : State).modBarriers u.thr.key.wg (fun i x =>
        if i = b.toNat then { x with arrived := x.arrived ||| ((1 : BitVec 17) <<< u.thr.key.ix) } else x)) := by
    refine Keeps.then (t := { u with thr := { u.thr with arrived := u.thr.arrived.set b.toNat (some phase) (by omega) } })
      ⟨rfl, rfl, rfl⟩ (acts_modBarriers _ fun i x => ?_)
    split <;> rfl
  exact (keeps_handOn s _ _).then (noted _)

theorem acts_releaseArrive (b : BitVec 4) : Acts s (s.releaseArrive b).1 := by
  unfold State.releaseArrive
  split
  · exact .refl s
  · split
    · exact (keeps_parkOrder s _).acts
    · split
      · exact (keeps_parkOrder s _).acts
      · exact acts_arriveBar s _ _

/-! ### Accesses to memory and to the CLM -/

/-- A word that reads or changes the bytes it accesses, parking where they are not there (R135, R160). -/
theorem acts_accessPark {k : Acc} {align size : Nat} {writes : Bool} {type : Nat} {extra : Nat → Nat → Page → Bool}
    {reqs : List (Nat × Nat)} {act : State → Bool → List (Nat × Nat × Page) → State} (keeps : ∀ s ds go, Keeps s (act s ds go)) :
    Acts s (s.accessPark k align size writes type extra reqs act) := by
  unfold State.accessPark
  split
  · exact acts_trapGroup s _ _ _ _
  · dsimp only
    split
    · exact (keeps_parkLadle s _).acts
    next t enters =>
      have acted (ds : Bool) (go : List (Nat × Nat × Page)) := (keeps_dsEnter s _ enters).trans (keeps t ds go)
      refine Keeps.acts (.ite (acted _ _) ?_)
      exact ((acted _ _).trans (keeps_missFaults _ _ _)).trans (keeps_parkAt _ _)

/-- A word that writes: what cannot go now is queued or parks (R162). -/
theorem acts_accessQueue {k : Acc} {align size type : Nat} {work : Option Work} {whole hashed : Bool} {hint : BitVec 2}
    {extra : Nat → Nat → Page → Bool} {data : Nat → List Byte} {reqs : List (Nat × Nat)}
    {act : State → Bool → List (Nat × Nat × Page) → State} {span : Nat → Nat} (keeps : ∀ s ds go, Keeps s (act s ds go)) :
    Acts s (s.accessQueue k align size type work whole hashed hint extra data reqs act span) := by
  unfold State.accessQueue
  split
  · exact acts_trapGroup s _ _ _ _
  · dsimp only
    refine .ite (keeps_parkAt s _).acts ?_
    split
    · exact (keeps_parkLadle s _).acts
    next t enters =>
      refine Keeps.acts (.ite (Keeps.of (t := List.foldl _ _ _) ?_ rfl rfl rfl) (Keeps.trans ?_ (keeps_parkAt _ _)))
      all_goals
        refine Keeps.trans ?_ (.foldl (fun s x => keeps_enqueue s _ _ _ _ _ _ _ _ _) _ _)
        exact ((keeps_dsEnter s _ enters).trans (.ite (keeps_hashStores t _) (.refl t))).trans (keeps _ _ _)

/-- What a word that reads a control block has done so far. -/
def BlockActs (s : State) : Block → Prop
  | .stop t => Acts s t
  | .bytes t _ _ => Keeps s t

theorem acts_readBlock (va align n : Nat) (extra : Nat → Nat → Page → Bool) : BlockActs s (s.readBlock va align n extra) := by
  unfold State.readBlock
  split
  · exact acts_trapGroup s _ _ _ _
  · dsimp only
    split
    · exact ((keeps_missFaults s _ _).trans (keeps_parkAgain _ _)).acts
    · split
      · exact (keeps_parkAgain s _).acts
      · split
        · exact acts_trapGroup s _ _ _ _
        · exact .refl s

theorem acts_readClm (o align n : Nat) : BlockActs s (s.readClm o align n) := by
  unfold State.readClm
  dsimp only
  split
  · exact acts_trapClm s _ _ _
  · split
    · exact acts_trapClm s _ _ _
    · split
      · exact acts_trapClm s _ _ _
      · split
        · exact acts_trapClm s _ _ _
        · exact .refl s

theorem acts_clmCheck {size : Nat} {writes : Bool} {p : BitVec 5} {a : Reg} {t : State}
    (stops : s.clmCheck size writes p a = .inl t) : Acts s t := by
  have stop (cls : Nat) (fs : List (Nat × Nat × Nat)) (u : State) (h : (match s.failTrap cls fs with
      | .trap cls c va lanes => (.inl (s.trapGroup cls c (BitVec.ofNat 64 va) lanes) : State ⊕ List (Nat × Nat))
      | .rows _ _ => .inl s) = .inl u) : Acts s u := by
    split at h
    · exact Sum.inl.inj h ▸ acts_trapGroup s _ _ _ _
    · exact Sum.inl.inj h ▸ .refl s
  unfold State.clmCheck at stops
  dsimp only at stops
  split_ifs at stops
  · exact stop _ _ t stops
  · exact stop _ _ t stops
  · exact stop _ _ t stops

theorem acts_fifoCheck {b : Nat} {t : State} (stops : s.fifoCheck b = some t) : Acts s t := by
  unfold State.fifoCheck at stops
  split at stops
  · exact Option.some.inj stops ▸ acts_trapWord s _ _
  · obtain ⟨n, -, rfl⟩ := Option.map_eq_some_iff.mp stops
    exact acts_trapWord s _ _

theorem acts_rangeTrap {ls : List Nat} {t : State} (stops : s.rangeTrap ls = some t) : Acts s t := by
  unfold State.rangeTrap at stops
  split at stops
  · cases stops
  · exact Option.some.inj stops ▸ acts_trapGroup s _ _ _ _

theorem acts_dtbEnter {d : Reg} {t : State} (stops : s.dtbEnter d = .inl t) : Acts s t := by
  unfold State.dtbEnter at stops
  dsimp only at stops
  split_ifs at stops
  · exact Sum.inl.inj stops ▸ acts_trapWord s _ _
  · exact Sum.inl.inj stops ▸ (keeps_flyScalars s _ _ _).acts
  · exact Sum.inl.inj stops ▸ (keeps_parkRel s).acts

end Sys2Proof
end

/-! ## The words' shared operations act on their own thread -/

section
namespace Sys2Proof

open Machine

variable (s : State)

/-! ### Arithmetic words -/

theorem keeps_salu1 (f : Word → Word) (d a : Reg) (l : Bool) : Keeps s (salu1 f d a l s) :=
  (keeps_wrS s _ _).trans (keeps_releaseS _ _ _ _)
theorem keeps_salu2 (f : Word → Word → Word) (d a b : Reg) (l : Bool) : Keeps s (salu2 f d a b l s) :=
  (keeps_wrS s _ _).trans (keeps_releaseS _ _ _ _)

/-- A word that writes a vector register and may release an operand. -/
theorem keeps_vector (d a : Reg) (l : Bool) (f : Nat → Word) (tag : Tag) : Keeps s ((s.wrV d f tag).releaseV l a d) :=
  (keeps_wrV s _ _ _).trans (keeps_releaseV _ _ _ _)

theorem keeps_vint1t (f : Word → Word) (tag : Tag) (d a : Reg) (l : Bool) : Keeps s (vint1t f tag d a l s) :=
  keeps_vector s _ _ _ _ _
theorem keeps_vint2t (f : Word → Word → Word) (tag : Tag) (d a b : Reg) (l : Bool) : Keeps s (vint2t f tag d a b l s) :=
  keeps_vector s _ _ _ _ _
theorem keeps_vint3 (f : Word → Word → Word → Word) (d a b : Reg) (l : Bool) : Keeps s (vint3 f d a b l s) :=
  keeps_vector s _ _ _ _ _

theorem keeps_wrMask (d : Reg) (m : Mask) : Keeps s (s.wrMask d m) :=
  ((keeps_wrSn s _ _).trans (keeps_wrSn _ _ _)).trans (keeps_wrSn _ _ _)
theorem keeps_vcmp (p : Word → Word → Bool) (d a b : Reg) (l : Bool) : Keeps s (vcmp p d a b l s) :=
  (keeps_wrMask s _ _).trans (keeps_releaseV0 _ _ _)

theorem keeps_fword (f : Nat → LaneRes) (tag : Tag) (d : Reg) : Keeps s (fword f tag d s) :=
  ((keeps_wrV s _ _ _).trans (keeps_raise _ _)).trans (keeps_advance _ _)

/-- A floating-point word that may release an operand. -/
theorem keeps_float (f : Nat → LaneRes) (tag : Tag) (d a : Reg) (l : Bool) : Keeps s ((fword f tag d s).releaseV l a d) :=
  (keeps_fword s _ _ _).trans (keeps_releaseV _ _ _ _)

theorem keeps_fop1 (f : BitVec 16 → Word → FRes) (d a : Reg) (l : Bool) : Keeps s (fop1 f d a l s) := keeps_float s _ _ _ _ _
theorem keeps_fop2 (f : BitVec 16 → Word → Word → FRes) (d a b : Reg) (l : Bool) : Keeps s (fop2 f d a b l s) :=
  keeps_float s _ _ _ _ _
theorem keeps_fop3 (f : BitVec 16 → Word → Word → Word → FRes) (d a b : Reg) (l : Bool) : Keeps s (fop3 f d a b l s) :=
  keeps_float s _ _ _ _ _
theorem keeps_hop (f : BitVec 16 → Word → Word → Word → FRes) (acc : Bool) (d a b : Reg) (l : Bool) :
    Keeps s (hop f acc d a b l s) := keeps_float s _ _ _ _ _

/-- A word that writes two vector registers and releases an operand that is not the second. -/
theorem keeps_pair (d n a : Nat) (x : Reg) (l : Bool) (r : Reg) (f g : Nat → Word) (tag : Tag) :
    Keeps s (if a = n then (s.wrVn d f tag).wrVn n g tag else ((s.wrVn d f tag).wrVn n g tag).releaseV l x r) := by
  have written := (keeps_wrVn s d f tag).trans (keeps_wrVn _ n g tag)
  exact .ite written (written.trans (keeps_releaseV _ _ _ _))

/-! ### Words that access memory, the CLM and the sampler -/

theorem acts_loadWord (size : Nat) (signed scalar : Bool) (d a : Reg) (p : BitVec 5) (h : BitVec 2) :
    Acts s (loadWord size signed scalar d a p h s) := by
  unfold loadWord
  exact acts_accessPark s fun s _ _ => keeps_fly s _

theorem acts_storeWord (size : Nat) (scalar : Bool) (d a : Reg) (p : BitVec 5) (h : BitVec 2) :
    Acts s (storeWord size scalar d a p h s) := by
  unfold storeWord
  exact acts_accessQueue s fun s _ _ => keeps_queueStore s _ _ _ _ _ _ _ _

theorem acts_atomWord (fn k : Nat) (d a : Reg) (p : BitVec 5) (h : BitVec 2) : Acts s (atomWord fn k d a p h s) := by
  unfold atomWord
  exact acts_accessPark s fun s _ _ => ((Keeps.ite (keeps_handOn s _ _) (.refl s)).trans
    (.foldl (fun s _ => keeps_unvalid s _ _ _) _ _)).trans (keeps_fly _ _)

theorem acts_cmpSend (work : Work) (p : BitVec 5) (a : Reg) (h : BitVec 2) (data : Nat → List Word) :
    Acts s (cmpSend work p a h data s) := by
  unfold cmpSend
  exact acts_accessQueue s fun s _ _ => keeps_fly s _

theorem acts_estSend (work : Work) (p : BitVec 5) (a : Reg) (h : BitVec 2) (extra : Nat → Nat → Page → Bool)
    (data : Nat → List Word) (span : Nat → Nat) : Acts s (estSend work p a h extra data s span) := by
  unfold estSend
  exact acts_accessQueue s fun s _ _ => keeps_fly s _

theorem acts_estLoad (raw : Bool) (d a : Reg) (p : BitVec 5) (h : BitVec 2) : Acts s (estLoad raw d a p h s) := by
  unfold estLoad
  exact acts_accessPark s fun s _ _ => keeps_fly s _

theorem acts_clmLoad (n : Nat) (d a : Reg) (p : BitVec 5) : Acts s (clmLoad n d a p s) := by
  unfold clmLoad
  split
  next stops => exact acts_clmCheck s stops
  next => exact (keeps_flyRead s _ _ _ _ _ _).acts

theorem acts_clmStore (n : Nat) (d a : Reg) (p : BitVec 5) : Acts s (clmStore n d a p s) := by
  unfold clmStore
  split
  next stops => exact acts_clmCheck s stops
  next => exact (keeps_modCluster s _ _).acts

theorem acts_clmAtomic (f : Word → Word → Word) (d a : Reg) (p : BitVec 5) : Acts s (clmAtomic f d a p s) := by
  unfold clmAtomic
  split
  next stops => exact acts_clmCheck s stops
  next => exact ((keeps_setCluster s _).trans (keeps_flyRead _ _ _ _ _ _ _)).acts

theorem keeps_samplerRead (pa n : Nat) (hint : BitVec 2) : Keeps s (s.samplerRead pa n hint).1 := by
  unfold State.samplerRead
  dsimp only
  split
  · dsimp only
    exact keeps_modCore s _ _
  · split
    · exact keeps_touchL2 s _ _ _ _
    · exact (keeps_touchL2 s _ _ _ _).trans (.ite (.refl _) (keeps_modCore _ _ _))

theorem keeps_smpAll (d : Reg) (x : Word) : Keeps s (s.smpAll d x) := keeps_flyRead s _ _ _ _ _ _
theorem keeps_smpPoison (d : Reg) (va : Nat) : Keeps s (s.smpPoison d va) :=
  .ite (keeps_smpAll s _ _) (keeps_flyRead s _ _ _ _ _ _)

theorem keeps_readTaps (t : Tex) (raw : Bool) (tb : List Byte) (h : BitVec 2) (taps : List Tap) (seen : Texels)
    (acc : List (List Word)) : Keeps s (s.readTaps t raw tb h seen taps acc).1 := by
  induction taps generalizing s seen acc with
  | nil => exact .refl s
  | cons tap taps ih =>
    cases tap with
    | border => exact ih s seen _
    | texel k i j =>
      unfold State.readTaps
      dsimp only
      split
      · exact ih s seen _
      · split
        · exact .refl s
        next p _ =>
          have read := keeps_samplerRead s p.pa t.bytes h
          split
          next u bs found =>
            rw [found] at read
            exact read.trans (ih u _ _)
          next u found =>
            rw [found] at read
            exact read

theorem keeps_lane (x : Served) (fn : Nat) (h : BitVec 2) (t : Tex) (tb : List Byte) (l : Nat) (op : List Word) :
    Keeps x.s (x.lane fn h t tb l op).s := by
  have read := keeps_readTaps x.s t (fn == 5) tb h (t.taps fn op) x.seen []
  unfold Served.lane
  dsimp only
  split
  next found =>
    rw [found] at read
    exact read
  next found =>
    rw [found] at read
    split <;> exact read

theorem keeps_smpServe (fn : Nat) (d : Reg) (h : BitVec 2) (t : Tex) (tb : List Byte) (lanes : List (Nat × List Word)) :
    Keeps s (s.smpServe fn d h t tb lanes).1 := by
  have served (x : Served) : Keeps x.s (lanes.foldl (fun (x : Served) (l, op) => x.lane fn h t tb l op) x).s := by
    induction lanes generalizing x with
    | nil => exact .refl x.s
    | cons a lanes ih => exact (keeps_lane x _ _ _ _ _ _).trans (ih _)
  exact (served ⟨s, _, [], []⟩).trans (keeps_flyRead _ _ _ _ _ _ _)

theorem acts_smpLanes (fn : Nat) (d a : Reg) (h : BitVec 2) (t : Tex) (cap : Option Capture) :
    Acts s (s.smpLanes fn d a h t cap) := by
  unfold State.smpLanes
  dsimp only
  split
  · exact acts_trapGroup s _ _ _ _
  · have serve (u : State) (tb : List Byte) (go : List (Nat × List Word)) (out : Mask) (miss : List (Nat × Nat × Nat)) :
        Keeps u (if miss.isEmpty then (u.smpServe fn d h t tb go).1
          else (u.smpServe fn d h t tb go).1.smpPark cap (u.smpServe fn d h t tb go).2 out miss) :=
      .ite (keeps_smpServe u _ _ _ _ _ _) ((keeps_smpServe u _ _ _ _ _ _).trans (keeps_smpPark _ _ _ _ _))
    refine Keeps.acts (.ite (serve s _ _ _ _) ?_)
    split
    · split
      · exact .refl s
      · exact .ite ((keeps_touchTable s _ _).trans (keeps_smpPoison _ _ _))
          (((keeps_touchTable s _ _).trans (keeps_keepTable _ _ _ _)).trans (serve _ _ _ _ _))
    · exact (keeps_keepTable s _ _ _).trans (serve _ _ _ _ _)
    · exact serve s _ _ _ _

theorem acts_smpWord (fn : Nat) (d a : Reg) (p : BitVec 5) (h : BitVec 2) : Acts s (smpWord fn d a p h s) := by
  unfold smpWord
  refine .ite (acts_trapGroup s _ _ _ _) (.ite (acts_trapGroup s _ _ _ _) ?_)
  dsimp only
  split
  · exact (keeps_smpPark s _ _ _ _).acts
  next pg _ =>
    refine .ite (acts_trapGroup s _ _ _ _) ?_
    have read := keeps_samplerRead s pg.pa 64 h
    split
    next u found =>
      rw [found] at read
      exact (read.trans (keeps_smpPoison u _ _)).acts
    next u b found =>
      rw [found] at read
      refine read.then ?_
      split
      · exact acts_trapWord u _ _
      · refine .ite (.ite (acts_smpLanes u _ _ _ _ _ _) (.ite (acts_trapWord u _ _) ?_)) (acts_smpLanes u _ _ _ _ _ _)
        have soft : Keeps u { u with thr := { u.thr with ctl := { u.thr.ctl with sstat := u.thr.ctl.sstat ||| u.active } } } :=
          ⟨rfl, rfl, rfl⟩
        exact (soft.trans (keeps_smpAll _ _ _)).acts

theorem acts_rayWord (fn p : Nat) (bad : List (Nat × Nat × Nat)) (d : Reg) (data : Nat → List Word) (sp : BitVec 5) :
    Acts s (rayWord fn p bad d data sp s) := by
  unfold rayWord
  refine .ite (.refl s) (.ite (keeps_parkAt s _).acts (.ite (acts_trapGroup s _ _ _ _) (.ite (acts_trapGroup s _ _ _ _) ?_)))
  dsimp only
  split
  · exact (keeps_smpPark s _ _ _ _).acts
  next pg _ =>
    refine .ite (acts_trapGroup s _ _ _ _) ?_
    have read := keeps_samplerRead s pg.pa 64 0
    split
    next u found =>
      rw [found] at read
      refine (read.trans (.ite ?_ (keeps_flyRead u _ _ _ _ _ _))).acts
      exact (keeps_flyVectors _ _ _ _ _).after rfl rfl rfl
    next u b found =>
      rw [found] at read
      refine read.then (.ite (acts_trapWord u _ _) ?_)
      split
      · exact acts_trapGroup u _ _ _ _
      · exact .ite (keeps_parkRel u).acts (.ite (.refl u) ((keeps_fly u _).trans (keeps_parkAt _ _)).acts)

/-! ### Words of the engines -/

theorem acts_hamperWord (fn : Nat) (d a : Reg) (p : BitVec 5) (h : BitVec 2) : Acts s (hamperWord fn d a p h s) := by
  unfold hamperWord
  refine .ite (.refl s) (.ite (keeps_parkAt s _).acts ?_)
  have command := acts_readClm s (s.rdS a).toNat 64 64
  split
  next t stops =>
    rw [stops] at command
    exact command
  next t _ m bytes =>
    rw [bytes] at command
    refine Keeps.then command ?_
    have block := acts_readBlock t (t.base p).toNat 128 128 recordNormal
    split
    next u stops =>
      rw [stops] at block
      exact block
    next u _ desc bytes =>
      rw [bytes] at block
      refine Keeps.then block ?_
      dsimp only
      refine .ite (keeps_flyScalars u _ _ _).acts (.ite (acts_trapClm u _ _ _) (.ite ?_ ?_))
      · refine (Keeps.trans ?_ (keeps_flyScalars _ _ _ _)).acts
        refine .foldl (fun u e => .foldl (fun u x => .ite ?_ (.refl u)) _ u) _ u
        split
        · exact .ite (keeps_touchL2 u _ _ _ _) (.refl u)
        · exact .refl u
      · split
        · exact (keeps_flyScalars u _ _ _).acts
        · exact ((keeps_parkAt _ _).after rfl rfl rfl).acts

theorem keeps_postResv (r : Resv) (wait : Bool) : Keeps s (s.postResv r wait) := by
  unfold State.postResv
  dsimp only
  refine .ite (keeps_parkAt s _) ?_
  have posted : Keeps s (if (r.isPass || r.fn == 6 || (r.fn == 5 && r.ctl.getLsbD 9)) = true then
      { s.setCluster { s.cluster s.myCluster with resv := (s.cluster s.myCluster).resv ++ [r] } with
        thr := { s.thr with ctl := { s.thr.ctl with mtouch := s.thr.ctl.mtouch ||| ((1 : Word) <<< r.tile) } } }
      else s.setCluster { s.cluster s.myCluster with resv := (s.cluster s.myCluster).resv ++ [r] }) :=
    .ite ⟨rfl, rfl, rfl⟩ ⟨rfl, rfl, rfl⟩
  exact .ite (posted.trans (keeps_parkAt _ _)) posted

theorem acts_postWord (fn tile : Nat) (zero : Bool) (offA offB ctl : Word) (wait : Bool) :
    Acts s (postWord fn tile zero offA offB ctl wait s) := by
  unfold postWord
  dsimp only
  refine .ite (.ite (keeps_parkAt s _).acts (.refl s)) (.ite (keeps_postResv s _ _).acts (.ite (keeps_parkRel s).acts ?_))
  split
  · exact acts_trapClm s _ _ _
  · exact acts_trapClm s _ _ _
  · exact .ite (keeps_parkRel s).acts ((keeps_postResv _ _ _).after rfl rfl rfl).acts

/-! ### Work creation -/

theorem keeps_openRegion (e : Env) : Keeps s (s.openRegion e) := by
  unfold State.openRegion
  split
  · exact keeps_modRegion s _ _
  · exact ⟨rfl, rfl, rfl⟩

theorem keeps_accept (env : Env) (k : Kern) (args : BitVec 64) (count : Nat) (done : BitVec 64) :
    Keeps s (s.accept env k args count done).1 := (keeps_openRegion s _).of rfl rfl rfl

theorem keeps_launch (rcb root : Nat) (b : List Byte) : Keeps s (s.launch rcb root b).1 := by
  unfold State.launch
  dsimp only
  split
  · exact .refl s
  · split
    · exact .refl s
    · split
      · exact .refl s
      · split
        · exact .refl s
        · split
          · exact .refl s
          · exact keeps_accept s _ _ _ _ _

theorem keeps_openStream (rcb n : Nat) : Keeps s (s.openStream rcb n).1 := by
  unfold State.openStream
  split
  · exact .refl s
  · split
    · exact .refl s
    · exact (keeps_openRegion s _).of rfl rfl rfl

theorem keeps_fireSome (rcb n limit : Nat) : Keeps s (s.fireSome rcb n limit) := by
  unfold State.fireSome
  split
  · exact .refl s
  · exact .ite (.refl s) ((keeps_openStream s _ _).of rfl rfl rfl)

theorem keeps_fireGroup (rcb n : Nat) : Keeps s (s.fireGroup rcb n) := by
  unfold State.fireGroup
  split
  · exact keeps_fireSome s _ _ _
  · exact .refl s

theorem keeps_groupDue (rcb n : Nat) : Keeps s (s.groupDue rcb n) := by
  unfold State.groupDue
  split
  · exact .refl s
  · exact .ite (.refl s) (.ite (.ite (.refl s) (keeps_ask s _ _ _ _)) (keeps_fireGroup s _ _))

theorem keeps_appendRecord {rcb n : Nat} {bytes : List Byte} {solo : Bool} {t : State}
    (appended : s.appendRecord rcb n bytes solo = some t) : Keeps s t := by
  unfold State.appendRecord at appended
  split at appended
  · split at appended
    · cases appended
    · refine Option.some.inj appended ▸ ?_
      refine .ite (Keeps.trans ?_ (keeps_groupDue _ _ _)) ?_
      all_goals exact (keeps_writeVirt s _ _ _).trans (keeps_modNode _ _ _ _)
  · cases appended

theorem keeps_enqueueLane (n : Nat) (a : Reg) (l : Nat) : Keeps s (s.enqueueLane n a l).1 := by
  unfold State.enqueueLane
  dsimp only
  split
  · exact .refl s
  · split
    · exact .refl s
    · split
      · exact .refl s
      next appended => exact keeps_appendRecord s appended

theorem keeps_startWatch (d : Reg) (b : List Byte) : Keeps s (s.startWatch d b) := by
  unfold State.startWatch
  dsimp only
  split
  · exact keeps_flyScalars s _ _ _
  · exact .ite (keeps_flyScalars s _ _ _)
      (.ite ((keeps_flyScalars _ _ _ _).after rfl rfl rfl) (keeps_flyScalars s _ _ _))

theorem acts_startLoop (count : Word) (n : BitVec 7) : Acts s (startLoop s count n) :=
  .ite (acts_trapWord s _ _) (.ite (acts_trapWord s _ _) (.ite (keeps_transfer s _).acts (keeps_setLevel s _).acts))

end Sys2Proof
end

/-! ## Every word acts on its own thread -/

section
namespace Sys2Proof

open Machine

/-! ### Every word -/

/-- Every next state of the outcome is one that the word may leave. -/
def ActsOut (s : State) (o : Out) : Prop := ∀ t, o = .next t → Acts s t

theorem Acts.out {s t : State} (h : Acts s t) : ActsOut s (.next t) := fun _ e => Host.Outcome.next.inj e ▸ h

theorem Keeps.out {s t : State} (h : Keeps s t) : ActsOut s (.next t) := h.acts.out

theorem ActsOut.ite {c : Prop} [Decidable c] {s : State} {a b : Out} (ha : ActsOut s a) (hb : ActsOut s b) :
    ActsOut s (if c then a else b) := by
  split
  · exact ha
  · exact hb

/-- What follows changes that keep the other threads. -/
theorem Keeps.thenOut {s t : State} {o : Out} (h : Keeps s t) (k : ActsOut t o) : ActsOut s o := fun u e => h.then (k u e)

variable (s : State)

/-! ### Words that direct the split -/

theorem execMjoin_acts (o : BitVec 19) : ActsOut s (execMjoin o s) := by
  unfold execMjoin
  split
  · exact (acts_trapWord s _ _).out
  · exact ((keeps_setLevel s _).trans (keeps_setSplit _ _)).out

theorem execJoin_acts : ActsOut s (execJoin s) := by
  unfold execJoin
  split
  · exact (Keeps.refl s).out
  · exact .ite (acts_trapWord s _ _).out (.ite (keeps_waitFor s _).out (Keeps.out ((keeps_arrive s _ _ _).of rfl rfl rfl)))

theorem execLbrk_acts : ActsOut s (execLbrk s) :=
  .ite (acts_trapWord s _ _).out (.ite (acts_trapWord s _ _).out ((keeps_setLevel s _).trans (keeps_transfer _ _)).out)

theorem execBrs_acts (m : Reg) (e : BitVec 2) (o : BitVec 16) : ActsOut s (execBrs m e o s) := by
  have stays := (Keeps.refl s).out
  have goes (p : Word) := (keeps_transfer s p).out
  unfold execBrs
  dsimp only
  split
  · exact .ite (goes _) stays
  · exact .ite (goes _) stays
  · exact .ite (goes _) stays
  · refine .ite stays (.ite (goes _) ?_)
    split
    · exact (((keeps_setSplit s _).trans (keeps_setLevel _ _)).trans (keeps_shareFlights _ _)).out
    · split
      · exact (acts_trapWord s _ _).out
      · exact ((((keeps_setLevel s _).trans (keeps_sharePending _ _)).trans (keeps_setSplit _ _)).trans
          (keeps_transfer _ _)).out

theorem execExit_acts : ActsOut s (execExit s) :=
  (keeps_handOn s _ _).thenOut (.ite (keeps_waitFor _ _).out (Acts.out ((acts_leave _ _).of rfl rfl rfl)))

theorem execRte_acts : ActsOut s (execRte s) :=
  .ite (acts_trapWord s _ _).out (.ite (acts_trapWord s _ _).out (.ite (keeps_waitFor s _).out
    (Acts.out ((acts_trapReturn s).of rfl rfl rfl))))

/-! ### Ordering, ranges and barriers -/

theorem execFfar_acts (p : BitVec 5) (n : BitVec 8) : ActsOut s (execFfar p n s) := by
  unfold execFfar
  dsimp only
  split
  next stops => exact (acts_rangeTrap s stops).out
  next =>
    refine .ite (Keeps.foldl (fun u va => ?_) _ s).out (keeps_parkRange s _ _).out
    split
    · exact .ite ⟨rfl, rfl, rfl⟩ (.refl u)
    · exact .refl u

theorem execInvl_acts (p : BitVec 5) (n : BitVec 8) : ActsOut s (execInvl p n s) := by
  unfold execInvl
  dsimp only
  split
  next stops => exact (acts_rangeTrap s stops).out
  next =>
    refine .ite (Keeps.foldl (fun u va => ?_) _ s).out (keeps_parkRange s _ _).out
    split
    · exact keeps_invalidate u _
    · exact .refl u

theorem execPref_acts (h : BitVec 2) (p : BitVec 5) (n : BitVec 8) : ActsOut s (execPref h p n s) := by
  unfold execPref
  refine (Keeps.foldl (fun u va => ?_) _ s).out
  split
  · exact .ite (keeps_touchL2 u _ _ _ _) (.refl u)
  · exact .refl u

theorem execBar_acts (b : BitVec 4) : ActsOut s (execBar b s) := by
  unfold execBar
  refine .ite (keeps_barOn s _).out ?_
  split
  · exact .ite (keeps_acquire s).out (keeps_parkOrder s _).out
  · have arrives := acts_releaseArrive s b
    split
    next found =>
      rw [found] at arrives
      exact (arrives.keeps (keeps_awaitPhase _ _ _)).out
    next found =>
      rw [found] at arrives
      exact arrives.out

theorem execBara_acts (b : BitVec 4) : ActsOut s (execBara b s) := by
  unfold execBara
  split
  · exact .ite (Keeps.refl s).out (keeps_parkOrder s _).out
  · exact (acts_releaseArrive s b).out

theorem execBarw_acts (b : BitVec 4) : ActsOut s (execBarw b s) := by
  unfold execBarw
  refine .ite (keeps_barOn s _).out ((keeps_handOn s s.thr.key s.thr.env.rcb).thenOut ?_)
  dsimp only
  split
  · exact (keeps_awaitPhase _ _ _).out
  · exact (keeps_acquirePart _).out

theorem execBarx_acts (b : BitVec 4) (n : Reg) : ActsOut s (execBarx b n s) := by
  refine (keeps_handOn s s.thr.key s.thr.env.rcb).thenOut (acts_modBarriers _ fun i x => ?_).out
  split <;> rfl

theorem execOapp_acts (d n : Reg) (c : BitVec 4) : ActsOut s (execOapp d n c s) := by
  have append (u : State) : ActsOut u (match u.channel? c with
      | none => .next (u.flyScalars 0 d [0])
      | some ch =>
        if ch.settled u.thr.index.toNat then .next (u.flyScalars 0 d [0xFFFFFFFF])
        else if u.mayClaim ch then .next (u.claim d n c ch)
        else .next (u.parkAt { u.parkedHere with stage := oappStage, phase := c ++ n ++ d })) := by
    split
    · exact (keeps_flyScalars u _ _ _).out
    · exact .ite (keeps_flyScalars u _ _ _).out
        (.ite ((keeps_modDispatch u _ _).trans (keeps_flyScalars _ _ _ _)).out (keeps_parkAt u _).out)
  exact Keeps.thenOut (.ite (.refl s) (keeps_handOn s _ _)) (append _)

/-! ### Queues, watches and tables -/

theorem execWbc_acts (d a : Reg) (l : Bool) : ActsOut s (execWbc d a l s) := by
  have written := keeps_wrV s d (fun _ => s.rdS a) .u
  unfold execWbc
  exact Keeps.out (.ite (written.of rfl rfl rfl) written)


theorem execLpush_acts (d a : Reg) (p : BitVec 5) : ActsOut s (execLpush d a p s) := by
  unfold execLpush
  dsimp only
  split
  next stops => exact (acts_fifoCheck s stops).out
  next => exact ((keeps_setCluster s _).trans (keeps_flyRead _ _ _ _ _ _ _)).out

theorem execLpop_acts (d a : Reg) (p : BitVec 5) : ActsOut s (execLpop d a p s) := by
  unfold execLpop
  dsimp only
  split
  next stops => exact (acts_fifoCheck s stops).out
  next =>
    refine (Keeps.trans ?_ (keeps_flyRead _ _ _ _ _ _ _)).out
    exact (keeps_setCluster s _).trans (.ite (.refl _) (keeps_flyRead _ _ _ _ _ _ _))

theorem execEwatch_acts (d a : Reg) (p : BitVec 5) : ActsOut s (execEwatch d a p s) := by
  unfold execEwatch
  have block := acts_readBlock s (s.eaS p a).toNat 64 64 noExtra
  split
  next stops =>
    rw [stops] at block
    exact Acts.out block
  next bytes =>
    rw [bytes] at block
    exact (Keeps.trans block (keeps_startWatch _ _ _)).out

theorem execEunw_acts (d a : Reg) : ActsOut s (execEunw d a s) := by
  unfold execEunw
  dsimp only
  split
  · exact Keeps.out ((keeps_flyScalars _ _ _ _).after rfl rfl rfl)
  · exact (keeps_flyScalars s _ _ _).out

theorem execCbind_acts (d a : Reg) (p : BitVec 5) : ActsOut s (execCbind d a p s) := by
  unfold execCbind
  refine .ite (acts_trapWord s _ _).out (.ite (keeps_flyScalars s _ _ _).out ?_)
  have block := acts_readBlock s (s.eaS p a).toNat 64 64 noExtra
  split
  next stops =>
    rw [stops] at block
    exact Acts.out block
  next bytes =>
    rw [bytes] at block
    exact Keeps.thenOut block (.ite (keeps_flyScalars _ _ _ _).out (Keeps.out ((keeps_flyScalars _ _ _ _).after rfl rfl rfl)))

theorem execDtbind_acts (d : Reg) (p : BitVec 5) : ActsOut s (execDtbind d p s) := by
  unfold execDtbind
  split
  next stops => exact (acts_dtbEnter s stops).out
  next =>
    have block := acts_readBlock s (s.base p).toNat 2048 64 recordNormal
    split
    next stops =>
      rw [stops] at block
      exact Acts.out block
    next bytes =>
      rw [bytes] at block
      exact Keeps.thenOut block (.ite (keeps_flyScalars _ _ _ _).out
        ((keeps_setSlot _ _ _ _).trans (keeps_flyScalars _ _ _ _)).out)

theorem execDtunb_acts (d : Reg) : ActsOut s (execDtunb d s) := by
  unfold execDtunb
  split
  next stops => exact (acts_dtbEnter s stops).out
  next => exact .ite ((keeps_setSlot s _ _ _).trans (keeps_flyScalars _ _ _ _)).out (keeps_flyScalars s _ _ _).out

/-! ### Draws, work queues and launches -/

theorem execRdraw_acts (d : Reg) (p : BitVec 5) : ActsOut s (execRdraw d p s) := by
  unfold execRdraw
  refine .ite (keeps_parkRel s).out ?_
  have block := acts_readBlock s (s.base p).toNat 64 64 recordNormal
  split
  next stops =>
    rw [stops] at block
    exact Acts.out block
  next bytes =>
    rw [bytes] at block
    exact Keeps.thenOut block (.ite (keeps_flyScalars _ _ _ _).out (.ite (keeps_flyScalars _ _ _ _).out
      (Keeps.out ((keeps_flyScalars _ _ _ _).after rfl rfl rfl))))

theorem execRwait_acts (d : Reg) : ActsOut s (execRwait d s) := by
  unfold execRwait
  dsimp only
  split
  · exact (keeps_flyScalars s _ _ _).out
  · exact .ite (keeps_flyScalars s _ _ _).out (keeps_parkAt s _).out

theorem execWgenq_acts (d n a : Reg) : ActsOut s (execWgenq d n a s) := by
  unfold execWgenq
  refine .ite (keeps_parkRel s).out (.ite (Keeps.refl s).out ?_)
  split
  · exact (keeps_parkLadle s _).out
  next t enters =>
    refine ((keeps_dsEnter s _ enters).trans (Keeps.trans ?_ (keeps_flyVectors _ _ _ _ _))).out
    exact Keeps.foldl_fst (β := List (Nat × Nat × Word)) (fun acc l => keeps_enqueueLane acc.1 _ _ _) _ (t, [])

theorem execLaunch_acts (d : Reg) (p : BitVec 5) : ActsOut s (execLaunch d p s) := by
  unfold execLaunch
  refine .ite (keeps_parkRel s).out ?_
  have block := acts_readBlock s (s.base p).toNat 32 32 noExtra
  split
  next stops =>
    rw [stops] at block
    exact Acts.out block
  next bytes =>
    rw [bytes] at block
    exact Keeps.thenOut block (.ite (keeps_parkRel _).out ((keeps_launch _ _ _ _).trans (keeps_flyScalars _ _ _ _)).out)

/-! ### The matrix engine and MVNB -/

theorem execMldf_acts (d n : Reg) : ActsOut s (execMldf d n s) := by
  unfold execMldf
  refine .ite (keeps_parkRel s).out ?_
  have block := acts_readClm s (s.rdS n).toNat 32 32
  split
  next stops =>
    rw [stops] at block
    exact Acts.out block
  next t _ b bytes =>
    rw [bytes] at block
    refine Keeps.thenOut block (Keeps.trans ?_ (keeps_fly _ _)).out
    split
    · exact ⟨rfl, rfl, rfl⟩
    · exact .refl t

theorem execMvnb_acts (d a : Reg) : ActsOut s (execMvnb d a s) := by
  unfold execMvnb
  refine .ite (keeps_parkRel s).out ?_
  have block := acts_readClm s (s.rdS a).toNat 64 64
  split
  next stops =>
    rw [stops] at block
    exact Acts.out block
  next t _ b bytes =>
    rw [bytes] at block
    refine Keeps.thenOut block (.ite (keeps_flyScalars t _ _ _).out ?_)
    dsimp only
    split
    · exact (acts_trapGroup t _ _ _ _).out
    · exact ((keeps_addFaults t _ _ _).trans (keeps_parkAgain _ _)).out
    · exact (acts_trapClm t _ _ _).out
    · exact .ite (keeps_flyScalars t _ _ _).out (.ite (keeps_parkRel t).out
        (Keeps.out ((keeps_flyScalars _ _ _ _).after rfl rfl rfl)))

/-- Every word acts on its own thread: most by one of the shared operations, the rest by the lemmas above. -/
theorem exec_acts (i : Instr) (word : i.isWord = true) : ActsOut s (exec i s) := by
  cases i with
  | ret | jmpr | br => exact (keeps_transfer s _).out
  | loop | loopi => exact (acts_startLoop s _ _).out
  | sadd | ssub | smul | smulh | sdiv | sdivu | srem | sand | sor | sxor | sshl | sshr | ssra | smin | smax | sceq
    | sclt | scltu | ssel => exact (keeps_salu2 s _ _ _ _ _).out
  | sshli | sshri | ssrai | sclz | spop | smov => exact (keeps_salu1 s _ _ _ _).out
  | saddi | sandi | sori | ctlr => exact (keeps_wrS s _ _).out
  | vadd | vsub | vmul | vmulh | vand | vor | vxor | vshl | vshr | vsra | vmin | vmax | vfmin | vfmax | vfminn
    | vfmaxn | vfcps | xpack4 | xpackh | xdqnt4 | xdqnt8 | xrngk => exact (keeps_vint2t s _ _ _ _ _ _).out
  | vmad | vselz | xpackb | vdotb | vdotbs | vdotub | vdotubs | vdotn | vdotns => exact (keeps_vint3 s _ _ _ _ _).out
  | vnot | vshri | vsrai | vabs | vneg | vclz | vpop | vmov | vandi | vfabs | vfneg | vfclass | xpack6 | xunpk6
    | vshli | vaddi => exact (keeps_vint1t s _ _ _ _ _).out
  | vli => exact (keeps_wrV s _ _ _).out
  | vceq | vcne | vclt | vcle | vcltu | vcleu | vfceq | vfcne | vfcun => exact (keeps_vcmp s _ _ _ _ _).out
  | vfclt | vfcle => exact ((keeps_raise s _).trans (keeps_vcmp _ _ _ _ _ _)).out
  | vdoth | vdotbf | vfma | vfms | vfnma => exact (keeps_fop3 s _ _ _ _ _).out
  | vfadd | vfsub | vfmul | xdiv | xqnt4 | xqnt8 | xqmx | xdqmx | xamax => exact (keeps_fop2 s _ _ _ _ _).out
  | vfrnd | vftrc | xrcp | xrsq | xsqrt | xexp2 | xlog2 | xsin | xcos | xtanh => exact (keeps_fop1 s _ _ _ _).out
  | hadd | hsub | hmul | hfma | hmin | hmax | badd | bmul | bfma => exact (keeps_hop s _ _ _ _ _ _).out
  | xrngb | xrngu => exact (keeps_fword s _ _ _).out
  | wshfi | wxor | wup | wdn | wscan | wscanmin | wscanmax | wred | wredmin | wredmax | wredand | wredor => exact (keeps_vector s _ _ _ _ _).out
  | ldb | ldbu | ldh | ldhu | ldw | ldd | ldq | sldw | sldd | sldq => exact (acts_loadWord s _ _ _ _ _ _ _).out
  | stb | sth | stw | std | stq | st64 | sstw | sstd => exact (acts_storeWord s _ _ _ _ _ _).out
  | lldw | lldq => exact (acts_clmLoad s _ _ _ _).out
  | lstw | lstq => exact (acts_clmStore s _ _ _ _).out
  | laadd | lamin | lamax | laxch => exact (acts_clmAtomic s _ _ _ _).out
  | aadd | amin | amax | aand | aor | axor | axch | acas | afadd | afmin | afmax | amxi => exact (acts_atomWord s _ _ _ _ _ _).out
  | esta | estw | estg | emrg => exact (acts_estSend s _ _ _ _ _ _ _).out
  | eld | eldr => exact (acts_estLoad s _ _ _ _ _).out
  | cmpt | cflush | cclr => exact (acts_cmpSend s _ _ _ _ _).out
  | smpp | smpb | smpt | smpa | smpg | sfet | slat | sqry => exact (acts_smpWord s _ _ _ _ _).out
  | trace | tracea | tcall => exact (acts_rayWord s _ _ _ _ _ _).out
  | mma | mmaz | mpost => exact (acts_postWord s _ _ _ _ _ _ _).out
  | hload | hstore | hmcast | hpref => exact (acts_hamperWord s _ _ _ _ _).out
  | trap => exact (acts_trapNext s _ _ _).out
  | nop => exact (Keeps.refl s).out
  | const | wflclr => exact Keeps.out ⟨rfl, rfl, rfl⟩
  | mjoin => exact execMjoin_acts s _
  | join => exact execJoin_acts s
  | lbrk => exact execLbrk_acts s
  | brs => exact execBrs_acts s _ _ _
  | exit => exact execExit_acts s
  | rte => exact execRte_acts s
  | yield => exact .ite (keeps_waitFor s _).out (keeps_waitFor s _).out
  | waitx => exact .ite (keeps_waitFor s _).out (Keeps.refl s).out
  | bru => exact .ite (keeps_transfer s _).out (Keeps.refl s).out
  | call => exact ((keeps_wrSn s _ _).trans (keeps_transfer _ _)).out
  | rdtime => exact ((keeps_wrSn s _ _).trans (keeps_wrSn _ _ _)).out
  | xcvt => exact (keeps_fop1 s _ _ _ _).out
  | xunpk4 | wmaxi => exact (keeps_pair s _ _ _ _ _ _ _ _ _).out
  | xrngj => exact ((keeps_advance s _).trans (keeps_releaseV0 _ _ _)).out
  | wshf | wscanx | wcomp => exact (keeps_vector s _ _ _ _ _).out
  | wscanf | wredf => exact (keeps_float s _ _ _ _ _).out
  | wbc => exact execWbc_acts s _ _ _
  | wvote => exact ((keeps_wrMask s _ _).trans (keeps_releaseV0 _ _ _)).out
  | wany | wall => exact ((keeps_wrS s _ _).trans (keeps_releaseV0 _ _ _)).out
  | wflg => exact (keeps_wrMask s _ _).out
  | lpush => exact execLpush_acts s _ _ _
  | lpop => exact execLpop_acts s _ _ _
  | acq | acqrel => exact .ite (keeps_acquire s).out (keeps_parkOrder s _).out
  | rel => exact .ite (Keeps.refl s).out (keeps_parkOrder s _).out
  | fsmp => exact .ite (keeps_modCore s _ _).out (keeps_parkOrder s _).out
  | fbvh => exact .ite (Keeps.out ⟨rfl, rfl, rfl⟩) (keeps_parkOrder s _).out
  | ffar => exact execFfar_acts s _ _
  | pref => exact execPref_acts s _ _ _
  | invl => exact execInvl_acts s _ _
  | egen => exact (acts_estSend s _ _ _ _ _ _ _).out
  | ewatch => exact execEwatch_acts s _ _ _
  | eunw => exact execEunw_acts s _ _
  | clda => exact (acts_accessPark s fun s _ _ => keeps_fly s _).out
  | crep => exact (acts_accessPark s fun s _ _ => (Keeps.foldl (fun s _ => keeps_unvalid s _ _ _) _ s).trans (keeps_fly _ _)).out
  | cbind => exact execCbind_acts s _ _ _
  | bar => exact execBar_acts s _
  | bara => exact execBara_acts s _
  | barw => exact execBarw_acts s _
  | barx => exact execBarx_acts s _ _
  | oapp => exact execOapp_acts s _ _ _
  | odecl => exact ((keeps_handOn s _ _).trans (keeps_modDispatch _ _ _)).out
  | lget => exact .ite (Keeps.refl s).out (.ite (keeps_modRegion s _ _).out (keeps_parkLadle s _).out)
  | lpass => exact (Keeps.ite (.refl s) (keeps_handOn s _ _)).out
  | dtbind => exact execDtbind_acts s _ _
  | dtunb => exact execDtunb_acts s _
  | dtqry => exact .ite (keeps_flyScalars s _ _ _).out (keeps_flyScalars s _ _ _).out
  | hqry => exact (keeps_flyScalars s _ _ _).out
  | trres => exact (((keeps_wrVn s _ _ _).trans (keeps_wrVn _ _ _ _)).trans (keeps_wrVn _ _ _ _)).out
  | rdraw => exact execRdraw_acts s _ _
  | rwait => exact execRwait_acts s _
  | wgenq => exact execWgenq_acts s _ _ _
  | launch => exact execLaunch_acts s _ _
  | wgfin => exact Keeps.out ((keeps_releaseRecords s _).of rfl rfl rfl)
  | mldf => exact execMldf_acts s _ _
  | mvnb => exact execMvnb_acts s _ _
  | mwait | mvwait => exact .ite (keeps_parkRel s).out (Keeps.refl s).out
  | mdrain | mfill => exact .ite (acts_trapWord s _ _).out (acts_postWord s _ _ _ _ _ _ _).out
  | hbatch => exact Keeps.out ((keeps_wrS _ _ _).after rfl rfl rfl)
  | waitb => exact (Keeps.ite (keeps_parkRel s) (.refl s)).out
  | scall => exact .ite (Keeps.out ((keeps_waitFor _ _).after rfl rfl rfl)) (keeps_waitFor s _).out
  | ctlw => exact .ite (acts_trapWord s _ _).out (keeps_ctlWrite s _ _).out
  | bkpt => exact .ite (acts_trapNext s _ _ _).out (keeps_stopAtBkpt s _).out
  | _ => cases word

/-- Settles O8: what a word's operations keep, and what its barriers and the end of its thread do, put together. -/
theorem wordsKeepOtherThreads : Obligations.WordsKeepOtherThreads := by
  unfold Obligations.WordsKeepOtherThreads
  intro i s t word runs
  exact exec_acts s i word t runs

end Sys2Proof
end

/-! ## Waiting words, the order of issue and promotion (R76, R83, R336) -/

section
namespace Sys2Proof

open Machine

/-! ### The splits of a thread -/

/-- The splits of a thread in its present level are those that the entries hold. -/
theorem mem_splitsOf_false {t : Thread} {e : Split} : e ∈ t.splitsOf false ↔ ∃ i, t.level.split? i = some e := by
  simp only [Thread.splitsOf, Bool.false_eq_true, if_false, Option.toList_some, List.flatMap_singleton, List.mem_filterMap,
    id_eq, exists_eq_right, Vector.mem_toList_iff, Vector.mem_iff_getElem, Level.split?, Option.join_eq_some_iff]
  constructor
  · rintro ⟨i, lt, held⟩
    refine ⟨BitVec.ofNat 2 i, ?_⟩
    rw [BitVec.toNat_ofNat, Nat.mod_eq_of_lt lt, Vector.getElem?_eq_getElem lt, held]
  · rintro ⟨i, held⟩
    exact ⟨i.toNat, i.isLt, (Vector.getElem?_eq_some_iff.mp held).2⟩

theorem thread?_self {s : State} (live : s.live = true) : s.thread? s.thr.key = some s.thr := by
  simp [State.thread?, State.allThreads, live]

/-- A result of the classes is outstanding for a split of the thread in focus: of a word in flight, or of a parked one (R77). -/
theorem waitsResults_iff {s : State} (live : s.live = true) (sp : BitVec 2) (classes : BitVec 4) :
    s.waitsResults s.thr.key sp false classes = true ↔
      (∃ f ∈ s.flights, f.outstanding s.thr.key sp false = true ∧ classes.getLsbD f.cls = true) ∨
        ∃ i x p o, s.thr.level.split? i = some x ∧ p ∈ x.words ∧ p.splits.getLsbD sp.toNat = true ∧ p.owed = some o ∧
          classes.getLsbD o.cls = true := by
  unfold State.waitsResults
  rw [thread?_self live]
  simp only [Option.map_some, Option.getD_some, Bool.or_eq_true, List.any_eq_true, Bool.and_eq_true, mem_splitsOf_false,
    ParkedWord.owes, Option.any_eq_true]
  refine or_congr_right ⟨?_, ?_⟩
  · rintro ⟨x, ⟨i, held⟩, p, among, mine, o, owed, cls⟩
    exact ⟨i, x, p, o, held, among, mine, owed, cls⟩
  · rintro ⟨i, x, p, o, held, among, mine, owed, cls⟩
    exact ⟨x, ⟨i, held⟩, p, among, mine, o, owed, cls⟩

/-! ### NOP, YIELD, WAITX and CONST -/

theorem waitFor_eq_waitsAt {s : State} {e : Split} (held : s.split = some e) (w : Wait) : s.waitFor w = waitsAt s e w := by
  unfold State.waitFor
  rw [State.setSplit_of_split _ held]
  rfl

/-- With a CONST, the immediate of 19 bits has the payload above it (R23). -/
theorem imm19_eq (s : State) (y : BitVec 19) : s.imm19 y = match s.ctx.ext with
    | some p => p.toNat * 2 ^ 19 + y.toNat
    | none => y.toNat := by
  unfold State.imm19
  cases s.ctx.ext with
  | none => rfl
  | some p =>
    dsimp only
    rw [BitVec.toNat_append, ← Nat.shiftLeft_add_eq_or_of_lt y.isLt, Nat.shiftLeft_eq]

theorem execYield_eq {s : State} {e : Split} (held : s.split = some e) (y : BitVec 19) :
    execYield y s = .next (waitsAt s e
      (if s.imm19 y = 0 then .yieldSet s.eligibleOthers (s.clock + 64) else .yield (s.clock + s.imm19 y))) := by
  unfold execYield
  dsimp only
  split <;> rw [waitFor_eq_waitsAt held]

/-! ### The end of a YIELD -/

theorem forSplit_eq {s u : State} {k : TKey} {sp : BitVec 2} {e : Split} (focus : s.focus k = some u)
    (held : u.thr.level.split? sp = some e) (f : State → Split → State) : s.forSplit k sp f = f u e := by
  unfold State.forSplit
  rw [focus]
  dsimp only
  rw [held]

/-- A YIELD whose clocks are over ends (R76). -/
theorem yieldExpiry_of_yield {s u : State} {k : TKey} {sp : BitVec 2} {e : Split} {c : Nat} (focus : s.focus k = some u)
    (held : u.thr.level.split? sp = some e) (wait : e.wait = .yield c) (ended : c ≤ u.clock) :
    exec (.yieldExpiry k sp) s =
      .next { u with thr := { u.thr with level := u.thr.level.setSplit sp (some { e with wait := .none }) } } := by
  change execYieldExpiry k sp s = _
  unfold execYieldExpiry
  rw [forSplit_eq focus held, wait]
  exact congrArg Host.Outcome.next (if_pos ended)

/-- A YIELD 0 whose 64 clocks are over, or whose splits have all moved on, ends (R76). -/
theorem yieldExpiry_of_yieldSet {s u : State} {k : TKey} {sp : BitVec 2} {e : Split} {set : List (TKey × BitVec 2)} {c : Nat}
    (focus : s.focus k = some u) (held : u.thr.level.split? sp = some e) (wait : e.wait = .yieldSet set c)
    (ended : c ≤ u.clock ∨ ∀ x ∈ set, u.yieldHeld u.thr x = false) :
    exec (.yieldExpiry k sp) s =
      .next { u with thr := { u.thr with level := u.thr.level.setSplit sp (some { e with wait := .none }) } } := by
  have ended : c ≤ u.clock ∨ (!set.any (u.yieldHeld u.thr)) = true := ended.imp_right fun moved => by simpa using moved
  change execYieldExpiry k sp s = _
  unfold execYieldExpiry
  rw [forSplit_eq focus held, wait]
  exact congrArg Host.Outcome.next (if_pos ended)

/-! ### The order of ranks -/

/-- A rank as numbers, the earlier the lower. -/
def Rank.key (r : Rank) : ℕ ×ₗ ℕᵒᵈ ×ₗ ℕ ×ₗ ℕ ×ₗ ℕ ×ₗ ℕ :=
  toLex (if r.promoted then 0 else 1, toLex (OrderDual.toDual r.prio, toLex (r.progress, toLex (r.birth, toLex (r.wave, r.last)))))

/-- A rank stands before another when it comes first in the first place where they differ (R83). -/
theorem Rank.before_iff (a b : Rank) : a.before b = true ↔ Rank.key a < Rank.key b := by
  unfold Rank.before Rank.key
  simp only [Prod.Lex.toLex_lt_toLex, OrderDual.toDual_lt_toDual, OrderDual.toDual_inj]
  cases a.promoted <;> cases b.promoted <;> simp only [ne_eq, not_true_eq_false, reduceCtorEq, not_false_eq_true, if_true,
    if_false, Bool.false_eq_true]
  · split_ifs <;> simp_all
  · simp
  · simp
  · split_ifs <;> simp_all

theorem Rank.before_eq_false_iff (a b : Rank) : a.before b = false ↔ Rank.key b ≤ Rank.key a := by
  rw [← Bool.not_eq_true, Rank.before_iff, not_lt]

/-! ### Insertion by rank -/

theorem insertRank_perm (x : Rank × TKey × BitVec 2) (ys : List (Rank × TKey × BitVec 2)) : (insertRank x ys).Perm (x :: ys) := by
  induction ys with
  | nil => exact .refl _
  | cons y ys ih =>
    unfold insertRank
    split
    · exact .refl _
    · exact (ih.cons y).trans (.swap x y ys)

/-- The entries stand in the order of their ranks. -/
def Ranked (ys : List (Rank × TKey × BitVec 2)) : Prop := ys.Pairwise (fun x y => Rank.key x.1 ≤ Rank.key y.1)

theorem Ranked.insert {ys : List (Rank × TKey × BitVec 2)} (ranked : Ranked ys) (x : Rank × TKey × BitVec 2) :
    Ranked (insertRank x ys) := by
  induction ys with
  | nil => exact List.pairwise_singleton _ x
  | cons y ys ih =>
    obtain ⟨first, rest⟩ := List.pairwise_cons.mp ranked
    unfold insertRank
    split
    next before =>
      have lt := (Rank.before_iff x.1 y.1).mp before
      refine List.pairwise_cons.mpr ⟨fun z among => ?_, ranked⟩
      obtain rfl | among := List.mem_cons.mp among
      · exact lt.le
      · exact lt.le.trans (first z among)
    next behind =>
      have le := (Rank.before_eq_false_iff x.1 y.1).mp (Bool.eq_false_iff.mpr behind)
      refine List.pairwise_cons.mpr ⟨fun z among => ?_, ih rest⟩
      obtain rfl | among := List.mem_cons.mp ((insertRank_perm x ys).mem_iff.mp among)
      · exact le
      · exact first z among

theorem foldl_insertRank (xs ys : List (Rank × TKey × BitVec 2)) (ranked : Ranked ys) :
    Ranked (xs.foldl (fun l x => insertRank x l) ys) ∧ (xs.foldl (fun l x => insertRank x l) ys).Perm (xs ++ ys) := by
  induction xs generalizing ys with
  | nil => exact ⟨ranked, .refl _⟩
  | cons x xs ih =>
    obtain ⟨sorted, perm⟩ := ih _ (ranked.insert x)
    exact ⟨sorted, perm.trans (((insertRank_perm x ys).append_left xs).trans List.perm_middle)⟩

/-! ### The order in which an issuer tries its splits -/

/-- An entry of an issuer's order: a split of one of its threads, with its rank. -/
def Entry (s : State) (p : Nat) (x : Rank × TKey × BitVec 2) : Prop :=
  ∃ t ∈ s.allThreads, t.issuer = p ∧ t.key = x.2.1 ∧ ∃ e, t.level.split? x.2.2 = some e ∧ x.1 = s.rankOf t e

/-- The order of an issuer, with the ranks of its entries: exactly its splits, in the order of their ranks. -/
theorem issueOrder_eq (s : State) (p : Nat) : ∃ xs : List (Rank × TKey × BitVec 2),
    issueOrder s p = xs.map Prod.snd ∧ Ranked xs ∧ ∀ x, x ∈ xs ↔ Entry s p x := by
  obtain ⟨ranked, perm⟩ := foldl_insertRank ((s.allThreads.filter (fun t => t.issuer == p)).flatMap (fun t =>
    (List.range 4).filterMap (fun i => (t.level.split? (BitVec.ofNat 2 i)).map (fun e =>
      (s.rankOf t e, t.key, BitVec.ofNat 2 i))))) [] List.Pairwise.nil
  refine ⟨_, rfl, ranked, fun x => perm.mem_iff.trans ?_⟩
  simp only [List.append_nil, List.mem_flatMap, List.mem_filter, beq_iff_eq, List.mem_filterMap, List.mem_range,
    Option.map_eq_some_iff, Entry]
  constructor
  · rintro ⟨t, ⟨among, mine⟩, i, -, e, held, rfl⟩
    exact ⟨t, among, mine, rfl, e, held, rfl⟩
  · rintro ⟨t, among, mine, key, e, held, rank⟩
    obtain ⟨r, k, i⟩ := x
    have slot : BitVec.ofNat 2 i.toNat = i := by rw [BitVec.ofNat_toNat, BitVec.setWidth_eq]
    exact ⟨t, ⟨among, mine⟩, i.toNat, i.isLt, e, slot.symm ▸ held, by simp only at key rank; rw [slot, key, rank]⟩

/-- With keys of their own, the thread of a key is the one that has it. -/
theorem thread?_eq_some_iff {s : State} (apart : (s.allThreads.map Thread.key).Nodup) (k : TKey) (t : Thread) :
    s.thread? k = some t ↔ t ∈ s.allThreads ∧ t.key = k := by
  constructor
  · intro found
    exact ⟨List.mem_of_find?_eq_some found, by simpa using List.find?_some found⟩
  · rintro ⟨among, rfl⟩
    cases found : s.thread? t.key with
    | none => exact absurd (List.find?_eq_none.mp found t among) (by simp)
    | some u =>
      have key : u.key = t.key := by simpa using List.find?_some (p := fun x : Thread => x.key == t.key) found
      rw [List.inj_on_of_nodup_map apart (List.mem_of_find?_eq_some found) among key]

theorem entry_iff {s : State} (apart : (s.allThreads.map Thread.key).Nodup) (p : Nat) (x : Rank × TKey × BitVec 2) :
    Entry s p x ↔ ∃ t e, s.thread? x.2.1 = some t ∧ t.issuer = p ∧ t.level.split? x.2.2 = some e ∧ x.1 = s.rankOf t e := by
  simp only [thread?_eq_some_iff apart]
  constructor
  · rintro ⟨t, among, mine, key, e, held, rank⟩
    exact ⟨t, e, ⟨among, key⟩, mine, held, rank⟩
  · rintro ⟨t, e, ⟨among, key⟩, mine, held, rank⟩
    exact ⟨t, among, mine, key, e, held, rank⟩

/-- An issuer tries the splits of its threads, and no others (R83). -/
theorem mem_issueOrder_iff {s : State} (apart : (s.allThreads.map Thread.key).Nodup) (p : Nat) (k : TKey) (sp : BitVec 2) :
    (k, sp) ∈ issueOrder s p ↔ ∃ t, s.thread? k = some t ∧ t.issuer = p ∧ t.level.split? sp ≠ none := by
  obtain ⟨xs, order, -, entries⟩ := issueOrder_eq s p
  simp only [order, List.mem_map, entries, entry_iff apart]
  constructor
  · rintro ⟨⟨r, k', sp'⟩, ⟨t, e, found, mine, held, -⟩, same⟩
    obtain ⟨rfl, rfl⟩ := Prod.mk.inj same
    exact ⟨t, found, mine, by rw [held]; exact Option.some_ne_none e⟩
  · rintro ⟨t, found, mine, held⟩
    obtain ⟨e, held⟩ := Option.ne_none_iff_exists'.mp held
    exact ⟨(s.rankOf t e, k, sp), ⟨t, e, found, mine, held, rfl⟩, rfl⟩

/-- An issuer tries its splits in the order of their ranks (R83, R282). -/
theorem issueOrder_ranked {s : State} (apart : (s.allThreads.map Thread.key).Nodup) (p : Nat) :
    (issueOrder s p).Pairwise (fun x y => ∀ t u e f, s.thread? x.1 = some t → t.level.split? x.2 = some e →
      s.thread? y.1 = some u → u.level.split? y.2 = some f → Rank.before (s.rankOf u f) (s.rankOf t e) = false) := by
  obtain ⟨xs, order, ranked, entries⟩ := issueOrder_eq s p
  rw [order, List.pairwise_map]
  refine ranked.imp_of_mem fun {x y} among among' le t u e f found held found' held' => ?_
  obtain ⟨t', e', thread, -, split, rank⟩ := (entry_iff apart p x).mp ((entries x).mp among)
  obtain ⟨u', f', thread', -, split', rank'⟩ := (entry_iff apart p y).mp ((entries y).mp among')
  obtain rfl := Option.some.inj (found.symm.trans thread)
  obtain rfl := Option.some.inj (found'.symm.trans thread')
  obtain rfl := Option.some.inj (held.symm.trans split)
  obtain rfl := Option.some.inj (held'.symm.trans split')
  rw [Rank.before_eq_false_iff, ← rank, ← rank']
  exact le

/-! ### Promotion (R336) -/

/-- A change of one thread that keeps the keys: the first thread of the key has changed, every other is as before. -/
theorem thread?_modThread {s : State} (k j : TKey) {f : Thread → Thread} (keeps : ∀ t, (f t).key = t.key) :
    (s.modThread k f).thread? j = (s.thread? j).map (fun t => if t.key = k then f t else t) := by
  have all : (s.modThread k f).allThreads = s.allThreads.map (fun t => if t.key = k then f t else t) := by
    unfold State.modThread State.allThreads
    cases s.live <;> simp
  unfold State.thread?
  rw [all, List.find?_map]
  refine congrArg (Option.map _) (List.find?_congr fun t _ => ?_)
  simp only [Function.comp_apply]
  split
  · rw [keeps]
  · rfl

theorem Level.mapSplit_of_split {l : Level} {i : BitVec 2} {e : Split} (f : Split → Split) (held : l.split? i = some e) :
    l.mapSplit i f = l.setSplit i (some (f e)) := by
  unfold Level.mapSplit
  rw [held]

/-- A wave whose eligible splits have all waited 4,096 clocks, one at least, has waited (R336). -/
theorem waited_of_eligible {s : State} {t : Thread} {sp : BitVec 2} (eligible : s.eligible t sp = true)
    (since : ∀ i x, t.level.split? i = some x → s.eligible t i = true → x.since + 4096 ≤ s.clock) : s.waited t = true := by
  have slot (i : BitVec 2) : i ∈ splitSlots := by revert i; decide
  unfold State.waited
  rw [Bool.and_eq_true, List.any_eq_true, List.all_eq_true]
  refine ⟨⟨sp, slot sp, eligible⟩, fun i _ => ?_⟩
  cases may : s.eligible t i with
  | false => rfl
  | true =>
    cases held : t.level.split? i with
    | none => rfl
    | some x => simpa using since i x held may

/-- Settles O23: the words by what `waitFor` does, the order by insertion by rank, promotion by what `modThread` does. -/
theorem waitsHoldTheirSplit : Obligations.WaitsHoldTheirSplit := by
  unfold Obligations.WaitsHoldTheirSplit
  refine ⟨⟨fun s e held => ⟨rfl, fun y => ?_, fun w live => ?_, fun p => rfl⟩, fun s u k sp e focus held => ⟨?_, ?_⟩⟩,
    fun s p apart => ⟨mem_issueOrder_iff apart p, issueOrder_ranked apart p⟩, ?_, ?_⟩
  · have yields := execYield_eq held y
    rw [imm19_eq] at yields
    exact yields
  · have parked : (s.split.bind Split.parked).isSome = true ↔ e.parked ≠ none := by
      rw [held, Option.bind_some, Option.isSome_iff_ne_none]
    have waits := (or_congr (waitsResults_iff live s.ctx.sp (waitClasses w)) parked).trans or_assoc
    change (_ → execWaitx w s = _) ∧ (_ → execWaitx w s = _)
    unfold execWaitx
    rw [waitFor_eq_waitsAt held]
    exact ⟨fun h => if_pos (waits.mpr h), fun h => if_neg (h ∘ waits.mp)⟩
  · exact fun c wait ended => yieldExpiry_of_yield focus held wait ended
  · exact fun set c wait ended => yieldExpiry_of_yieldSet focus held wait ended
  · intro s k sp t e found held eligible lowest since
    change RanTo (execProgressPromote k sp s) _
    unfold execProgressPromote
    rw [found]
    dsimp only
    rw [if_pos ⟨eligible, lowest, waited_of_eligible eligible since⟩]
    have key : t.key = k := by simpa using List.find?_some (p := fun x : Thread => x.key == k) found
    refine ⟨_, rfl, ?_, fun j other => ?_⟩
    · rw [thread?_modThread _ _ (by intro; rfl), found, Option.map_some, if_pos key, Level.mapSplit_of_split _ held]
    · rw [thread?_modThread _ _ (by intro; rfl)]
      cases standing : s.thread? j with
      | none => rfl
      | some u =>
        have mine : u.key = j := by simpa using List.find?_some (p := fun x : Thread => x.key == j) standing
        rw [Option.map_some, if_neg (mine ▸ other)]
  · intro s t u e f wave wave' promoted unpromoted
    simp [State.rankOf, wave, wave', promoted, unpromoted, Rank.before]

end Sys2Proof
end

/-! ## Results that land in registers -/

section
namespace Sys2Proof

open Machine

/-! ### Results that land (R24, R55, R77) -/

theorem Level.setSplit_setSplit (l : Level) (i : BitVec 2) (e g : Option Split) :
    (l.setSplit i e).setSplit i g = l.setSplit i g := by
  simp [Level.setSplit]

/-- The results of a word as they land, one after the other. -/
def landAll (t : Thread) (stamp : Nat) (f : Flight) (rs : List (Nat × Nat × Word)) : Thread :=
  rs.foldl (fun t (l, r, x) => t.landValue stamp f l r x) t

/-- Between `t` and `u` only scalar registers were written, by split `sp`: a mask word of that split is all that may have
changed of the level. -/
structure WroteS (t u : Thread) (sp : BitVec 2) : Prop where
  rest : u = { t with s := u.s, srel := u.srel, level := u.level }
  level : u.level = t.level ∨ t.mcc = false ∧
    ∃ e c, t.level.split? sp = some e ∧ u.level = t.level.setSplit sp (some { e with cur := c })

namespace WroteS

variable {t u w : Thread} {sp : BitVec 2}

theorem refl (t : Thread) (sp : BitVec 2) : WroteS t t sp := ⟨rfl, .inl rfl⟩

theorem mcc_eq (h : WroteS t u sp) : u.mcc = t.mcc := by rw [h.rest]

theorem trans (h : WroteS t u sp) (g : WroteS u w sp) : WroteS t w sp := by
  refine ⟨g.rest.trans (by rw [h.rest]), ?_⟩
  obtain same | ⟨wave, e, c, held, moved⟩ := g.level
  · rw [same]
    exact h.level
  · rw [h.mcc_eq] at wave
    obtain same | ⟨-, e', c', held', moved'⟩ := h.level
    · exact .inr ⟨wave, e, c, same ▸ held, same ▸ moved⟩
    · rw [moved', Level.split?_setSplit, if_pos rfl] at held
      refine .inr ⟨wave, e', c, held', ?_⟩
      rw [moved, moved', Level.setSplit_setSplit, ← Option.some.inj held]

theorem wrS (t : Thread) (sp : BitVec 2) (q : Nat) (x : Word) : WroteS t (t.wrS sp q x) sp :=
  ⟨t.wrS_only sp q x, (t.wrS_level sp q x).imp_right fun ⟨_, _, wave, moved⟩ => ⟨wave, moved⟩⟩

/-- What is written is cut to the lanes that the split owns, which no write changes. -/
theorem stored_eq (h : WroteS t u sp) (q : Nat) (x : Word) : u.stored sp q x = t.stored sp q x := by
  unfold Thread.stored
  rw [h.mcc_eq]
  obtain same | ⟨-, e, c, held, moved⟩ := h.level
  · rw [same]
  · simp only [moved, Level.split?_setSplit, if_true, held, Option.map_some]

theorem level_eq (h : WroteS t u sp) (still : t.level.split? sp = none ∨ t.mcc = true) : u.level = t.level := by
  obtain same | ⟨wave, e, c, held, -⟩ := h.level
  · exact same
  · obtain none_ | mcc := still
    · exact absurd (none_.symm.trans held) nofun
    · exact absurd (mcc.symm.trans wave) nofun

/-- The mask words of a wave's split are what its registers m0 to m2 read. -/
theorem masks (h : WroteS t u sp) (stamp : Nat) {e : Split} (wave : t.mcc = false) (held : t.level.split? sp = some e) :
    ∃ c : Mask, u.level = t.level.setSplit sp (some { e with cur := c }) ∧
      ∀ j, j < 3 → maskWord c j = u.rdS sp stamp (60 + j) := by
  have reads (c : Mask) (l : u.level.split? sp = some { e with cur := c }) (j : Nat) (hj : j < 3) :
      maskWord c j = u.rdS sp stamp (60 + j) := by
    unfold Thread.rdS
    rw [if_neg (by omega), if_pos ⟨by omega, by rw [h.mcc_eq, wave]; rfl⟩, l, Nat.add_sub_cancel_left]
    simp only [Option.map_some, Option.getD_some]
  obtain same | ⟨-, e', c, held', moved⟩ := h.level
  · exact ⟨e.cur, same.trans (Level.setSplit_self held).symm, reads _ (by rw [same, held])⟩
  · obtain rfl := Option.some.inj (held.symm.trans held')
    exact ⟨c, moved, reads c (by rw [moved, Level.split?_setSplit, if_pos rfl])⟩

end WroteS

section scalar

variable {t : Thread} {f : Flight} (stamp : Nat)

theorem landValue_scalar (scalar : f.scalar = true) (level : f.inBase = false) (l r : Nat) (x : Word) :
    t.landValue stamp f l r x = t.wrS f.sp (f.dst + r) x := by
  unfold Thread.landValue
  rw [if_pos scalar, level]

theorem landAll_wroteS (scalar : f.scalar = true) (level : f.inBase = false) (rs : List (Nat × Nat × Word)) :
    WroteS t (landAll t stamp f rs) f.sp := by
  induction rs generalizing t with
  | nil => exact .refl t _
  | cons x rs ih =>
    have first := WroteS.wrS t f.sp (f.dst + x.2.1) x.2.2
    rw [← landValue_scalar stamp scalar level x.1] at first
    exact first.trans ih

/-- A register that no result names keeps what it read. -/
theorem landAll_rdS_other (scalar : f.scalar = true) (level : f.inBase = false) {rs : List (Nat × Nat × Word)}
    (inside : ∀ x ∈ rs, f.dst + x.2.1 < 64) {r : Nat} (hr : r < 64) (other : ∀ x ∈ rs, f.dst + x.2.1 ≠ r) :
    (landAll t stamp f rs).rdS f.sp stamp r = t.rdS f.sp stamp r := by
  induction rs generalizing t with
  | nil => rfl
  | cons x rs ih =>
    rw [List.forall_mem_cons] at inside other
    refine (ih inside.2 other.2).trans ?_
    dsimp only
    rw [landValue_scalar stamp scalar level, Thread.rdS_wrS _ _ _ _ _ _ hr inside.1, if_neg (Ne.symm other.1)]

/-- A register that one result names reads what is stored of that. -/
theorem landAll_rdS_named (scalar : f.scalar = true) (level : f.inBase = false) {rs : List (Nat × Nat × Word)}
    (inside : ∀ x ∈ rs, f.dst + x.2.1 < 64) (once : (rs.map (fun x => x.2.1)).Nodup) {x : Nat × Nat × Word} (hx : x ∈ rs) :
    (landAll t stamp f rs).rdS f.sp stamp (f.dst + x.2.1) = t.stored f.sp (f.dst + x.2.1) x.2.2 := by
  induction rs generalizing t with
  | nil => exact absurd hx List.not_mem_nil
  | cons y rs ih =>
    rw [List.forall_mem_cons] at inside
    rw [List.map_cons, List.nodup_cons] at once
    obtain rfl | later := List.mem_cons.mp hx
    · have apart : ∀ y ∈ rs, f.dst + y.2.1 ≠ f.dst + x.2.1 := fun y hy same =>
        once.1 (List.mem_map.mpr ⟨y, hy, Nat.add_left_cancel same⟩)
      refine (landAll_rdS_other stamp scalar level inside.2 inside.1 apart).trans ?_
      dsimp only
      rw [landValue_scalar stamp scalar level, Thread.rdS_wrS _ _ _ _ _ _ inside.1 inside.1, if_pos rfl]
    · refine (ih inside.2 once.2 later).trans ?_
      dsimp only
      rw [landValue_scalar stamp scalar level, (WroteS.wrS t f.sp _ _).stored_eq]

end scalar

/-- Between `t` and `u` only vector registers were written. -/
def WroteV (t u : Thread) : Prop := u = { t with v := u.v, vtag := u.vtag, vrel := u.vrel }

theorem WroteV.trans {t u w : Thread} (h : WroteV t u) (g : WroteV u w) : WroteV t w := by
  unfold WroteV at *
  exact g.trans (by rw [h])

section vector

variable {t : Thread} {f : Flight} (stamp : Nat)

theorem landValue_vector (vector : f.scalar = false) (l r : Nat) (x : Word) :
    t.landValue stamp f l r x = t.wrV stamp (f.dst + r) ((1 : Mask) <<< l) (fun _ => x) .g := by
  unfold Thread.landValue
  rw [vector]
  rfl

theorem wroteV_wrV (t : Thread) (d : Nat) (m : Mask) (g : Nat → Word) (tag : Tag) : WroteV t (t.wrV stamp d m g tag) := by
  unfold WroteV Thread.wrV
  split <;> rfl

theorem landAll_wroteV (vector : f.scalar = false) (rs : List (Nat × Nat × Word)) : WroteV t (landAll t stamp f rs) := by
  induction rs generalizing t with
  | nil => rfl
  | cons x rs ih =>
    have first := wroteV_wrV stamp t (f.dst + x.2.1) ((1 : Mask) <<< x.1) (fun _ => x.2.2) .g
    rw [← landValue_vector stamp vector] at first
    exact first.trans ih

/-- The bit of one lane. -/
theorem laneBit (l i : Nat) (hi : i < 96) : ((1 : Mask) <<< l).getLsbD i = decide (i = l) := by
  simp only [BitVec.getLsbD_shiftLeft]
  by_cases e : i = l
  · simp [e, e ▸ hi]
  · by_cases below : i < l
    · simp [e, below]
    · simp [e, below, hi, show ¬ i - l = 0 by omega]

/-- One result landed: its lane of its register, and no other. -/
theorem rdV_landValue (vector : f.scalar = false) {l r q i : Nat} (x : Word) (hd : f.dst + r < 64) (hq : q < 64) (hi : i < 96) :
    laneOf ((t.landValue stamp f l r x).rdV stamp q) i =
      if l = i ∧ f.dst + r = q then x else laneOf (t.rdV stamp q) i := by
  rw [landValue_vector stamp vector, Thread.rdV_wrV _ _ _ _ _ _ _ _ hd hq hi, laneBit l i hi]
  by_cases e : q = f.dst + r
  · subst e
    simp [eq_comm]
  · simp [e, Ne.symm e]

theorem landAll_rdV_other (vector : f.scalar = false) {rs : List (Nat × Nat × Word)}
    (inside : ∀ x ∈ rs, f.dst + x.2.1 < 64) {q i : Nat} (hq : q < 64) (hi : i < 96)
    (other : ∀ x ∈ rs, ¬ (x.1 = i ∧ f.dst + x.2.1 = q)) :
    laneOf ((landAll t stamp f rs).rdV stamp q) i = laneOf (t.rdV stamp q) i := by
  induction rs generalizing t with
  | nil => rfl
  | cons x rs ih =>
    rw [List.forall_mem_cons] at inside other
    refine (ih inside.2 other.2).trans ?_
    exact (rdV_landValue stamp vector x.2.2 inside.1 hq hi).trans (if_neg other.1)

theorem landAll_rdV_named (vector : f.scalar = false) {rs : List (Nat × Nat × Word)}
    (inside : ∀ x ∈ rs, x.1 < 96 ∧ f.dst + x.2.1 < 64) (once : (rs.map (fun x => (x.1, x.2.1))).Nodup)
    {x : Nat × Nat × Word} (hx : x ∈ rs) :
    laneOf ((landAll t stamp f rs).rdV stamp (f.dst + x.2.1)) x.1 = x.2.2 := by
  induction rs generalizing t with
  | nil => exact absurd hx List.not_mem_nil
  | cons y rs ih =>
    rw [List.forall_mem_cons] at inside
    rw [List.map_cons, List.nodup_cons] at once
    obtain rfl | later := List.mem_cons.mp hx
    · obtain ⟨lane, reg⟩ := inside.1
      have apart : ∀ y ∈ rs, ¬ (y.1 = x.1 ∧ f.dst + y.2.1 = f.dst + x.2.1) := fun y hy ⟨l, r⟩ =>
        once.1 (List.mem_map.mpr ⟨y, hy, Prod.ext l (Nat.add_left_cancel r)⟩)
      refine (landAll_rdV_other stamp vector (fun y hy => (inside.2 y hy).2) reg lane apart).trans ?_
      exact (rdV_landValue stamp vector x.2.2 reg reg lane).trans (if_pos ⟨rfl, rfl⟩)
    · exact ih inside.2 once.2 later

end vector

end Sys2Proof
end

/-! ## Words whose results land -/

section
namespace Sys2Proof

open Machine

/-! ### Reading registers, whichever split reads -/

/-- A register that is not a mask of a wave reads alike for every split. -/
theorem rdS_any_split (t : Thread) (sp sq : BitVec 2) (stamp : Nat) {r : Nat} (plain : r < 60 ∨ r = 63 ∨ t.mcc = true) :
    t.rdS sp stamp r = t.rdS sq stamp r := by
  unfold Thread.rdS
  by_cases h : r = 63
  · simp only [if_pos h]
  · have notMask : ¬ (60 ≤ r ∧ (!t.mcc) = true) := by
      rintro ⟨least, wave⟩
      obtain small | big | mcc := plain
      · omega
      · exact h big
      · simp [mcc] at wave
    simp only [if_neg h, if_neg notMask]

theorem stored_plain {t : Thread} {sp : BitVec 2} {r : Nat} (x : Word) (plain : r < 60 ∨ t.mcc = true ∧ r < 63) :
    t.stored sp r x = x := by
  have notMask : ¬ (60 ≤ r ∧ t.mcc = false) := by
    rintro ⟨least, wave⟩
    obtain small | ⟨mcc, -⟩ := plain
    · omega
    · exact absurd (mcc.symm.trans wave) nofun
  unfold Thread.stored
  rw [if_neg (by omega), if_neg notMask]

theorem stored_mask {t : Thread} {sp : BitVec 2} {e : Split} (wave : t.mcc = false) (held : t.level.split? sp = some e) {j : Nat}
    (hj : j < 3) (x : Word) : t.stored sp (60 + j) x = x &&& maskWord e.owned j := by
  unfold Thread.stored
  rw [if_neg (by omega), if_pos ⟨by omega, wave⟩, held, Nat.add_sub_cancel_left]
  simp only [Option.map_some, Option.getD_some]

theorem rdS_mask {t : Thread} {sp : BitVec 2} {e : Split} (stamp : Nat) (wave : t.mcc = false)
    (held : t.level.split? sp = some e) {j : Nat} (hj : j < 3) : t.rdS sp stamp (60 + j) = maskWord e.cur j := by
  unfold Thread.rdS
  rw [if_neg (by omega), if_pos ⟨by omega, by rw [wave]; rfl⟩, held, Nat.add_sub_cancel_left]
  simp only [Option.map_some, Option.getD_some]

/-! ### A word whose results land (R77, R79) -/

theorem flight?_modFlight {s : State} {id : Nat} {f : Flight} {g : Flight → Flight} (keeps : ∀ x, (g x).id = x.id)
    (found : s.flight? id = some f) : (s.modFlight id g).flight? id = some (g f) := by
  have same : (fun x : Flight => x.id == id) ∘ (fun x => if (x.id == id) = true then g x else x) = fun x => x.id == id :=
    funext fun x => by
      simp only [Function.comp_apply]
      split
      · rw [keeps]
      · rfl
  have mine : (f.id == id) = true := List.find?_some (p := fun x : Flight => x.id == id) found
  unfold State.flight? at *
  unfold State.modFlight
  rw [List.find?_map, same, found, Option.map_some, if_pos mine]

/-- All results of a word have reached its thread; nothing else of the threads or the memory has changed. -/
structure Landed (s t : State) (f : Flight) : Prop where
  mem : t.mem = s.mem
  stamp : t.stamp = s.stamp
  ctx : t.ctx = s.ctx
  thr : t.thr = landAll s.thr s.stamp f f.ready
  threads : (∀ u ∈ s.threads, u.key ≠ f.key) → t.threads = s.threads

variable {s : State} {f : Flight} {lanes : Mask}

/-- The mask names a result's lane, and its register is one of the eight that a return can name. -/
def Named (lanes : Mask) (f : Flight) : Prop := ∀ x ∈ f.ready, lanes.getLsbD x.1 = true ∧ x.2.1 < 8

theorem Named.bits (all : Named lanes f) : ∀ x ∈ f.ready, (lanes.getLsbD x.1 && (-1 : BitVec 8).getLsbD x.2.1) = true :=
  fun x hx => by
    obtain ⟨lane, reg⟩ := all x hx
    rw [lane, Bool.true_and, show (-1 : BitVec 8) = BitVec.allOnes 8 from rfl, BitVec.getLsbD_allOnes]
    exact decide_eq_true reg

theorem landReady_landed (found : s.flight? f.id = some f) (all : Named lanes f) (live : s.live = true)
    (key : s.thr.key = f.key) : Landed s (s.landReady f.id lanes (-1)) f := by
  have now : f.ready.filter (fun (l, r, _) => lanes.getLsbD l && (-1 : BitVec 8).getLsbD r) = f.ready :=
    List.filter_eq_self.mpr all.bits
  unfold State.landReady
  rw [found]
  dsimp only
  rw [now]
  refine ⟨rfl, rfl, rfl, ?_, fun others => ?_⟩
  · simp only [State.sweepFlights, State.modFlight, State.modThread, live, key, beq_self_eq_true, Bool.and_self, if_true]
    rfl
  · refine (List.map_congr_left (g := id) fun u hu => ?_).trans (List.map_id _)
    simp [others u hu]

/-- A word whose results have all landed is in flight no more. -/
theorem landReady_gone (found : s.flight? f.id = some f) (todo : f.todo = []) (bad : f.bad = []) (denied : f.denied = [])
    (all : Named lanes f) (alone : ∀ g ∈ s.flights, g.id = f.id → g = f) :
    (s.landReady f.id lanes (-1)).flight? f.id = none := by
  have left : f.ready.filter (fun (l, r, _) => !(lanes.getLsbD l && (-1 : BitVec 8).getLsbD r)) = [] :=
    List.filter_eq_nil_iff.mpr fun x hx => by simpa using all.bits x hx
  unfold State.landReady
  rw [found]
  refine List.find?_eq_none.mpr fun g hg same => ?_
  obtain ⟨hg, undone⟩ := List.mem_filter.mp hg
  obtain ⟨g', hg', rfl⟩ := List.mem_map.mp hg
  by_cases mine : g'.id = f.id
  · obtain rfl := alone g' hg' mine
    simp only [beq_self_eq_true, if_true, Flight.done, todo, bad, denied, left] at undone
    exact absurd undone (by decide)
  · simp [mine] at same

/-- A word that has nothing more to perform and met no poison lands its results. -/
theorem landFlight_eq (found : s.flight? f.id = some f) (todo : f.todo = []) (bad : f.bad = [])
    (plain : f.work.isRay = false) : s.landFlight f.id lanes (-1) = s.landReady f.id lanes (-1) := by
  have settled : s.settleFlight f.id = s := by
    unfold State.settleFlight
    simp [found, bad]
  have writable : s.writable f = true := by
    unfold State.writable
    split <;> simp [todo, bad]
  unfold State.landFlight
  simp [found, plain, settled, writable]

/-! ### What landed results leave in the registers -/

/-- The scalar results of a word in its thread's registers and mask words. -/
structure ScalarLanded (s t : State) (f : Flight) (rs : List (Nat × Nat × Word)) : Prop where
  rest : t.thr = { s.thr with s := t.thr.s, srel := t.thr.srel, level := t.thr.level }
  named : ∀ x ∈ rs, (f.dst + x.2.1 < 60 ∨ s.thr.mcc = true ∧ f.dst + x.2.1 < 63) → seesS t (f.dst + x.2.1) = x.2.2
  other : ∀ r, r < 64 → (r < 60 ∨ r = 63 ∨ s.thr.mcc = true) → (∀ x ∈ rs, f.dst + x.2.1 ≠ r) → seesS t r = seesS s r
  zero : seesS t 63 = 0
  level : s.thr.level.split? f.sp = none ∨ s.thr.mcc = true → t.thr.level = s.thr.level
  masks : s.thr.mcc = false → ∀ e, s.thr.level.split? f.sp = some e → ∃ c : Mask,
    t.thr.level = s.thr.level.setSplit f.sp (some { e with cur := c }) ∧ ∀ j, j < 3 →
      (∀ x ∈ rs, f.dst + x.2.1 = 60 + j → maskWord c j = x.2.2 &&& maskWord e.owned j) ∧
      ((∀ x ∈ rs, f.dst + x.2.1 ≠ 60 + j) → maskWord c j = maskWord e.cur j)

theorem Landed.scalar {t : State} (h : Landed s t f) (scalar : f.scalar = true) (level : f.inBase = false)
    (inside : ∀ x ∈ f.ready, f.dst + x.2.1 < 64) (once : (f.ready.map (fun x => x.2.1)).Nodup) :
    ScalarLanded s t f f.ready := by
  have wrote : WroteS s.thr t.thr f.sp := h.thr ▸ landAll_wroteS s.stamp scalar level f.ready
  have reads (r : Nat) (plain : r < 60 ∨ r = 63 ∨ s.thr.mcc = true) : seesS t r = t.thr.rdS f.sp s.stamp r := by
    unfold seesS
    rw [h.stamp]
    exact rdS_any_split t.thr _ _ _ (wrote.mcc_eq ▸ plain)
  have named (x) (hx : x ∈ f.ready) : t.thr.rdS f.sp s.stamp (f.dst + x.2.1) = s.thr.stored f.sp (f.dst + x.2.1) x.2.2 :=
    h.thr ▸ landAll_rdS_named s.stamp scalar level inside once hx
  have other (r : Nat) (hr : r < 64) (apart : ∀ x ∈ f.ready, f.dst + x.2.1 ≠ r) :
      t.thr.rdS f.sp s.stamp r = s.thr.rdS f.sp s.stamp r :=
    h.thr ▸ landAll_rdS_other s.stamp scalar level inside hr apart
  refine ⟨wrote.rest, fun x hx plain => ?_, fun r hr plain apart => ?_, rfl, wrote.level_eq, fun wave e held => ?_⟩
  · rw [reads _ (plain.imp_right fun mcc => .inr mcc.1), named x hx, stored_plain _ plain]
  · rw [reads r plain, other r hr apart]
    exact rdS_any_split s.thr _ _ _ plain
  · obtain ⟨c, moved, words⟩ := wrote.masks s.stamp wave held
    refine ⟨c, moved, fun j hj => ⟨fun x hx at_ => ?_, fun apart => ?_⟩⟩
    · rw [words j hj, ← at_, named x hx, at_, stored_mask wave held hj]
    · rw [words j hj, other _ (by omega) apart, rdS_mask _ wave held hj]

/-- The vector results of a word in its thread's registers. -/
structure VectorLanded (s t : State) (f : Flight) (rs : List (Nat × Nat × Word)) : Prop where
  rest : WroteV s.thr t.thr
  named : ∀ x ∈ rs, seesV t (f.dst + x.2.1) x.1 = x.2.2
  other : ∀ r i, r < 64 → i < 96 → (∀ x ∈ rs, ¬ (x.1 = i ∧ f.dst + x.2.1 = r)) → seesV t r i = seesV s r i

theorem Landed.vector {t : State} (h : Landed s t f) (vector : f.scalar = false)
    (inside : ∀ x ∈ f.ready, x.1 < 96 ∧ f.dst + x.2.1 < 64) (once : (f.ready.map (fun x => (x.1, x.2.1))).Nodup) :
    VectorLanded s t f f.ready := by
  refine ⟨h.thr ▸ landAll_wroteV s.stamp vector f.ready, fun x hx => ?_, fun r i hr hi apart => ?_⟩
  · unfold seesV
    rw [h.stamp, h.thr]
    exact landAll_rdV_named s.stamp vector inside once hx
  · unfold seesV
    rw [h.stamp, h.thr]
    exact landAll_rdV_other s.stamp vector (fun x hx => (inside x hx).2) hr hi apart

theorem WroteV.registers {t u : Thread} (h : WroteV t u) : u.s = t.s ∧ u.srel = t.srel ∧ u.level = t.level := by
  unfold WroteV at h
  rw [h]
  exact ⟨rfl, rfl, rfl⟩

/-! ### Results that are known (R77, R79) -/

theorem allLanes_bit {i : Nat} (hi : i < 96) : allLanes.getLsbD i = true := by
  rw [show allLanes = BitVec.allOnes 96 from rfl, BitVec.getLsbD_allOnes]
  exact decide_eq_true hi

/-- The second part of O31: each known result reaches its register and lane, and no other. -/
theorem knownResultsLand (found : s.flight? f.id = some f) (work : f.work = .result) (level : f.inBase = false)
    (todo : f.todo = []) (bad : f.bad = []) (inside : ∀ x ∈ f.ready, x.1 < 96 ∧ x.2.1 < 8 ∧ f.dst + x.2.1 < 64)
    (once : (f.ready.map (fun x => (x.1, x.2.1))).Nodup) (live : s.live = true) (key : s.thr.key = f.key) :
    RanTo (exec (.longLatencyReturn f.id allLanes (-1)) s) (fun t => t.mem = s.mem ∧
      (f.scalar = false → VectorLanded s t f f.ready) ∧
      (f.scalar = true → (∀ x ∈ f.ready, x.1 = 0) → ScalarLanded s t f f.ready)) := by
  have named : Named allLanes f := fun x hx => ⟨allLanes_bit (inside x hx).1, (inside x hx).2.1⟩
  have landed := landReady_landed found named live key
  rw [← landFlight_eq found todo bad (by rw [work]; rfl)] at landed
  refine ⟨_, rfl, landed.mem, fun vector => ?_, fun scalar zeroes => ?_⟩
  · obtain ⟨rest, named, other⟩ := landed.vector vector (fun x hx => ⟨(inside x hx).1, (inside x hx).2.2⟩) once
    exact ⟨rest, named, other⟩
  · have regs : (f.ready.map (fun x => x.2.1)).Nodup := by
      refine List.Nodup.of_map (fun r => (0, r)) ?_
      rw [List.map_map]
      refine (List.map_congr_left fun x hx => ?_) ▸ once
      simp [zeroes x hx]
    obtain ⟨rest, named, other, zero, still, masks⟩ := landed.scalar scalar level (fun x hx => (inside x hx).2.2) regs
    exact ⟨rest, named, other, zero, still, masks⟩

end Sys2Proof
end

/-! ## Reading for a load -/

section
namespace Sys2Proof

open Machine

/-! ### Reading leaves memory, threads and words in flight (R136, R138, R171) -/

/-- Between `s` and `u` no memory, no thread and no word in flight has changed: a read moves lines between caches only. -/
structure CachesOnly (s u : State) : Prop where
  mem : u.mem = s.mem
  stamp : u.stamp = s.stamp
  ctx : u.ctx = s.ctx
  thr : u.thr = s.thr
  live : u.live = s.live
  threads : u.threads = s.threads
  flights : u.flights = s.flights

namespace CachesOnly

variable {s u w : State}

theorem refl (s : State) : CachesOnly s s := ⟨rfl, rfl, rfl, rfl, rfl, rfl, rfl⟩

theorem trans (h : CachesOnly s u) (g : CachesOnly u w) : CachesOnly s w :=
  ⟨g.mem.trans h.mem, g.stamp.trans h.stamp, g.ctx.trans h.ctx, g.thr.trans h.thr, g.live.trans h.live,
    g.threads.trans h.threads, g.flights.trans h.flights⟩

theorem modCluster (s : State) (n : Nat) (g : Cluster → Cluster) : CachesOnly s (s.modCluster n g) :=
  ⟨rfl, rfl, rfl, rfl, rfl, rfl, rfl⟩

theorem modCore (s : State) (n : Nat) (g : Core → Core) : CachesOnly s (s.modCore n g) := ⟨rfl, rfl, rfl, rfl, rfl, rfl, rfl⟩

theorem fillL1 (s : State) (n line : Nat) : CachesOnly s (s.fillL1 n line) :=
  ⟨rfl, rfl, rfl, rfl, rfl, rfl, rfl⟩

theorem dropScalar (s : State) (core pa n : Nat) : CachesOnly s (s.dropScalar core pa n) := modCore s core _

theorem l2Room (s : State) (e : Env) (line : Nat) : CachesOnly s (s.l2Room e line) := by
  unfold State.l2Room
  dsimp only
  split
  · exact ⟨rfl, rfl, rfl, rfl, rfl, rfl, rfl⟩
  · exact refl s

theorem touchL2 (s : State) (e : Env) (pa : Nat) (hint : BitVec 2) (far : Bool) : CachesOnly s (s.touchL2 e pa hint far) := by
  unfold State.touchL2
  dsimp only
  split
  · exact ⟨rfl, rfl, rfl, rfl, rfl, rfl, rfl⟩
  · exact (l2Room s e _).trans ⟨rfl, rfl, rfl, rfl, rfl, rfl, rfl⟩

end CachesOnly

/-! ### What stands at the home while the L2 makes room (R154, R166) -/

/-- The 256-byte line reads alike at the home in `s` and `u`, poison and check codes included. -/
structure SameLine (s u : State) (line : Nat) : Prop where
  bytes : ∀ x, x / 256 = line → u.homeByte x = s.homeByte x
  poison : u.poison = s.poison
  codes : u.codes = s.codes

theorem l2Victim_mem {ls : List L2Line} {v : L2Line} (victim : l2Victim ls = some v) : v ∈ ls := by
  induction ls generalizing v with
  | nil => exact absurd victim nofun
  | cons l ls ih =>
    unfold l2Victim at victim
    split at victim
    next w later =>
      split at victim
      · exact List.mem_cons.mpr (.inl (Option.some.inj victim).symm)
      · exact List.mem_cons_of_mem _ (Option.some.inj victim ▸ ih later)
    next => exact List.mem_cons.mpr (.inl (Option.some.inj victim).symm)

/-- Room in the L2 is made by evicting one of its lines, or none. -/
theorem l2Room_cases (s : State) (e : Env) (line : Nat) :
    s.l2Room e line = s ∨ ∃ v ∈ s.l2, s.l2Room e line = s.evictL2 v.line := by
  unfold State.l2Room
  dsimp only
  split
  next v victim =>
    refine .inr ⟨v, ?_, rfl⟩
    split at victim
    · exact List.mem_of_mem_filter (List.mem_of_mem_filter (l2Victim_mem victim))
    · split at victim
      · exact List.mem_of_mem_filter (l2Victim_mem victim)
      · exact absurd victim nofun
  next => exact .inl rfl

theorem homeByte_evictL2 (s : State) {line x : Nat} (other : x / 256 ≠ line) : (s.evictL2 line).homeByte x = s.homeByte x := by
  unfold State.homeByte State.evictL2
  dsimp only
  rw [List.find?_filter]
  refine congrArg (fun p => ((s.stale.find? p).map Prod.snd).getD (cellRead s.mem x)) (funext fun c => ?_)
  by_cases here : c.1 = x
  · simp [here, other]
  · simp [here]

/-- A line that the L2 takes in or touches stays as it was at its home. -/
theorem sameLine_touchL2 (s : State) (e : Env) (pa : Nat) (hint : BitVec 2) (far : Bool) :
    SameLine s (s.touchL2 e pa hint far) (pa / 256) := by
  unfold State.touchL2
  dsimp only
  split
  · exact ⟨fun _ _ => rfl, rfl, rfl⟩
  next absent =>
    obtain same | ⟨v, held, gone⟩ := l2Room_cases s e (pa / 256)
    · rw [same]
      exact ⟨fun _ _ => rfl, rfl, rfl⟩
    · have other : v.line ≠ pa / 256 := by simpa using List.find?_eq_none.mp absent v held
      rw [gone]
      exact ⟨fun x here => homeByte_evictL2 s (here ▸ other.symm), rfl, rfl⟩

namespace SameLine

variable {s u : State} {line pa n : Nat}

theorem homeRead_eq (h : SameLine s u line) (inside : ∀ x, pa ≤ x → x < pa + n → x / 256 = line) :
    u.homeRead pa n = s.homeRead pa n :=
  List.map_congr_left fun i hi =>
    h.bytes _ (inside _ (Nat.le_add_right pa i) (Nat.add_lt_add_left (List.mem_range.mp hi) pa))

theorem mismatch_eq (h : SameLine s u line) {sector : Nat} (inside : sector / 8 = line) :
    u.mismatch sector = s.mismatch sector := by
  unfold State.mismatch State.checkCode
  rw [h.codes, h.homeRead_eq fun x _ _ => by omega]

theorem poisoned_eq (h : SameLine s u line) (first : sectorOf pa / 8 = line) (last : sectorOf (pa + n - 1) / 8 = line) :
    u.poisoned pa n = s.poisoned pa n := by
  unfold State.poisoned
  rw [h.poison, h.codes]
  congr 2
  funext c
  by_cases range : sectorOf pa ≤ c.1 ∧ c.1 ≤ sectorOf (pa + n - 1)
  · rw [h.mismatch_eq (by omega)]
  · simp [range]

end SameLine

/-! ### The bytes of a load (R134, R136, R138) -/

/-- An aligned access of at most 16 bytes lies in one 256-byte line. -/
theorem aligned_line {pa n : Nat} (size : n ∈ [1, 2, 4, 8, 16]) (aligned : pa % n = 0) :
    0 < n ∧ pa % 256 + n ≤ 256 := by
  simp only [List.mem_cons, List.not_mem_nil, or_false] at size
  obtain rfl | rfl | rfl | rfl | rfl := size <;> omega

/-- The copy of the load's bytes in its cluster's L1, if it reads that. -/
def l1Copy (s : State) (core : Nat) (a : LaneAcc) (n : Nat) (evict : Bool) : Option (List Byte) :=
  let c := s.cluster (portCluster core)
  if a.page.uncached then none else if c.hasL1 && !evict then c.l1Read a.pa n else none

/-- A load's bytes: those of a copy, or, with none, those at the home, which are not poisoned. -/
def Bytes (s : State) (a : LaneAcc) (n : Nat) (copy : Option (List Byte)) (bs : List Byte) : Prop :=
  copy = some bs ∨ copy = none ∧ s.poisoned a.pa n = false ∧ bs = s.homeRead a.pa n

/-- What a read gave: the bytes, with nothing but caches changed. -/
def Gives (s : State) (r : State × Option (List Byte)) (bs : List Byte) : Prop := CachesOnly s r.1 ∧ r.2 = some bs

section reading

variable {s : State} {env : Env} {core n : Nat} {a : LaneAcc} {hint : BitVec 2} {evict : Bool} {bs : List Byte}

/-- At the home the read touches the L2 and takes the bytes, if they are not poisoned. -/
def readHome (s : State) (env : Env) (a : LaneAcc) (n : Nat) (hint : BitVec 2) : State × Option (List Byte) :=
  let s := s.touchL2 env a.pa hint (a.page.type == .far)
  if s.poisoned a.pa n then (s, none) else (s, some (s.homeRead a.pa n))

theorem readHome_gives (env : Env) (hint : BitVec 2) (size : n ∈ [1, 2, 4, 8, 16]) (aligned : a.pa % n = 0)
    (clean : s.poisoned a.pa n = false) : Gives s (readHome s env a n hint) (s.homeRead a.pa n) := by
  obtain ⟨some_, inLine⟩ := aligned_line size aligned
  have same := sameLine_touchL2 s env a.pa hint (a.page.type == .far)
  have poisoned := same.poisoned_eq (pa := a.pa) (n := n) (by unfold sectorOf; omega) (by unfold sectorOf; omega)
  have bytes := same.homeRead_eq (pa := a.pa) (n := n) fun x _ _ => by omega
  unfold readHome
  dsimp only
  rw [poisoned, clean, bytes]
  exact ⟨CachesOnly.touchL2 .., rfl⟩

/-- A read through the L1 takes a copy there, else reads at the home and fills the line. -/
def readL1 (s : State) (env : Env) (core : Nat) (a : LaneAcc) (n : Nat) (hint : BitVec 2) : State × Option (List Byte) :=
  match (s.cluster (portCluster core)).l1Read a.pa n with
  | some bs => (if hint = 3 then s.modCluster (portCluster core) (fun c => c.markNext (a.pa / 64)) else s, some bs)
  | none =>
    let (s, r) := readHome s env a n hint
    (if hint = 3 then s else s.fillL1 (portCluster core) (a.pa / 64), r)

theorem readThrough_eq (s : State) (env : Env) (core : Nat) (a : LaneAcc) (n : Nat) (hint : BitVec 2) (evict : Bool) :
    s.readThrough env core a n hint evict =
      if a.page.uncached || !(s.cluster (portCluster core)).hasL1 then readHome s env a n hint
      else readL1 (if evict then s.modCluster (portCluster core) (fun c => c.dropLine (a.pa / 64)) else s) env core a n hint :=
  rfl

theorem Gives.after {s u : State} {r : State × Option (List Byte)} {bs : List Byte} (h : CachesOnly s u) (g : Gives u r bs) :
    Gives s r bs := ⟨h.trans g.1, g.2⟩

theorem readL1_gives (env : Env) (hint : BitVec 2) (size : n ∈ [1, 2, 4, 8, 16]) (aligned : a.pa % n = 0)
    (bytes : Bytes s a n ((s.cluster (portCluster core)).l1Read a.pa n) bs) : Gives s (readL1 s env core a n hint) bs := by
  unfold readL1
  obtain copy | ⟨none_, clean, rfl⟩ := bytes
  · rw [copy]
    refine ⟨?_, rfl⟩
    dsimp only
    split
    · exact .modCluster ..
    · exact .refl s
  · obtain ⟨caches, read⟩ := readHome_gives env hint size aligned clean
    rw [none_]
    refine ⟨?_, read⟩
    dsimp only
    split
    · exact caches
    · exact caches.trans (.fillL1 ..)

theorem cluster_id (s : State) (n : Nat) : (s.cluster n).id = n := by
  unfold State.cluster
  cases found : s.clusters.find? (fun x => x.id == n) with
  | none => rfl
  | some c => exact beq_iff_eq.mp (List.find?_some (p := fun x : Cluster => x.id == n) found)

theorem cluster_modCluster (s : State) (n : Nat) {g : Cluster → Cluster} (keeps : (g (s.cluster n)).id = (s.cluster n).id) :
    (s.modCluster n g).cluster n = g (s.cluster n) := by
  unfold State.modCluster
  rw [State.cluster_setCluster, keeps, cluster_id, if_pos rfl]

theorem l1Read_dropLine (c : Cluster) (pa n : Nat) : (c.dropLine (pa / 64)).l1Read pa n = none := by
  have gone : (c.dropLine (pa / 64)).line? pa = none :=
    List.find?_eq_none.mpr fun l held => by simpa using (List.mem_filter.mp held).2
  unfold Cluster.l1Read
  rw [gone]

/-- A read through the L1 gives the copy there, else what stands at the home. -/
theorem readThrough_gives (env : Env) (hint : BitVec 2) (size : n ∈ [1, 2, 4, 8, 16]) (aligned : a.pa % n = 0)
    (bytes : Bytes s a n (l1Copy s core a n evict) bs) : Gives s (s.readThrough env core a n hint evict) bs := by
  rw [readThrough_eq]
  unfold l1Copy at bytes
  dsimp only at bytes
  have home (clean : s.poisoned a.pa n = false) : Gives s (readHome s env a n hint) (s.homeRead a.pa n) :=
    readHome_gives env hint size aligned clean
  by_cases around : (a.page.uncached || !(s.cluster (portCluster core)).hasL1) = true
  · rw [if_pos around]
    have none_ : (if a.page.uncached = true then none
        else if ((s.cluster (portCluster core)).hasL1 && !evict) = true then (s.cluster (portCluster core)).l1Read a.pa n
        else none) = none := by
      cases unc : a.page.uncached <;> simp_all
    rw [none_] at bytes
    obtain copy | ⟨-, clean, rfl⟩ := bytes
    · exact absurd copy nofun
    · exact home clean
  · rw [if_neg around]
    simp only [Bool.or_eq_true, Bool.not_eq_true', not_or, Bool.not_eq_true, Bool.not_eq_false] at around
    obtain ⟨cached, hasL1⟩ := around
    simp only [cached, hasL1, Bool.true_and, Bool.false_eq_true, if_false] at bytes
    cases evict with
    | false => exact readL1_gives env hint size aligned bytes
    | true =>
      rw [if_pos rfl]
      refine .after (CachesOnly.modCluster s (portCluster core) _) (readL1_gives env hint size aligned ?_)
      rw [cluster_modCluster s (g := fun c => c.dropLine (a.pa / 64)) _ rfl, l1Read_dropLine]
      exact bytes

theorem readVector_gives (env : Env) (hint : BitVec 2) (size : n ∈ [1, 2, 4, 8, 16]) (aligned : a.pa % n = 0)
    (bytes : Bytes s a n (l1Copy s core a n evict) bs) : Gives s (s.readVector env core a n hint evict) bs :=
  have ⟨caches, read⟩ := readThrough_gives env hint size aligned bytes
  ⟨caches.trans (.dropScalar ..), read⟩

/-- The copy of a scalar load's bytes in its core's scalar cache, if it reads that. -/
def scalarCopy (s : State) (core : Nat) (a : LaneAcc) (n : Nat) (evict : Bool) : Option (List Byte) :=
  if a.page.uncached || evict then none
  else ((s.coreOf core).scalar.find? (fun l => l.line == a.pa / 64)).map (fun l => (l.bytes.drop (a.pa % 64)).take n)

/-- With no copy in the scalar cache the line read through the L1 is kept there. -/
def readScalarMiss (s : State) (env : Env) (core : Nat) (a : LaneAcc) (n : Nat) (hint : BitVec 2) (evict : Bool) :
    State × Option (List Byte) :=
  let (s, r) := s.readThrough env core a n hint evict
  match r, s.lineThrough (portCluster core) (a.pa / 64) with
  | some _, some bs => (s.modCore core (fun c => c.keepScalar s.stamp ⟨a.pa / 64, bs⟩), r)
  | _, _ => (s, r)

theorem readScalarMiss_gives (env : Env) (hint : BitVec 2) (size : n ∈ [1, 2, 4, 8, 16]) (aligned : a.pa % n = 0)
    (bytes : Bytes s a n (l1Copy s core a n evict) bs) : Gives s (readScalarMiss s env core a n hint evict) bs := by
  obtain ⟨caches, read⟩ := readThrough_gives env hint size aligned bytes
  unfold readScalarMiss
  dsimp only
  split
  · exact ⟨caches.trans ⟨rfl, rfl, rfl, rfl, rfl, rfl, rfl⟩, read⟩
  · exact ⟨caches, read⟩

theorem readScalar_eq (s : State) (env : Env) (core : Nat) (a : LaneAcc) (n : Nat) (hint : BitVec 2) (evict : Bool) :
    s.readScalar env core a n hint evict =
      if a.page.uncached then s.readThrough env core a n hint evict
      else
        let s := if evict then s.dropScalar core a.pa n else s
        match (s.coreOf core).scalar.find? (fun l => l.line == a.pa / 64) with
        | some l => (s, some ((l.bytes.drop (a.pa % 64)).take n))
        | none => readScalarMiss s env core a n hint evict := by
  unfold State.readScalar readScalarMiss
  rfl

/-- The core that was put. -/
theorem coreOf_modCore (s : State) (n : Nat) (g : Core → Core) : (s.modCore n g).coreOf n = { g (s.coreOf n) with id := n } := by
  unfold State.modCore State.coreOf
  dsimp only
  rw [List.find?_cons_of_pos (by simp)]
  rfl

theorem dropScalar_absent (s : State) (core pa : Nat) (some_ : 0 < n) :
    ((s.dropScalar core pa n).coreOf core).scalar.find? (fun l => l.line == pa / 64) = none := by
  unfold State.dropScalar
  rw [coreOf_modCore]
  refine List.find?_eq_none.mpr fun l held here => ?_
  have out := (List.mem_filter.mp held).2
  have line : l.line = pa / 64 := beq_iff_eq.mp here
  simp only [line, Bool.not_eq_true', decide_eq_false_iff_not] at out
  omega

/-- A scalar read gives the copy in the scalar cache, else that in the L1, else what stands at the home. -/
theorem readScalar_gives (env : Env) (hint : BitVec 2) (size : n ∈ [1, 2, 4, 8, 16]) (aligned : a.pa % n = 0)
    (bytes : Bytes s a n ((scalarCopy s core a n evict).or (l1Copy s core a n evict)) bs) :
    Gives s (s.readScalar env core a n hint evict) bs := by
  rw [readScalar_eq]
  unfold scalarCopy at bytes
  cases cached : a.page.uncached with
  | true =>
    rw [cached, Bool.true_or, if_pos rfl, Option.none_or] at bytes
    exact readThrough_gives env hint size aligned bytes
  | false =>
    rw [cached, Bool.false_or] at bytes
    dsimp only
    rw [if_neg Bool.false_ne_true]
    cases evict with
    | true =>
      rw [if_pos rfl, dropScalar_absent s core a.pa (aligned_line size aligned).1]
      exact .after (CachesOnly.dropScalar s core a.pa n) (readScalarMiss_gives env hint size aligned bytes)
    | false =>
      rw [if_neg Bool.false_ne_true] at *
      cases held : (s.coreOf core).scalar.find? (fun l => l.line == a.pa / 64) with
      | some l =>
        rw [held] at bytes
        obtain copy | ⟨none_, -⟩ := bytes
        · exact ⟨.refl s, copy⟩
        · exact absurd none_ nofun
      | none =>
        rw [held] at bytes
        exact readScalarMiss_gives env hint size aligned bytes

end reading

end Sys2Proof
end

/-! ## Loads return their bytes -/

section
namespace Sys2Proof

open Machine

/-! ### The bytes that a load gets -/

section source

variable {s : State} {f : Flight} {a : LaneAcc} {n : Nat} {signed evict : Bool} {bs : List Byte}

/-- A load reads its core's scalar cache: a scalar form that goes under a core's port (R138, R150). -/
def readsScalar (s : State) (f : Flight) : Bool := f.scalar && decide (s.portOf f.key < 640)

/-- The copy that a load finds: a scalar form looks in the scalar cache first. -/
theorem heldCopy_eq (s : State) (f : Flight) (a : LaneAcc) (n : Nat) (evict : Bool) :
    heldCopy s f a n evict =
      (if readsScalar s f then scalarCopy s (s.portOf f.key) a n evict else none).or (l1Copy s (s.portOf f.key) a n evict) := by
  unfold heldCopy scalarCopy l1Copy readsScalar
  dsimp only
  cases a.page.uncached with
  | true => simp
  | false =>
    cases f.scalar && decide (s.portOf f.key < 640) with
    | false => simp
    | true =>
      cases evict with
      | true => simp
      | false => cases (s.coreOf (s.portOf f.key)).scalar.find? (fun l => l.line == a.pa / 64) <;> simp

theorem l1Read_length {c : Cluster} {pa : Nat} (read : c.l1Read pa n = some bs) : bs.length ≤ n := by
  unfold Cluster.l1Read at read
  split at read
  · dsimp only at read
    split at read
    · exact Option.some.inj read ▸ List.length_take_le ..
    · exact absurd read nofun
  · exact absurd read nofun

theorem l1Copy_length {core : Nat} (copy : l1Copy s core a n evict = some bs) : bs.length ≤ n := by
  unfold l1Copy at copy
  dsimp only at copy
  split at copy
  · exact absurd copy nofun
  · split at copy
    · exact l1Read_length copy
    · exact absurd copy nofun

theorem scalarCopy_length {core : Nat} (copy : scalarCopy s core a n evict = some bs) : bs.length ≤ n := by
  unfold scalarCopy at copy
  split at copy
  · exact absurd copy nofun
  · obtain ⟨l, -, rfl⟩ := Option.map_eq_some_iff.mp copy
    exact List.length_take_le ..

theorem bytes_length (bytes : Bytes s a n (heldCopy s f a n evict) bs) : bs.length ≤ n := by
  obtain copy | ⟨-, -, rfl⟩ := bytes
  · rw [heldCopy_eq, Option.or_eq_some_iff] at copy
    obtain scalar | ⟨-, l1⟩ := copy
    · split at scalar
      · exact scalarCopy_length scalar
      · exact absurd scalar nofun
    · exact l1Copy_length l1
  · exact (List.length_map ..).trans List.length_range |>.le

/-- The read of a load, through its core's scalar cache or past it. -/
def loadRead (s : State) (f : Flight) (a : LaneAcc) (n : Nat) (evict : Bool) : State × Option (List Byte) :=
  if readsScalar s f then s.readScalar (s.envOf f.key) (s.portOf f.key) a n f.hint evict
  else s.readVector (s.envOf f.key) (s.portOf f.key) a n f.hint evict

theorem loadRead_gives (size : n ∈ [1, 2, 4, 8, 16]) (aligned : a.pa % n = 0)
    (bytes : Bytes s a n (heldCopy s f a n evict) bs) : Gives s (loadRead s f a n evict) bs := by
  rw [heldCopy_eq] at bytes
  unfold loadRead
  split
  next scalar =>
    rw [if_pos scalar] at bytes
    exact readScalar_gives _ _ size aligned bytes
  next vector =>
    rw [if_neg vector, Option.none_or] at bytes
    exact readVector_gives _ _ size aligned bytes

/-- A load whose turn it is, none of its thread's writes forwarding to it, performs its read. -/
theorem loadLane_read (work : f.work = .load n signed f.scalar) (turn : Ready s f a true)
    (ordered : a.page.uncached = true → s.behindStore f a = false)
    (free : a.page.uncached = true ∨ s.ownWrites f a.pa n = []) (type : a.page.type ≠ .cmp)
    (gives : Gives s (loadRead s f a n evict) bs) :
    s.loadLane f a evict = (loadRead s f a n evict).1.performed f.id a.lane (loadVals n signed bs) := by
  obtain ⟨-, -, -, wait, -, behind, reaches⟩ := turn
  have clear : (a.page.uncached && s.behindStore f a) = false := by
    cases unc : a.page.uncached with
    | true => exact ordered unc
    | false => rfl
  have none_ : (if a.page.uncached = true then none else (s.ownWrites f a.pa n).getLast?) = none := by
    obtain unc | empty := free
    · exact if_pos unc
    · rw [empty]
      exact ite_self _
  simp only [work, Work.size] at reaches
  unfold loadRead readsScalar at *
  unfold State.loadLane
  simp only [work, Work.size, wait, behind, reaches, clear, none_, type, if_false, Option.isSome_none, Bool.or_self,
    Bool.not_true, Bool.false_eq_true, gives.2]

theorem mapM_eq_some_map {α β : Type} {g : α → Option β} {k : α → β} {l : List α} (each : ∀ x ∈ l, g x = some (k x)) :
    l.mapM g = some (l.map k) := by
  induction l with
  | nil => rfl
  | cons x l ih =>
    rw [List.forall_mem_cons] at each
    rw [List.mapM_cons, each.1, ih each.2]
    rfl

/-- The write that a load is forwarded from holds its bytes. -/
theorem forward_eq {e : WqEntry} (length : bs.length = n)
    (holds : ∀ i x, bs[i]? = some x →
      ∃ o, 32 * e.sector + o = a.pa + i ∧ e.bytes.find? (fun y => y.1 == o) = some (o, x)) :
    e.forward a.pa n = some bs := by
  have byte (i : Nat) (hi : i ∈ List.range n) :
      (e.bytes.find? (fun (o, _) => 32 * e.sector + o == a.pa + i)).map Prod.snd = some (bs[i]?.getD 0) := by
    rw [List.mem_range, ← length] at hi
    obtain ⟨o, at_, found⟩ := holds i bs[i] (List.getElem?_eq_getElem hi)
    have same : (fun y : Nat × Byte => 32 * e.sector + y.1 == a.pa + i) = fun y => y.1 == o := funext fun y => by
      rw [Bool.eq_iff_iff, beq_iff_eq, beq_iff_eq]
      omega
    rw [List.getElem?_eq_getElem hi]
    exact (congrArg (fun p => (e.bytes.find? p).map Prod.snd) same).trans (congrArg (Option.map Prod.snd) found)
  refine (mapM_eq_some_map byte).trans (congrArg some (List.ext_getElem? fun i => ?_))
  rw [List.getElem?_map, ← length]
  by_cases hi : i < bs.length
  · simp [hi]
  · simp [hi]

theorem loadLane_forward {e : WqEntry} (work : f.work = .load n signed f.scalar) (turn : Ready s f a true)
    (cached : a.page.uncached = false) (youngest : (s.ownWrites f a.pa n).getLast? = some e) (queued : e.stage = .queued)
    (forward : e.forward a.pa n = some bs) :
    s.loadLane f a evict = s.performed f.id a.lane (loadVals n signed bs) := by
  obtain ⟨-, -, -, wait, -, behind, reaches⟩ := turn
  simp only [work, Work.size] at reaches
  have forwards : s.forwards e a.pa n = true := by
    unfold State.forwards
    rw [queued]
    rfl
  unfold State.loadLane
  simp only [work, Work.size, wait, behind, reaches, cached, youngest, forwards, forward, if_false, Option.isSome_none,
    Bool.or_self, Bool.not_true, Bool.false_eq_true, Bool.false_and]

end source

/-! ### The registers that a load writes -/

theorem loadVals_eq {n : Nat} (signed : Bool) {bs : List Byte} (size : n ∈ [1, 2, 4, 8, 16]) (length : bs.length ≤ n) :
    loadVals n signed bs = (List.range (max 1 (n / 4))).map (loaded n signed bs) := by
  simp only [List.mem_cons, List.not_mem_nil, or_false] at size
  have whole (few : bs.length ≤ 4) : bs.take 4 = bs := List.take_of_length_le few
  obtain rfl | rfl | rfl | rfl | rfl := size
  · simp [loadVals, loaded, whole (by omega)]
  · simp [loadVals, loaded, whole (by omega)]
  all_goals simp [loadVals, loaded, wordAt]

/-- The results that a load's lane has ready. -/
def loadReady (f : Flight) (a : LaneAcc) (n : Nat) (signed : Bool) (bs : List Byte) : List (Nat × Nat × Word) :=
  (List.range f.count).map (fun i => (a.lane, i, loaded n signed bs i))

section ready

variable {f : Flight} {a : LaneAcc} {n r : Nat} {signed : Bool} {bs : List Byte}

theorem mem_loadReady {x : Nat × Nat × Word} :
    x ∈ loadReady f a n signed bs ↔ ∃ i < f.count, (a.lane, i, loaded n signed bs i) = x := by
  simp only [loadReady, List.mem_map, List.mem_range]

theorem mem_loadReady_of_range (range : f.dst ≤ r ∧ r < f.dst + f.count) :
    (a.lane, r - f.dst, loaded n signed bs (r - f.dst)) ∈ loadReady f a n signed bs :=
  mem_loadReady.mpr ⟨r - f.dst, by omega, rfl⟩

theorem loadReady_apart (range : ¬ (f.dst ≤ r ∧ r < f.dst + f.count)) :
    ∀ x ∈ loadReady f a n signed bs, f.dst + x.2.1 ≠ r := fun x hx => by
  obtain ⟨i, hi, rfl⟩ := mem_loadReady.mp hx
  dsimp only
  omega

theorem loadReady_regs_nodup : ((loadReady f a n signed bs).map (fun x => x.2.1)).Nodup := by
  unfold loadReady
  rw [List.map_map]
  exact List.nodup_range.map fun _ _ same => same

theorem loadReady_nodup : ((loadReady f a n signed bs).map (fun x => (x.1, x.2.1))).Nodup := by
  unfold loadReady
  rw [List.map_map]
  exact List.nodup_range.map fun _ _ same => (Prod.mk.inj same).2

end ready

/-! ### A load whose last lane returns -/

/-- What a load leaves in the registers of its thread. -/
structure LoadLands (s t : State) (f : Flight) (a : LaneAcc) (n : Nat) (signed : Bool) (bs : List Byte) : Prop where
  rest : t.thr = { s.thr with s := t.thr.s, srel := t.thr.srel, v := t.thr.v, vtag := t.thr.vtag, vrel := t.thr.vrel
                              level := t.thr.level }
  scalars : ∀ r, r < 64 → (r < 60 ∨ r = 63 ∨ s.thr.mcc = true) → seesS t r =
    if f.scalar = true ∧ r ≠ 63 ∧ f.dst ≤ r ∧ r < f.dst + f.count then loaded n signed bs (r - f.dst) else seesS s r
  level : s.thr.level.split? f.sp = none ∨ s.thr.mcc = true → t.thr.level = s.thr.level
  masks : s.thr.mcc = false → ∀ e, s.thr.level.split? f.sp = some e → ∃ c : Mask,
    t.thr.level = s.thr.level.setSplit f.sp (some { e with cur := c }) ∧
    ∀ j, j < 3 → maskWord c j = if f.scalar = true ∧ f.dst ≤ 60 + j ∧ 60 + j < f.dst + f.count
      then loaded n signed bs (60 + j - f.dst) &&& maskWord e.owned j else maskWord e.cur j
  lanes : ∀ r i, r < 64 → i < 96 → seesV t r i =
    if f.scalar = false ∧ i = a.lane ∧ f.dst ≤ r ∧ r < f.dst + f.count then loaded n signed bs (r - f.dst) else seesV s r i

section lands

variable {s t : State} {f : Flight} {a : LaneAcc} {n : Nat} {signed : Bool} {bs : List Byte}

theorem ScalarLanded.loadLands (h : ScalarLanded s t f (loadReady f a n signed bs)) (stamp : t.stamp = s.stamp)
    (scalar : f.scalar = true) : LoadLands s t f a n signed bs := by
  refine ⟨h.rest.trans (by rw [h.rest]), fun r hr plain => ?_, h.level, fun wave e held => ?_, fun r i _ _ => ?_⟩
  · by_cases last : r = 63
    · rw [last, h.zero, if_neg fun named => named.2.1 rfl]
      rfl
    · by_cases range : f.dst ≤ r ∧ r < f.dst + f.count
      · have named := h.named _ (mem_loadReady_of_range range)
        rw [Nat.add_sub_cancel' range.1] at named
        rw [if_pos ⟨scalar, last, range⟩]
        exact named (plain.imp_right fun k => ⟨k.resolve_left last, by omega⟩)
      · rw [if_neg fun named => range named.2.2]
        exact h.other r hr plain (loadReady_apart range)
  · obtain ⟨c, moved, words⟩ := h.masks wave e held
    refine ⟨c, moved, fun j hj => ?_⟩
    obtain ⟨named, other⟩ := words j hj
    by_cases range : f.dst ≤ 60 + j ∧ 60 + j < f.dst + f.count
    · rw [if_pos ⟨scalar, range⟩]
      exact named _ (mem_loadReady_of_range range) (Nat.add_sub_cancel' range.1)
    · rw [if_neg fun named => range named.2]
      exact other (loadReady_apart range)
  · rw [if_neg fun named => Bool.false_ne_true (named.1.symm.trans scalar)]
    unfold seesV
    rw [stamp, h.rest]
    rfl

theorem VectorLanded.loadLands (h : VectorLanded s t f (loadReady f a n signed bs)) (stamp : t.stamp = s.stamp)
    (ctx : t.ctx = s.ctx) (vector : f.scalar = false) : LoadLands s t f a n signed bs := by
  have notScalar : f.scalar ≠ true := fun scalar => Bool.false_ne_true (vector.symm.trans scalar)
  obtain ⟨-, -, still⟩ := h.rest.registers
  refine ⟨?_, fun r _ _ => ?_, fun _ => still, fun _ e held => ⟨e.cur, ?_, fun j _ => ?_⟩, fun r i hr hi => ?_⟩
  · exact Eq.trans h.rest (by rw [h.rest])
  · rw [if_neg fun named => notScalar named.1]
    unfold seesS
    rw [stamp, ctx, h.rest]
    rfl
  · exact still.trans (Level.setSplit_self held).symm
  · rw [if_neg fun named => notScalar named.1]
  · by_cases here : i = a.lane ∧ f.dst ≤ r ∧ r < f.dst + f.count
    · obtain ⟨rfl, range⟩ := here
      have named := h.named _ (mem_loadReady_of_range range)
      rw [Nat.add_sub_cancel' range.1] at named
      rw [if_pos ⟨vector, rfl, range⟩]
      exact named
    · rw [if_neg fun named => here named.2]
      refine h.other r i hr hi fun x hx ⟨lane, reg⟩ => here ?_
      obtain ⟨k, hk, rfl⟩ := mem_loadReady.mp hx
      dsimp only at lane reg
      exact ⟨lane.symm, by omega, by omega⟩

end lands

/-- The word of a load whose last lane is performed, its results ready. -/
def laneDone (f : Flight) (a : LaneAcc) (n : Nat) (signed : Bool) (bs : List Byte) : Flight :=
  { f with todo := [], ready := loadReady f a n signed bs }

section returns

variable {s v : State} {f : Flight} {a : LaneAcc} {n : Nat} {signed evict : Bool} {lanes : Mask} {bs : List Byte}

/-- What a lane's performance makes of a word in flight. -/
theorem performed_flight (todo : f.todo = [a]) (ready : f.ready = []) (size : n ∈ [1, 2, 4, 8, 16])
    (count : f.count = max 1 (n / 4)) (length : bs.length ≤ n) :
    ({ f with
      todo := f.todo.filter (fun b => b.lane != a.lane)
      ready := if f.count = 0 then f.ready else
        f.ready ++ ((List.range (loadVals n signed bs).length).zip (loadVals n signed bs)).map (fun (i, v) => (a.lane, i, v)) } :
      Flight) = laneDone f a n signed bs := by
  have some_ : f.count ≠ 0 := by omega
  have vals : loadVals n signed bs = (List.range f.count).map (loaded n signed bs) := count ▸ loadVals_eq signed size length
  simp [laneDone, loadReady, todo, ready, some_, vals, List.zip_eq_zipWith, List.zipWith_map_right]

theorem performed_found (found : v.flight? f.id = some f) (todo : f.todo = [a]) (ready : f.ready = [])
    (size : n ∈ [1, 2, 4, 8, 16]) (count : f.count = max 1 (n / 4)) (length : bs.length ≤ n) :
    (v.performed f.id a.lane (loadVals n signed bs)).flight? f.id = some (laneDone f a n signed bs) := by
  unfold State.performed
  rw [flight?_modFlight ?_ found, performed_flight todo ready size count length]
  exact fun _ => rfl

theorem performed_alone (todo : f.todo = [a]) (ready : f.ready = []) (size : n ∈ [1, 2, 4, 8, 16])
    (count : f.count = max 1 (n / 4)) (length : bs.length ≤ n) (alone : ∀ g ∈ v.flights, g.id = f.id → g = f) :
    ∀ g ∈ (v.performed f.id a.lane (loadVals n signed bs)).flights, g.id = f.id → g = laneDone f a n signed bs := by
  intro g hg same
  obtain ⟨g', hg', rfl⟩ := List.mem_map.mp hg
  by_cases mine : g'.id = f.id
  · obtain rfl := alone g' hg' mine
    rw [if_pos (beq_self_eq_true _)]
    exact performed_flight todo ready size count length
  · simp [mine] at same

/-- The lanes of one request, of a word with one lane to go. -/
theorem mates_single (todo : f.todo = [a]) (named : lanes.getLsbD a.lane = true) : f.mates lanes = [a] := by
  unfold Flight.mates
  simp [todo, named]

theorem execLoadReturn_single (found : s.flight? f.id = some f) (todo : f.todo = [a]) (named : lanes.getLsbD a.lane = true) :
    exec (.loadReturn f.id lanes (-1) evict) s = .next ((s.loadLane f a evict).landFlight f.id lanes (-1)) := by
  have mates : ((s.flight? f.id).map (fun f => f.mates lanes)).getD [] = [a] := by
    rw [found]
    exact mates_single todo named
  show execLoadReturn f.id lanes (-1) evict s = _
  unfold execLoadReturn
  dsimp only
  rw [mates, List.foldl_cons, List.foldl_nil, found]

/-- The last lane of a load, once performed, lands in the registers of its thread. -/
theorem performed_lands (caches : CachesOnly s v) (found : s.flight? f.id = some f) (work : f.work = .load n signed f.scalar)
    (size : n ∈ [1, 2, 4, 8, 16]) (count : f.count = max 1 (n / 4)) (inside : f.dst + f.count ≤ 64) (level : f.inBase = false)
    (todo : f.todo = [a]) (ready : f.ready = []) (bad : f.bad = []) (denied : f.denied = []) (lane : a.lane < 96)
    (live : s.live = true) (key : s.thr.key = f.key) (named : lanes.getLsbD a.lane = true) (length : bs.length ≤ n)
    {t : State} (after : t = (v.performed f.id a.lane (loadVals n signed bs)).landFlight f.id lanes (-1)) :
    t.mem = s.mem ∧ ((∀ u ∈ s.threads, u.key ≠ f.key) → t.threads = s.threads) ∧ LoadLands s t f a n signed bs ∧
      ((∀ g ∈ s.flights, g.id = f.id → g = f) → t.flight? f.id = none) := by
  have few : f.count ≤ 8 := by
    simp only [List.mem_cons, List.not_mem_nil, or_false] at size
    omega
  have found' := performed_found (signed := signed) (v := v) (by rw [State.flight?, caches.flights]; exact found)
    todo ready size count length
  have all : Named lanes (laneDone f a n signed bs) := fun x hx => by
    obtain ⟨i, hi, rfl⟩ := mem_loadReady.mp hx
    exact ⟨named, by dsimp only; omega⟩
  have plain : (laneDone f a n signed bs).work.isRay = false := by
    show f.work.isRay = false
    rw [work]
    rfl
  have lands := landFlight_eq (f := laneDone f a n signed bs) (lanes := lanes) found' rfl bad plain
  have landed : Landed (v.performed f.id a.lane (loadVals n signed bs)) t (laneDone f a n signed bs) := by
    rw [after]
    exact lands ▸ landReady_landed (f := laneDone f a n signed bs) found' all (caches.live.trans live)
      ((congrArg Thread.key caches.thr).trans key)
  have fromHere : Landed s t (laneDone f a n signed bs) :=
    ⟨landed.mem.trans caches.mem, landed.stamp.trans caches.stamp, landed.ctx.trans caches.ctx,
      landed.thr.trans (congrArg₂ (fun u k => landAll u k (laneDone f a n signed bs) _) caches.thr caches.stamp),
      fun others => (landed.threads (caches.threads ▸ others)).trans caches.threads⟩
  refine ⟨fromHere.mem, fromHere.threads, ?_, fun alone => ?_⟩
  · have fits : ∀ x ∈ loadReady f a n signed bs, x.1 < 96 ∧ f.dst + x.2.1 < 64 := fun x hx => by
      obtain ⟨i, hi, rfl⟩ := mem_loadReady.mp hx
      exact ⟨lane, by dsimp only; omega⟩
    cases scalar : f.scalar with
    | true =>
      obtain ⟨rest, named, other, zero, still, masks⟩ :=
        fromHere.scalar scalar level (fun x hx => (fits x hx).2) loadReady_regs_nodup
      exact ScalarLanded.loadLands ⟨rest, named, other, zero, still, masks⟩ fromHere.stamp scalar
    | false =>
      obtain ⟨rest, named, other⟩ := fromHere.vector scalar fits loadReady_nodup
      exact VectorLanded.loadLands ⟨rest, named, other⟩ fromHere.stamp fromHere.ctx scalar
  · rw [after]
    exact lands ▸ landReady_gone (f := laneDone f a n signed bs) found' rfl bad denied all
      (performed_alone todo ready size count length (caches.flights ▸ alone))

end returns

/-- Settles O31: a load's lane takes its bytes from its thread's youngest overlapping write, else through the caches or at
the home, which the L2's making room leaves as it was; what lands changes the registers and lanes of its results only. -/
theorem loadsReturnTheirBytes : Obligations.LoadsReturnTheirBytes := by
  unfold Obligations.LoadsReturnTheirBytes
  refine ⟨fun s f a n signed evict lanes bs found work size count inside level todo ready bad denied turn aligned ordered live
    key named source => ?_, fun s f found work level todo bad _ inside once live key => ?_⟩
  · obtain ⟨v, caches, length, performs⟩ : ∃ v, CachesOnly s v ∧ bs.length ≤ n ∧
        s.loadLane f a evict = v.performed f.id a.lane (loadVals n signed bs) := by
      obtain ⟨free, type, bytes⟩ | ⟨cached, e, youngest, queued, length, holds⟩ := source
      · have gives := loadRead_gives size aligned bytes
        exact ⟨_, gives.1, bytes_length bytes, loadLane_read work turn ordered free type gives⟩
      · exact ⟨s, .refl s, length.le, loadLane_forward work turn cached youngest queued (forward_eq length holds)⟩
    refine ⟨_, execLoadReturn_single found todo named, ?_⟩
    obtain ⟨mem, threads, ⟨rest, scalars, still, masks, vectors⟩, gone⟩ := performed_lands caches found work size count inside
      level todo ready bad denied turn.2.1 live key named length (congrArg (State.landFlight · f.id lanes (-1)) performs)
    exact ⟨mem, threads, rest, scalars, still, masks, vectors, gone⟩
  · obtain ⟨t, runs, mem, vector, scalar⟩ := knownResultsLand found work level todo bad inside once live key
    refine ⟨t, runs, mem, fun isVector => ?_, fun isScalar zeroes => ?_⟩
    · obtain ⟨rest, named, other⟩ := vector isVector
      obtain ⟨regs, -, still⟩ := rest.registers
      exact ⟨regs, still, fun l r x hx => named _ hx, other⟩
    · obtain ⟨rest, named, other, zero, -, masks⟩ := scalar isScalar zeroes
      refine ⟨by rw [rest], fun r x hx => named _ hx, fun r hr plain => other r hr (plain.imp_right .inr), zero,
        fun wave e held => ?_⟩
      obtain ⟨c, moved, words⟩ := masks wave e held
      exact ⟨c, moved, fun j hj => ⟨fun r x hx => (words j hj).1 _ hx, (words j hj).2⟩⟩

end Sys2Proof
end

/-! ## The answers of WGENQ -/

section
namespace Sys2Proof

open Machine

/-! ### The splits that a word's results are owed to (R65, R77) -/

/-- A word whose results are known owes them to the splits for which it issued: those that BRS made from its split while it
was parked, too (R77). -/
theorem flyVectors_flights (s : State) (cls : Nat) (d : Reg) (count : Nat) {vals : List (Nat × Nat × Word)} (some_ : vals ≠ []) :
    ∃ f, (s.flyVectors cls d count vals).flights = s.flights ++ [f] ∧ f.splits = s.owedSplits := by
  have waits : (s.newFlight .result cls false d.toNat count 0 [] vals).done = false := by
    simp [State.newFlight, Flight.done, some_]
  refine ⟨{ s.newFlight .result cls false d.toNat count 0 [] vals with id := s.nextId }, ?_, rfl⟩
  unfold State.flyVectors State.fly
  rw [if_neg (ne_true_of_eq_false waits)]

/-! ### A node that is not there (R332) -/

theorem enqueueLane_unknown {s : State} {n : Nat} (unknown : s.node? s.thr.env.rcb n = none) (a : Reg) (l : Nat) :
    s.enqueueLane n a l = (s, 2) := by
  simp [State.enqueueLane, unknown]

/-- Each active lane is told that there is no such node. -/
theorem execWgenq_unknown {s : State} {n : Reg} (released : s.released s.thr.key = true) (active : s.active ≠ 0)
    (plain : s.thr.env.deterministic = false) (unknown : s.node? s.thr.env.rcb (s.rdS n).toNat = none) (d a : Reg) :
    exec (.wgenq d n a) s = .next (s.flyVectors 0 d 1 ((lanesIn s.active).map (fun l => (l, 0, 2)))) := by
  have enters : s.dsEnter true = some s := by simp [State.dsEnter, State.needsLadle, plain]
  have lanes (ls : List Nat) (acc : List (Nat × Nat × Word)) :
      ls.foldl (fun (p : State × List (Nat × Nat × Word)) l =>
          ((p.1.enqueueLane (s.rdS n).toNat a l).1, p.2 ++ [(l, 0, (p.1.enqueueLane (s.rdS n).toNat a l).2)])) (s, acc) =
        (s, acc ++ ls.map (fun l => (l, 0, 2))) := by
    induction ls generalizing acc with
    | nil => simp
    | cons l ls ih => simp [enqueueLane_unknown unknown, ih]
  show execWgenq d n a s = _
  unfold execWgenq
  rw [if_neg (by simp [released]), if_neg active, enters]
  simp only [lanes, List.nil_append]

/-! ### A WGENQ that parked in a group with BRS -/

/-- A wave whose first split BRS has divided: lanes 0 to 31 and lanes 32 to 95 (R65). -/
def dividedWave : Thread :=
  { Thread.start with
    level := ((Level.start (Split.start 0 0xFFFFFFFF)).setSplit 1 (some (Split.start 8 (allLanes &&& ~~~0xFFFFFFFF)))) }

/-- A WGENQ that stood in one group with the BRS, parked before it had its answer, and is tried again: it acts on the lanes
with which it issued, and its result is outstanding for both splits (R77). -/
def retriedWgenq : ParkedWord :=
  { at_ := ⟨0, 0⟩, gslot := 0, owed := some ⟨0, [(0, 1)], []⟩, splits := 3, pends := 0, base := none, spans := [], cap := none
    texels := [], lanes := allLanes, stage := 0, phase := 0, waits := [], go := false, id := 0, order := false, ds := false
    reads := false, writes := false }

/-- A part with that wave in focus, and no region, so no node. -/
def retrying : State :=
  { State.reset with live := true, thr := dividedWave, nextId := 1, ctx := { Ctx.idle with part := some retriedWgenq } }

theorem retrying_owedSplits : retrying.owedSplits = 3 := rfl

/-- Refutes O53: the answers of a WGENQ are said to be owed to the issuing split alone, and one that is tried again after BRS
has divided its split owes them to both (R65, R77). -/
theorem not_launchedWorkgroupsRunAndRetire : ¬ Obligations.LaunchedWorkgroupsRunAndRetire := by
  unfold Obligations.LaunchedWorkgroupsRunAndRetire
  rintro ⟨⟨-, wgenq, -⟩, -⟩
  have active : retrying.active ≠ 0 := by decide
  have released : retrying.released retrying.thr.key = true := by decide +kernel
  have plain : retrying.thr.env.deterministic = false := rfl
  have unknown : retrying.node? retrying.thr.env.rcb (retrying.rdS 0).toNat = none := rfl
  obtain ⟨-, answers⟩ := wgenq retrying 0 0 0 active
  obtain ⟨t, runs, u, f, rfl, rfl, -, -, splits, -⟩ := (answers released plain).1 unknown
  rw [execWgenq_unknown released active plain unknown] at runs
  obtain ⟨g, flights, owed⟩ := flyVectors_flights retrying 0 0 1 (vals := (lanesIn retrying.active).map (fun l => (l, 0, 2)))
    (by decide +kernel)
  have same := congrArg State.flights (Host.Outcome.next.inj runs)
  rw [flights] at same
  have : g = f := by simpa using same
  rw [this, retrying_owedSplits] at owed
  rw [owed] at splits
  exact absurd splits (by decide)

end Sys2Proof
end

/-! ## The rings of the clients (R389, R390) -/

section
namespace Sys2Proof

open Machine

/-! ### A ring that changes -/

@[simp] theorem client_id (s : State) (n : Nat) : (s.client n).id = n := by
  unfold State.client
  cases found : s.plat.clients.find? (fun c => c.id == n) with
  | none => rfl
  | some c => simpa using List.find?_some found

theorem client_modClient (s : State) (n : Nat) (f : Client → Client) (o : Nat) :
    (s.modClient n f).client o = if o = n then { f (s.client n) with id := n } else s.client o := by
  show ((_ :: s.plat.clients.filter (fun x => x.id != n)).find? (fun c => c.id == o)).getD _ = _
  rw [find_put Client.id { f (s.client n) with id := n } o]
  by_cases same : o = n
  · simp [same]
  · simp [same, Ne.symm same, State.client]

section
variable (s : State) (n : Nat) (f : Client → Client)

@[simp] theorem modClient_nextId : (s.modClient n f).nextId = s.nextId := rfl
@[simp] theorem modClient_thr : (s.modClient n f).thr = s.thr := rfl
@[simp] theorem modClient_mem : (s.modClient n f).mem = s.mem := rfl
@[simp] theorem modClient_images : (s.modClient n f).images = s.images := rfl
@[simp] theorem modClient_dispatches : (s.modClient n f).dispatches = s.dispatches := rfl
@[simp] theorem modClient_events : (s.modClient n f).events = s.events := rfl
@[simp] theorem modClient_region? (rcb : Nat) : (s.modClient n f).region? rcb = s.region? rcb := rfl
@[simp] theorem modClient_homeRead (pa k : Nat) : (s.modClient n f).homeRead pa k = s.homeRead pa k := rfl
@[simp] theorem modClient_pageAt (root va : Nat) : (s.modClient n f).pageAt root va = s.pageAt root va := rfl
@[simp] theorem modClient_doneOk (root done : Nat) : (s.modClient n f).doneOk root done = s.doneOk root done := rfl
@[simp] theorem modClient_openDispatches (rcb : Nat) : (s.modClient n f).openDispatches rcb = s.openDispatches rcb := rfl
@[simp] theorem modClient_imageBusy (i : Image) : (s.modClient n f).imageBusy i = s.imageBusy i := rfl
@[simp] theorem modClient_report (nonce : List Byte) : (s.modClient n f).report nonce = s.report nonce := rfl

theorem modClient_rcbChain (k rcb : Nat) (acc : List (Nat × List Byte)) :
    (s.modClient n f).rcbChain k rcb acc = s.rcbChain k rcb acc := by
  induction k generalizing rcb acc with
  | zero => rfl
  | succ k ih => simp only [State.rcbChain, modClient_homeRead, ih]

@[simp] theorem modClient_resolveEnv (rcb : Nat) : (s.modClient n f).resolveEnv rcb = s.resolveEnv rcb := by
  simp only [State.resolveEnv, modClient_rcbChain]

@[simp] theorem modClient_findKern (root kdesc : Nat) : (s.modClient n f).findKern root kdesc = s.findKern root kdesc := by
  simp only [State.findKern, modClient_images, modClient_resolveEnv]

@[simp] theorem modClient_domainsOf (c : Client) : (s.modClient n f).domainsOf c = s.domainsOf c := by
  simp only [State.domainsOf, modClient_resolveEnv]

end

/-- Nothing but the clients' rings differs. -/
def RingsOnly (s t : State) : Prop := t = { s with plat := { s.plat with clients := t.plat.clients } }

theorem RingsOnly.refl (s : State) : RingsOnly s s := rfl

theorem RingsOnly.modClient {s t : State} (h : RingsOnly s t) (n : Nat) (f : Client → Client) : RingsOnly s (t.modClient n f) := by
  unfold RingsOnly at h ⊢
  rw [h]
  rfl

theorem RingsOnly.nextId {s t : State} (h : RingsOnly s t) : t.nextId = s.nextId := by rw [h]
theorem RingsOnly.thr {s t : State} (h : RingsOnly s t) : t.thr = s.thr := by rw [h]
theorem RingsOnly.mem {s t : State} (h : RingsOnly s t) : t.mem = s.mem := by rw [h]
theorem RingsOnly.images {s t : State} (h : RingsOnly s t) : t.images = s.images := by rw [h]
theorem RingsOnly.dispatches {s t : State} (h : RingsOnly s t) : t.dispatches = s.dispatches := by rw [h]

theorem RingsOnly.answer {s t : State} (h : RingsOnly s t) (n : Nat) (r : Response) : RingsOnly s (t.answer n r) :=
  h.modClient n _

theorem RingsOnly.noteRegion {s t : State} (h : RingsOnly s t) (n rcb : Nat) : RingsOnly s (t.noteRegion n rcb) :=
  h.modClient n _

theorem RingsOnly.respond {s t : State} (h : RingsOnly s t) (rq : HostReq) (status : Word) (value : BitVec 64) :
    RingsOnly s (t.respond rq status value) := by
  unfold State.respond
  exact h.answer _ _

/-! ### Reading a request -/

/-- The client's next request has been read (R390). -/
def taken (s : State) (rq : HostReq) : State := s.modClient rq.client.toNat (fun c => { c with read := c.read + 1 })

theorem taken_rings (s : State) (rq : HostReq) : RingsOnly s (taken s rq) := (RingsOnly.refl s).modClient _ _

theorem asks_iff {s : State} {rq : HostReq} {a : Ask} : s.asks rq a = true ↔ RequestHeard s rq a := by
  simp [State.asks, RequestHeard, and_assoc]

theorem serves_iff {s : State} {rq : HostReq} {a : Ask} : s.serves rq a = true ↔ RequestServed s rq a := by
  simp only [State.serves, Bool.and_eq_true, asks_iff, Option.isSome_iff_ne_none, RequestServed]
  tauto

/-- Nothing has been announced, so nothing is read. -/
theorem asks_silent {s : State} {rq : HostReq} (silent : (s.client rq.client.toNat).bell ≤ (s.client rq.client.toNat).read)
    (a : Ask) : s.asks rq a = false := by
  simp [State.asks, Nat.not_lt.mpr silent]

theorem request_silent {s : State} {rq : HostReq} {a : Ask} (silent : s.asks rq a = false) (f : State → State) :
    s.request rq a f = s := by
  simp [State.request, silent]

theorem taken_runs {s : State} (runs : s.plat.firmware ≠ none) (rq : HostReq) : (taken s rq).plat.firmware.isNone = false :=
  Option.isNone_eq_false_iff.mpr (Option.isSome_iff_ne_none.mpr runs)

theorem request_served {s : State} {rq : HostReq} {a : Ask} (h : RequestServed s rq a) (f : State → State) :
    s.request rq a f = f (taken s rq) := by
  obtain ⟨heard, clean, runs⟩ := h
  simp only [State.request, asks_iff.mpr heard, clean]
  exact if_neg (ne_true_of_eq_false (taken_runs runs rq))

theorem request_without_firmware {s : State} {rq : HostReq} {a : Ask} (heard : RequestHeard s rq a)
    (none_ : s.plat.firmware = none) (f : State → State) : s.request rq a f = (taken s rq).respond rq 0xFFFFFFFE 0 := by
  have none' : (taken s rq).plat.firmware.isNone = true := by simp [taken, State.modClient, none_]
  simp only [State.request, asks_iff.mpr heard]
  exact if_pos none'

theorem request_unclean {s : State} {rq : HostReq} {a : Ask} (heard : RequestHeard s rq a)
    (runs : s.plat.firmware ≠ none) (set_ : a.clean (s.nextEntry rq) = false) (f : State → State) :
    s.request rq a f = (taken s rq).respond rq 0xFFFFFFFD 0 := by
  simp only [State.request, asks_iff.mpr heard, set_]
  exact if_neg (ne_true_of_eq_false (taken_runs runs rq))

/-! ### Answering a request -/

/-- A ring that already has the number. -/
theorem renumber {c : Client} {n : Nat} (h : c.id = n) : { c with id := n } = c := by
  subst h
  rfl

/-- In `u` the client's next request has been read, `f` says what else has changed in its ring, and no other ring differs. -/
structure Serving (s u : State) (rq : HostReq) (f : Client → Client := id) : Prop where
  own : u.client rq.client.toNat =
    { f (s.client rq.client.toNat) with read := (f (s.client rq.client.toNat)).read + 1 }
  others : ∀ o, o ≠ rq.client.toNat → u.client o = s.client o

namespace Serving

variable {s u : State} {rq : HostReq} {f : Client → Client}

theorem start (s : State) (rq : HostReq) : Serving s (taken s rq) rq := by
  refine ⟨?_, fun o other => ?_⟩
  · rw [taken, client_modClient, if_pos rfl]
    exact renumber (client_id s _)
  · rw [taken, client_modClient, if_neg other]

theorem number (h : Serving s u rq f) : (f (s.client rq.client.toNat)).id = rq.client.toNat := by
  have := client_id u rq.client.toNat
  rwa [h.own] at this

/-- What leaves the rings leaves this. -/
theorem keep (h : Serving s u rq f) {v : State} (rings : v.plat = u.plat) : Serving s v rq f := by
  have same (o : Nat) : v.client o = u.client o := by unfold State.client; rw [rings]
  exact ⟨(same _).trans h.own, fun o other => (same o).trans (h.others o other)⟩

/-- The ring changes further, in what is neither its number nor the count of requests read. -/
theorem modClient (h : Serving s u rq f) {g : Client → Client} (number : ∀ c, (g c).id = c.id)
    (read : ∀ c n, g { c with read := n } = { g c with read := n }) (count : ∀ c, (g c).read = c.read) :
    Serving s (u.modClient rq.client.toNat g) rq (fun c => g (f c)) := by
  refine ⟨?_, fun o other => ?_⟩
  · rw [client_modClient, if_pos rfl, h.own, read, count]
    exact renumber ((number _).trans h.number)
  · rw [client_modClient, if_neg other, h.others o other]

theorem noteRegion (h : Serving s u rq f) (rcb : Nat) :
    Serving s (u.noteRegion rq.client.toNat rcb) rq (fun c => noted rcb (f c)) := by
  have same : u.noteRegion rq.client.toNat rcb = u.modClient rq.client.toNat (noted rcb) := by
    simp only [State.noteRegion, List.contains_iff_mem]
    rfl
  rw [same]
  exact h.modClient (fun _ => rfl) (fun _ _ => rfl) (fun _ => rfl)

theorem answer (h : Serving s u rq f) (r : Response) : Replied s (u.answer rq.client.toNat r) rq r f := by
  refine ⟨?_, fun o other => ?_⟩
  · rw [State.answer, client_modClient, if_pos rfl, h.own]
    exact renumber h.number
  · rw [State.answer, client_modClient, if_neg other, h.others o other]

theorem respond (h : Serving s u rq f) (status : Word) (value : BitVec 64) :
    Replied s (u.respond rq status value) rq (plain rq status value) f := h.answer _

end Serving

/-! ### What is done with a request that is not served -/

/-- An event reads the request `a`: where it is not served, it does no more than that (R390, R393). -/
def Hears (s : State) (rq : HostReq) (i : Instr) (a : Ask) : Prop :=
  s.serves rq a = false → ∃ f, exec i s = .next (s.request rq a f)

section
variable (s : State) (rq : HostReq) (rcb : Nat)

theorem hostLoad_hears (b : List Byte) (sig : Bool) (plan : LoadPlan) : Hears s rq (.hostLoad rq rcb b sig plan) (.load b sig) := by
  intro unserved
  show ∃ f, execHostLoad rq rcb b sig plan s = _
  unfold execHostLoad
  split <;> simp only [unserved, Bool.false_eq_true, if_false, Bool.false_and] <;> exact ⟨_, rfl⟩

theorem hostUnload_hears (n : Nat) (ents : List (Nat × BitVec 64)) : Hears s rq (.hostUnload rq n ents) (.unload n) :=
  fun _ => ⟨_, rfl⟩

theorem hostLaunch_hears (b : List Byte) : Hears s rq (.hostLaunch rq rcb b) (.launch b) := by
  intro unserved
  show ∃ f, execHostLaunch rq rcb b s = _
  simp only [execHostLaunch, unserved, Bool.false_eq_true, if_false, Bool.false_and]
  exact ⟨_, rfl⟩

theorem hostAlloc_hears (a : AllocArgs) (va : Nat) (ents : List (Nat × BitVec 64)) :
    Hears s rq (.hostAlloc rq rcb a va ents) (.alloc a) := by
  intro unserved
  show ∃ f, execHostAlloc rq rcb a va ents s = _
  unfold execHostAlloc
  split
  · exact ⟨_, rfl⟩
  · split
    · exact ⟨_, rfl⟩
    · simp only [unserved, Bool.false_eq_true, if_false, Bool.false_and]
      exact ⟨_, rfl⟩

theorem hostFree_hears (va n : Nat) (ents : List (Nat × BitVec 64)) : Hears s rq (.hostFree rq rcb va n ents) (.free va n) := by
  intro unserved
  show ∃ f, execHostFree rq rcb va n ents s = _
  unfold execHostFree
  dsimp only
  split
  · exact ⟨_, rfl⟩
  · simp only [unserved, Bool.false_eq_true, if_false, Bool.false_and]
    exact ⟨_, rfl⟩

/-- COPY waits for the whole of the host's buffer. -/
theorem hostCopy_hears {z : CopyArgs} (whole : z.dir = 0 → z.data.length = z.bytes) :
    Hears s rq (.hostCopy rq rcb z) (.copy z) := by
  intro unserved
  show ∃ f, execHostCopy rq rcb z s = _
  unfold execHostCopy
  dsimp only
  split
  · exact ⟨_, rfl⟩
  · split
    next zero =>
      rw [if_neg (not_not_intro (whole zero))]
      split
      · simp only [unserved, Bool.false_eq_true, if_false]
        exact ⟨_, rfl⟩
      · exact ⟨_, rfl⟩
    · split
      · exact ⟨_, rfl⟩
      · exact ⟨_, rfl⟩
      · exact ⟨_, rfl⟩
      · simp only [unserved, Bool.false_eq_true, if_false]
        exact ⟨_, rfl⟩

theorem hostAttest_hears (nonce : List Byte) : Hears s rq (.hostAttest rq nonce) (.attest nonce) := fun _ => ⟨_, rfl⟩

theorem hostEvents_hears (capacity : Nat) : Hears s rq (.hostEvents rq capacity) (.events capacity) := fun _ => ⟨_, rfl⟩

theorem execHostUnknownRequest_eq {code : Word} (unnamed : 8 < code.toNat) :
    exec (.hostUnknownRequest rq code) s =
      .next (s.request rq (.other code.toNat) (fun s => s.respond rq 0xFFFFFFFF 0)) :=
  if_neg (by omega)

theorem hostUnknownRequest_hears {code : Word} (unnamed : 8 < code.toNat) :
    Hears s rq (.hostUnknownRequest rq code) (.other code.toNat) := fun _ => ⟨_, execHostUnknownRequest_eq s rq unnamed⟩

end

namespace Hears

variable {s : State} {rq : HostReq} {i : Instr} {a : Ask}

theorem silent (h : Hears s rq i a) (silent : (s.client rq.client.toNat).bell ≤ (s.client rq.client.toNat).read) :
    exec i s = .next s := by
  have unasked := asks_silent silent a
  obtain ⟨f, runs⟩ := h (by simp [State.serves, unasked])
  rw [runs, request_silent unasked]

/-- A response without effect. -/
theorem refused (s : State) (rq : HostReq) (status : Word) :
    Replied s ((taken s rq).respond rq status 0) rq (plain rq status) ∧ RingsOnly s ((taken s rq).respond rq status 0) :=
  ⟨(Serving.start s rq).respond _ _, (taken_rings s rq).respond _ _ _⟩

theorem without_firmware (h : Hears s rq i a) (heard : RequestHeard s rq a) (none_ : s.plat.firmware = none) :
    RanTo (exec i s) (fun t => Replied s t rq (plain rq 0xFFFFFFFE) ∧ RingsOnly s t) := by
  obtain ⟨f, runs⟩ := h (by simp [State.serves, none_])
  exact ⟨_, runs.trans (congrArg _ (request_without_firmware heard none_ f)), refused s rq _⟩

theorem unclean (h : Hears s rq i a) (heard : RequestHeard s rq a) (runs : s.plat.firmware ≠ none)
    (set_ : a.clean (s.nextEntry rq) = false) :
    RanTo (exec i s) (fun t => Replied s t rq (plain rq 0xFFFFFFFD) ∧ RingsOnly s t) := by
  obtain ⟨f, goes⟩ := h (by simp [State.serves, set_])
  exact ⟨_, goes.trans (congrArg _ (request_unclean heard runs set_ f)), refused s rq _⟩

end Hears

/-- A code that is not known is answered, without effect. -/
theorem hostUnknownRequest_refused {s : State} {rq : HostReq} {code : Word} (h : RequestServed s rq (.other code.toNat)) (unnamed : 8 < code.toNat) :
    RanTo (exec (.hostUnknownRequest rq code) s) (fun t => Replied s t rq (plain rq 0xFFFFFFFF) ∧ RingsOnly s t) :=
  ⟨_, (execHostUnknownRequest_eq s rq unnamed).trans (congrArg _ (request_served h _)), Hears.refused s rq _⟩

/-- What is asked of Trestle has no effect where Trestle does not run, where an unnamed byte is set and under a code that is
not known (R389, R390, R393). -/
theorem requests_hear (s : State) (rq : HostReq) (rcb va n : Nat) (b : List Byte) (p : LoadPlan) (z : CopyArgs) (g : AllocArgs)
    (ents : List (Nat × BitVec 64)) (q : Bool) (code : Word) (unnamed : 8 < code.toNat)
    (whole : z.dir = 0 → z.data.length = z.bytes) :
    ∀ x ∈ ([(.hostLoad rq rcb b q p, .load b q), (.hostUnload rq n ents, .unload n),
      (.hostLaunch rq rcb b, .launch b), (.hostFree rq rcb va n ents, .free va n), (.hostEvents rq n, .events n),
      (.hostAlloc rq rcb g va ents, .alloc g), (.hostCopy rq rcb z, .copy z), (.hostAttest rq b, .attest b),
      (.hostUnknownRequest rq code, .other code.toNat)] : List (Instr × Ask)), Hears s rq x.1 x.2 := by
  simp only [List.forall_mem_cons]
  exact ⟨hostLoad_hears s rq rcb b q p, hostUnload_hears s rq n ents, hostLaunch_hears s rq rcb b,
    hostFree_hears s rq rcb va n ents, hostEvents_hears s rq n, hostAlloc_hears s rq rcb g va ents,
    hostCopy_hears s rq rcb whole, hostAttest_hears s rq b, hostUnknownRequest_hears s rq unnamed, by simp⟩

end Sys2Proof
end

/-! ## What each request does (R49 to R52, R390) -/

section
namespace Sys2Proof

open Machine

/-! ### Changes at the homes and in the regions -/

/-- Between `s` and `u` the homes, what the clusters hold of them and the regions may have changed; the thread in focus, the
images and the platform have not. -/
structure HomesAndRegions (s u : State) : Prop where
  nextId : u.nextId = s.nextId
  thr : u.thr = s.thr
  images : u.images = s.images
  plat : u.plat = s.plat

namespace HomesAndRegions

variable {s u w : State}

theorem refl (s : State) : HomesAndRegions s s := ⟨rfl, rfl, rfl, rfl⟩

theorem trans (h : HomesAndRegions s u) (g : HomesAndRegions u w) : HomesAndRegions s w :=
  ⟨g.nextId.trans h.nextId, g.thr.trans h.thr, g.images.trans h.images, g.plat.trans h.plat⟩

theorem foldl {α : Type} {f : State → α → State} (step : ∀ s x, HomesAndRegions s (f s x)) (xs : List α) (s : State) :
    HomesAndRegions s (xs.foldl f s) := by
  induction xs generalizing s with
  | nil => exact refl s
  | cons x xs ih => exact (step s x).trans (ih _)

theorem disown (s : State) (w : Nat) : HomesAndRegions s (s.disown w) := by constructor <;> simp

theorem engineWrite (s : State) (pa : Nat) (bs : List Byte) : HomesAndRegions s (s.engineWrite pa bs) :=
  trans (u := s.homeWrite pa bs) ⟨rfl, rfl, rfl, rfl⟩ (foldl disown _ _)

theorem writeTables (s : State) (ents : List (Nat × BitVec 64)) : HomesAndRegions s (s.writeTables ents) :=
  foldl (fun s _ => engineWrite s _ _) _ s

theorem placeVirt (s : State) (root va : Nat) (bytes : List Byte) : HomesAndRegions s (s.placeVirt root va bytes) := by
  refine foldl (fun s x => ?_) _ s
  dsimp only
  split
  · exact engineWrite s _ _
  · exact refl s

theorem placeSect (s : State) (root base : Nat) (b : List Byte) (x : Sect) : HomesAndRegions s (s.placeSect root base b x) := by
  unfold State.placeSect
  split
  · exact refl s
  · exact placeVirt s _ _ _

theorem modRegion (s : State) (rcb : Nat) (f : Region → Region) : HomesAndRegions s (s.modRegion rcb f) := ⟨rfl, rfl, rfl, rfl⟩

theorem modNode (s : State) (rcb n : Nat) (f : NodeQueue → NodeQueue) : HomesAndRegions s (s.modNode rcb n f) :=
  ⟨rfl, rfl, rfl, rfl⟩

theorem openRegion (s : State) (e : Env) : HomesAndRegions s (s.openRegion e) := by
  unfold State.openRegion
  split
  · exact modRegion s _ _
  · exact ⟨rfl, rfl, rfl, rfl⟩

end HomesAndRegions

/-- Memory after Trestle has written entries of its tables. -/
theorem writeTables_mem (s : State) (ents : List (Nat × BitVec 64)) :
    (s.writeTables ents).mem = ents.foldl (fun m e => cellsWrite m e.1 (bytesOfNat 8 e.2.toNat)) s.mem := by
  unfold State.writeTables
  induction ents generalizing s with
  | nil => rfl
  | cons e ents ih => simp only [List.foldl_cons, ih, engineWrite_mem]

/-! ### LOAD (R49, R51) -/

/-- An image that is placed is one more, loading, under the next number. -/
theorem place_image (s : State) (rq : HostReq) (env : Env) (b : List Byte) (plan : LoadPlan) :
    (∃ i, (s.place rq env b plan).images = s.images ++ [i] ∧ i.handle = s.nextId ∧ i.client = rq.client.toNat ∧ i.tag = rq.tag ∧
      i.rcb = env.rcb ∧ i.base = plan.base ∧ i.loading = true ∧ i.bytes = b.length ∧
      i.kerns.length = (descsOf b 8 128).length) ∧ (s.place rq env b plan).thr = s.thr := by
  unfold State.place
  refine ⟨⟨_, congrArg (· ++ [_]) (HomesAndRegions.images ?kept), rfl, rfl, rfl, rfl, rfl, rfl, rfl, List.length_map _⟩,
    HomesAndRegions.thr ?kept⟩
  have modDesc (root : Nat) (o : Option Nat) (va : Nat → Nat) (bs : List Byte) (s : State) :
      HomesAndRegions s (match o with | some o => s.placeVirt root (va o) bs | none => s) := by
    cases o
    · exact .refl s
    · exact .placeVirt s _ _ _
  refine .trans ?_ (.modRegion _ _ _)
  refine .trans ?_ (.foldl (fun s _ => .engineWrite s _ _) _ _)
  refine .trans ?_ (.foldl (fun s d => modDesc _ _ _ _ s) _ _)
  refine .trans ?_ (.foldl (fun s d => modDesc _ _ _ _ s) _ _)
  exact .trans (.openRegion s env) (.foldl (fun s x => .placeSect s _ _ _ x) _ _)

section
variable {s : State} {rq : HostReq}

/-- A request that is served, once it has been read and its region noted (R390). -/
def heardFor (s : State) (rq : HostReq) (rcb : Nat) : State := (taken s rq).noteRegion rq.client.toNat rcb

theorem Serving.heardFor (s : State) (rq : HostReq) (rcb : Nat) : Serving s (heardFor s rq rcb) rq (noted rcb) :=
  (Serving.start s rq).noteRegion rcb

theorem heardFor_rings (s : State) (rq : HostReq) (rcb : Nat) : RingsOnly s (heardFor s rq rcb) :=
  (taken_rings s rq).noteRegion _ _

theorem hostLoad_served {env : Env} {b : List Byte} {sig : Bool} {plan : LoadPlan} {rcb : Nat}
    (h : RequestServed s rq (.load b sig)) (resolves : s.resolveEnv rcb = some env) (fits : s.planTaken env b sig plan = true) :
    exec (.hostLoad rq rcb b sig plan) s = .next ((heardFor s rq rcb).load rq env b sig plan) := by
  show execHostLoad rq rcb b sig plan s = _
  simp only [execHostLoad, resolves, fits, Bool.not_true, Bool.and_false, Bool.false_eq_true, if_false, request_served h]
  rfl

/-- A broken image is refused with its code and index, and nothing of it is placed. -/
theorem hostLoad_refused {env : Env} {b : List Byte} {sig : Bool} {rcb code i : Nat} (h : RequestServed s rq (.load b sig))
    (resolves : s.resolveEnv rcb = some env) (broken : loadCheck b sig = some (code, i)) (plan : LoadPlan) :
    RanTo (exec (.hostLoad rq rcb b sig plan) s) (fun t =>
      Replied s t rq ⟨rq.tag, BitVec.ofNat 32 code, 0, BitVec.ofNat 32 i, [], []⟩ (noted rcb) ∧ t.images = s.images ∧ t.mem = s.mem) := by
  have fits : s.planTaken env b sig plan = true := by simp [State.planTaken, broken]
  refine ⟨_, hostLoad_served h resolves fits, ?_⟩
  simp only [State.load, broken]
  have rings := (heardFor_rings s rq rcb).answer rq.client.toNat
  exact ⟨(Serving.heardFor s rq rcb).answer _, (rings _).images, (rings _).mem⟩

/-- An image that passes the checks is placed, and is loading. -/
theorem hostLoad_placed {env : Env} {b : List Byte} {sig : Bool} {rcb : Nat} {plan : LoadPlan}
    (h : RequestServed s rq (.load b sig)) (resolves : s.resolveEnv rcb = some env) (whole : loadCheck b sig = none)
    (fits : s.planTaken env b sig plan = true) : RanTo (exec (.hostLoad rq rcb b sig plan) s) (fun t =>
      t.thr = s.thr ∧ ∃ i, t.images = s.images ++ [i] ∧ i.handle = s.nextId ∧ i.client = rq.client.toNat ∧ i.tag = rq.tag ∧
        i.rcb = env.rcb ∧ i.base = plan.base ∧ i.loading = true ∧ i.bytes = b.length ∧
        i.kerns.length = (descsOf b 8 128).length) := by
  refine ⟨_, hostLoad_served h resolves fits, ?_⟩
  have tables := HomesAndRegions.writeTables (heardFor s rq rcb) plan.ents
  obtain ⟨⟨i, images, handle, rest⟩, thr⟩ := place_image ((heardFor s rq rcb).writeTables plan.ents) rq env b plan
  have rings := heardFor_rings s rq rcb
  rw [tables.images, rings.images] at images
  simp only [State.load, whole]
  exact ⟨(thr.trans tables.thr).trans rings.thr, i, images, (handle.trans tables.nextId).trans rings.nextId, rest⟩

/-! ### LOAD_COMPLETE (R51) -/

/-- What a list finds by its number once the things of that number have been changed. -/
theorem find_modified {α : Type} (num : α → Nat) (n : Nat) {g : α → α} (same : ∀ x, num (g x) = num x) (l : List α) :
    (l.map (fun x => if num x == n then g x else x)).find? (fun x => num x == n) = (l.find? (fun x => num x == n)).map g := by
  induction l with
  | nil => rfl
  | cons x xs ih =>
    rw [List.map_cons, List.find?_cons, List.find?_cons]
    by_cases here : (num x == n) = true
    · rw [if_pos here, same, here]
      rfl
    · rw [if_neg here, eq_false_of_ne_true here]
      exact ih

theorem loadComplete_loaded {i : Image} (found : s.images.find? (fun x => x.handle == i.handle) = some i)
    (loaded : i.loading = false) : exec (.loadComplete i.handle) s = .next s := by
  show execLoadComplete i.handle s = _
  simp [execLoadComplete, found, loaded]

/-- The image's client is answered its handle, and the image may be launched (R51). -/
theorem loadComplete_loading {i : Image} (found : s.images.find? (fun x => x.handle == i.handle) = some i)
    (loading : i.loading = true) : RanTo (exec (.loadComplete i.handle) s) (fun t => t.mem = s.mem ∧
      t.images.find? (fun x => x.handle == i.handle) = some { i with loading := false } ∧
      (t.client i.client).answers = (s.client i.client).answers ++ [⟨i.tag, 0, BitVec.ofNat 64 i.handle, 0, [], []⟩]) := by
  have runs : exec (.loadComplete i.handle) s = .next (State.answer
      { s with images := s.images.map (fun x => if x.handle = i.handle then { x with loading := false } else x) }
      i.client (Response.plain i.tag 0 (BitVec.ofNat 64 i.handle))) := by
    show execLoadComplete i.handle s = _
    simp only [execLoadComplete, found, loading, Bool.not_true, Bool.false_eq_true, if_false]
  have image := find_modified Image.handle i.handle (g := fun x => { x with loading := false }) (fun _ => rfl) s.images
  simp only [beq_iff_eq, found] at image
  refine ⟨_, runs, rfl, image, ?_⟩
  rw [State.answer, client_modClient, if_pos rfl]
  rfl

/-! ### UNLOAD (R52) -/

theorem hostUnload_served {n : Nat} (h : RequestServed s rq (.unload n)) (ents : List (Nat × BitVec 64)) :
    exec (.hostUnload rq n ents) s = .next (
      match s.images.find? (fun i => i.handle == n && i.client == rq.client.toNat) with
      | none => (taken s rq).respond rq 2 0
      | some i =>
        if s.imageBusy i then (taken s rq).respond rq 1 0 else (((taken s rq).writeTables ents).unload i).respond rq 0 0) :=
  congrArg _ (request_served h _)

/-- An image that goes leaves the others, and the platform. -/
theorem unload_images (s : State) (i : Image) :
    (s.unload i).images = s.images.filter (fun x => x.handle != i.handle) ∧ (s.unload i).plat = s.plat := by
  have nodes := HomesAndRegions.foldl (fun s n => .modNode s i.rcb n (fun q => { q with cap := 0 })) i.nodes s
  exact ⟨congrArg _ nodes.images, nodes.plat⟩

/-- A handle that is none of the client's. -/
theorem hostUnload_unknown {n : Nat} (h : RequestServed s rq (.unload n)) (ents : List (Nat × BitVec 64))
    (unknown : ∀ i ∈ s.images, i.handle = n → i.client ≠ rq.client.toNat) :
    RanTo (exec (.hostUnload rq n ents) s) (fun t => Replied s t rq (plain rq 2) ∧ t.images = s.images) := by
  have none_ : s.images.find? (fun i => i.handle == n && i.client == rq.client.toNat) = none := by
    simpa [List.find?_eq_none] using unknown
  refine ⟨_, hostUnload_served h ents, ?_⟩
  simp only [none_]
  exact ⟨(Serving.start s rq).respond _ _, ((taken_rings s rq).respond _ _ _).images⟩

theorem hostUnload_busy {n : Nat} {i : Image} (h : RequestServed s rq (.unload n)) (ents : List (Nat × BitVec 64))
    (found : s.images.find? (fun x => x.handle == n && x.client == rq.client.toNat) = some i) (busy : s.imageBusy i = true) :
    RanTo (exec (.hostUnload rq n ents) s) (fun t => Replied s t rq (plain rq 1) ∧ t.images = s.images) := by
  refine ⟨_, hostUnload_served h ents, ?_⟩
  simp only [found, busy, if_true]
  exact ⟨(Serving.start s rq).respond _ _, ((taken_rings s rq).respond _ _ _).images⟩

theorem hostUnload_idle {n : Nat} {i : Image} (h : RequestServed s rq (.unload n)) (ents : List (Nat × BitVec 64))
    (found : s.images.find? (fun x => x.handle == n && x.client == rq.client.toNat) = some i) (idle : s.imageBusy i = false) :
    RanTo (exec (.hostUnload rq n ents) s) (fun t =>
      Replied s t rq (plain rq 0) ∧ t.images = s.images.filter (fun x => x.handle != n)) := by
  have tables := HomesAndRegions.writeTables (taken s rq) ents
  obtain ⟨images, plat⟩ := unload_images ((taken s rq).writeTables ents) i
  have handle : i.handle = n := by
    have := List.find?_some found
    simp only [Bool.and_eq_true, beq_iff_eq] at this
    exact this.1
  rw [tables.images, (taken_rings s rq).images, handle] at images
  refine ⟨_, hostUnload_served h ents, ?_⟩
  simp only [found, idle, Bool.false_eq_true, if_false]
  exact ⟨((Serving.start s rq).keep (plat.trans tables.plat)).respond _ _,
    ((RingsOnly.refl _).respond _ _ _).images.trans images⟩

/-! ### LAUNCH (R328, R329) -/

@[simp] theorem modClient_rootOf (n : Nat) (f : Client → Client) (rcb : Nat) : (s.modClient n f).rootOf rcb = s.rootOf rcb := by
  simp only [State.rootOf, modClient_resolveEnv]

/-- What a client is told of its launch: the sequence number, or why it is refused. -/
def launchTold (rq : HostReq) (p : State × Word) : State :=
  if p.2.getLsbD 31 then p.1.respond rq p.2 0 else p.1.respond rq 0 (p.2.zeroExtend 64)

/-- A kernel's region template that has not been copied for the launching region (R46). -/
theorem templateMade_uncopied {root rcb x : Nat} {b : List Byte} {i : Image} {k : Kern}
    (known : s.findKern root (fieldAt b 0 8) = some (i, k)) (template : k.template = some x)
    (uncopied : i.copyFor x rcb = none) : s.templateMade rcb root b = false := by
  simp [State.templateMade, known, template, uncopied]

theorem hostLaunch_waits {rcb : Nat} {b : List Byte} (h : RequestServed s rq (.launch b))
    (unmade : s.templateMade rcb (s.rootOf rcb) b = false) : exec (.hostLaunch rq rcb b) s = .next s := by
  show execHostLaunch rq rcb b s = _
  simp [execHostLaunch, serves_iff.mpr h, unmade]

theorem hostLaunch_served {rcb : Nat} {b : List Byte} (h : RequestServed s rq (.launch b))
    (made : s.templateMade rcb (s.rootOf rcb) b = true) :
    exec (.hostLaunch rq rcb b) s = .next (launchTold rq ((heardFor s rq rcb).launch rcb (s.rootOf rcb) b)) := by
  show execHostLaunch rq rcb b s = _
  simp only [execHostLaunch, made, Bool.not_true, Bool.and_false, Bool.false_eq_true, if_false, request_served h]
  simp only [taken, modClient_rootOf]
  rfl

theorem launch_full {root rcb : Nat} {b : List Byte} (unknown : s.findKern root (fieldAt b 0 8) = none)
    (full : 256 ≤ s.openDispatches rcb) : s.launch rcb root b = (s, 0x80000001) := by
  simp [State.launch, unknown, full]

/-- A block that is in order starts a dispatch of its kernel, under the launching region or its copy of the kernel's template. -/
theorem launch_accepted {root rcb region : Nat} {b : List Byte} {i : Image} {k : Kern} {env : Env}
    (known : s.findKern root (fieldAt b 0 8) = some (i, k))
    (under : k.template = none ∧ region = rcb ∨ ∃ x, k.template = some x ∧ i.copyFor x rcb = some region)
    (own : k.input = none) (room : s.openDispatches region < 256) (resolves : s.resolveEnv region = some env)
    (count : fieldAt b 16 4 ≠ 0) (zero : fieldAt b 20 4 = 0) (done : s.doneOk env.ptroot (fieldAt b 24 8) = true) :
    s.launch rcb root b =
      s.accept env k (BitVec.ofNat 64 (fieldAt b 8 8)) (fieldAt b 16 4) (BitVec.ofNat 64 (fieldAt b 24 8)) := by
  have copy : (k.template.bind (fun t => i.copyFor t rcb)).getD rcb = region := by
    obtain ⟨none_, rfl⟩ | ⟨x, some_, made⟩ := under
    · simp [none_]
    · simp [some_, made]
  simp [State.launch, known, copy, Nat.not_le.mpr room, resolves, count, zero, done, own]

theorem region?_modRegion (s : State) (n : Nat) {g : Region → Region} (same : ∀ r, (g r).rcb = r.rcb) :
    (s.modRegion n g).region? n = (s.region? n).map g := find_modified Region.rcb n same s.regions

theorem openRegion_nextSeq (s : State) (e : Env) :
    (((s.openRegion e).region? e.rcb).map Region.nextSeq).getD 0 = ((s.region? e.rcb).map Region.nextSeq).getD 0 := by
  unfold State.openRegion
  cases found : s.region? e.rcb with
  | none =>
    have absent : s.regions.find? (fun r => r.rcb == e.rcb) = none := found
    simp [State.region?, List.find?_append, absent, Region.start]
  | some r =>
    dsimp only
    rw [region?_modRegion s e.rcb, found]
    · rfl
    · exact fun _ => rfl

theorem openRegion_dispatches (s : State) (e : Env) : (s.openRegion e).dispatches = s.dispatches := by
  unfold State.openRegion
  split <;> rfl

/-- A dispatch that is accepted takes the next sequence number of its region (R329). -/
theorem accept_started (s : State) (env : Env) (k : Kern) (args : BitVec 64) (count : Nat) (done : BitVec 64) :
    let seq := ((s.region? env.rcb).map Region.nextSeq).getD 0
    (s.accept env k args count done).2 = BitVec.ofNat 32 seq ∧ (s.accept env k args count done).1.plat = s.plat ∧
      ∃ d, (s.accept env k args count done).1.dispatches = s.dispatches ++ [d] ∧ d.kern = k ∧ d.env = env ∧
        d.seq = BitVec.ofNat 32 seq ∧ d.count = count := by
  refine ⟨congrArg (BitVec.ofNat 32) (openRegion_nextSeq s env), (HomesAndRegions.openRegion s env).plat, _,
    congrArg (· ++ [_]) (openRegion_dispatches s env), rfl, rfl, congrArg (BitVec.ofNat 32) (openRegion_nextSeq s env), rfl⟩

theorem hostLaunch_full {rcb : Nat} {b : List Byte} (h : RequestServed s rq (.launch b))
    (unknown : s.findKern (s.rootOf rcb) (fieldAt b 0 8) = none) (full : 256 ≤ s.openDispatches rcb) :
    RanTo (exec (.hostLaunch rq rcb b) s) (fun t =>
      Replied s t rq (plain rq 0x80000001) (noted rcb) ∧ t.dispatches = s.dispatches) := by
  have made : s.templateMade rcb (s.rootOf rcb) b = true := by simp [State.templateMade, unknown]
  refine ⟨_, hostLaunch_served h made, ?_⟩
  rw [launch_full (s := heardFor s rq rcb) (by simpa [heardFor, taken, State.noteRegion] using unknown) full, launchTold,
    if_pos (show (0x80000001 : Word).getLsbD 31 = true by decide)]
  exact ⟨(Serving.heardFor s rq rcb).respond _ _, ((heardFor_rings s rq rcb).respond _ _ _).dispatches⟩

theorem hostLaunch_started {rcb region : Nat} {b : List Byte} {i : Image} {k : Kern} {env : Env}
    (h : RequestServed s rq (.launch b)) (known : s.findKern (s.rootOf rcb) (fieldAt b 0 8) = some (i, k))
    (under : k.template = none ∧ region = rcb ∨ ∃ x, k.template = some x ∧ i.copyFor x rcb = some region)
    (own : k.input = none) (room : s.openDispatches region < 256) (resolves : s.resolveEnv region = some env)
    (same : env.rcb = region) (count : fieldAt b 16 4 ≠ 0) (zero : fieldAt b 20 4 = 0)
    (done : s.doneOk env.ptroot (fieldAt b 24 8) = true) :
    let seq := ((s.region? region).map Region.nextSeq).getD 0
    seq < 2 ^ 31 → RanTo (exec (.hostLaunch rq rcb b) s) (fun t =>
      Replied s t rq (plain rq 0 (BitVec.ofNat 64 seq)) (noted rcb) ∧ ∃ d, t.dispatches = s.dispatches ++ [d] ∧
        d.kern = k ∧ d.env = env ∧ d.seq = BitVec.ofNat 32 seq ∧ d.count = fieldAt b 16 4) := by
  intro seq small
  have made : s.templateMade rcb (s.rootOf rcb) b = true := by
    obtain ⟨none_, -⟩ | ⟨x, some_, made⟩ := under
    · simp [State.templateMade, known, none_]
    · simp [State.templateMade, known, some_, made]
  have accepts := launch_accepted (s := heardFor s rq rcb) (root := s.rootOf rcb)
    (by simpa [heardFor, taken, State.noteRegion] using known) under own room
    (by simpa [heardFor, taken, State.noteRegion] using resolves) count zero done
  obtain ⟨number, plat, d, started, kern, under', dseq, dcount⟩ := accept_started (heardFor s rq rcb) env k
    (BitVec.ofNat 64 (fieldAt b 8 8)) (fieldAt b 16 4) (BitVec.ofNat 64 (fieldAt b 24 8))
  have region' : ((heardFor s rq rcb).region? env.rcb).map Region.nextSeq = (s.region? region).map Region.nextSeq := by
    rw [same]
    exact congrArg _ ((modClient_region? _ _ _ _).trans (modClient_region? _ _ _ _))
  rw [region'] at number dseq
  rw [(heardFor_rings s rq rcb).dispatches] at started
  have positive : (BitVec.ofNat 32 seq).getLsbD 31 = false := by
    rw [BitVec.getLsbD_ofNat]
    simp [Nat.testBit_lt_two_pow small]
  have wide : (BitVec.ofNat 32 seq).zeroExtend 64 = BitVec.ofNat 64 seq := by
    apply BitVec.eq_of_toNat_eq
    simp
    omega
  refine ⟨_, hostLaunch_served h made, ?_⟩
  rw [accepts, launchTold, number, if_neg (ne_true_of_eq_false positive), wide]
  exact ⟨((Serving.heardFor s rq rcb).keep plat).respond _ _, d,
    ((RingsOnly.refl _).respond _ _ _).dispatches.trans started, kern, under', dseq, dcount⟩

/-! ### ALLOC and FREE (R390) -/

theorem hostAlloc_malformed {a : AllocArgs} (h : RequestServed s rq (.alloc a)) (malformed : allocPage a = none) (rcb va : Nat)
    (ents : List (Nat × BitVec 64)) : RanTo (exec (.hostAlloc rq rcb a va ents) s) (fun t => Replied s t rq (plain rq 2)) := by
  refine ⟨(taken s rq).respond rq 2 0, ?_, (Serving.start s rq).respond _ _⟩
  show execHostAlloc rq rcb a va ents s = _
  simp only [execHostAlloc, malformed, request_served h]

/-- Trestle writes no entry where there is no memory of the type. -/
theorem hostAlloc_exhausted {a : AllocArgs} {n : Nat} (h : RequestServed s rq (.alloc a)) (size : allocPage a = some n)
    (rcb va : Nat) : RanTo (exec (.hostAlloc rq rcb a va []) s) (fun t => Replied s t rq (plain rq 1)) := by
  refine ⟨(taken s rq).respond rq 1 0, ?_, (Serving.start s rq).respond _ _⟩
  show execHostAlloc rq rcb a va [] s = _
  simp only [execHostAlloc, size, List.isEmpty_nil, if_true, request_served h]

/-- Tables written while a ring differs hold the same memory. -/
theorem RingsOnly.writeTables_mem {s t : State} (h : RingsOnly s t) (ents : List (Nat × BitVec 64)) :
    (t.writeTables ents).mem = (s.writeTables ents).mem := by
  rw [Sys2Proof.writeTables_mem, Sys2Proof.writeTables_mem, h.mem]

theorem hostAlloc_mapped {a : AllocArgs} {n rcb va : Nat} {ents : List (Nat × BitVec 64)} (h : RequestServed s rq (.alloc a))
    (size : allocPage a = some n) (some_ : ents ≠ [])
    (mapped : (s.writeTables ents).allocMapped (s.rootOf rcb) va n a = true) :
    RanTo (exec (.hostAlloc rq rcb a va ents) s) (fun t => t.mem = (s.writeTables ents).mem ∧
      Replied s t rq (plain rq 0 (BitVec.ofNat 64 va)) (fun c => noted rcb { c with allocs := c.allocs ++ [(va, a.bytes)] })) := by
  have tables := HomesAndRegions.writeTables (taken s rq) ents
  have runs : exec (.hostAlloc rq rcb a va ents) s = .next
      (((((taken s rq).writeTables ents).noteRegion rq.client.toNat rcb).modClient rq.client.toNat (fun c =>
        { c with allocs := c.allocs ++ [(va, a.bytes)] })).respond rq 0 (BitVec.ofNat 64 va)) := by
    show execHostAlloc rq rcb a va ents s = _
    simp only [execHostAlloc, size, List.isEmpty_iff, some_, mapped, Bool.not_true, Bool.and_false, Bool.false_eq_true,
      if_false, request_served h]
  have serving := (((Serving.start s rq).keep tables.plat).noteRegion rcb).modClient
    (g := fun c => { c with allocs := c.allocs ++ [(va, a.bytes)] }) (fun _ => rfl) (fun _ _ => rfl) (fun _ => rfl)
  refine ⟨_, runs, ?_, serving.respond _ _⟩
  have rings := (((RingsOnly.refl ((taken s rq).writeTables ents)).noteRegion rq.client.toNat rcb).modClient rq.client.toNat
    (fun c => { c with allocs := c.allocs ++ [(va, a.bytes)] })).respond rq 0 (BitVec.ofNat 64 va)
  exact rings.mem.trans ((taken_rings s rq).writeTables_mem ents)

theorem hostFree_unknown {va n : Nat} (h : RequestServed s rq (.free va n))
    (unknown : n = 0 ∨ ∀ r ∈ (s.client rq.client.toNat).allocs, ¬ (r.1 ≤ va ∧ va + n ≤ r.1 + r.2)) (rcb : Nat)
    (ents : List (Nat × BitVec 64)) :
    RanTo (exec (.hostFree rq rcb va n ents) s) (fun t => Replied s t rq (plain rq 1) ∧ t.mem = s.mem) := by
  refine ⟨(taken s rq).respond rq 1 0, ?_, (Serving.start s rq).respond _ _, ((taken_rings s rq).respond _ _ _).mem⟩
  have refused : n = 0 ∨ (!(s.client rq.client.toNat).allocs.any (fun (a, k) => decide (a ≤ va ∧ va + n ≤ a + k))) = true :=
    unknown.imp_right (fun apart => by simpa using apart)
  show execHostFree rq rcb va n ents s = _
  simp only [execHostFree, if_pos refused, request_served h]

theorem hostFree_unmapped {rcb va n : Nat} {ents : List (Nat × BitVec 64)} (h : RequestServed s rq (.free va n))
    (some_ : n ≠ 0) (known : ∃ r ∈ (s.client rq.client.toNat).allocs, r.1 ≤ va ∧ va + n ≤ r.1 + r.2)
    (gone : ∀ i, i < (n + 65535) / 65536 → (s.writeTables ents).pageAt (s.rootOf rcb) (va + 65536 * i) = none) :
    RanTo (exec (.hostFree rq rcb va n ents) s) (fun t => t.mem = (s.writeTables ents).mem ∧
      Replied s t rq (plain rq 0) (fun c => { c with allocs := c.allocs.flatMap (fun r => cutRange r va n) })) := by
  have tables := HomesAndRegions.writeTables (taken s rq) ents
  have granted : ¬ (n = 0 ∨
      (!(s.client rq.client.toNat).allocs.any (fun (a, k) => decide (a ≤ va ∧ va + n ≤ a + k))) = true) := by
    obtain ⟨r, held, inside⟩ := known
    simp only [some_, false_or, Bool.not_eq_true', Bool.not_eq_false, List.any_eq_true, decide_eq_true_eq]
    exact ⟨r, held, inside⟩
  have clear : (List.range ((n + 65535) / 65536)).any
      (fun i => ((s.writeTables ents).pageAt (s.rootOf rcb) (va + 65536 * i)).isSome) = false := by
    simpa [List.any_eq_false] using gone
  have runs : exec (.hostFree rq rcb va n ents) s = .next ((((taken s rq).writeTables ents).modClient rq.client.toNat (fun c =>
      { c with allocs := c.allocs.flatMap (fun r => cutRange r va n) })).respond rq 0 0) := by
    show execHostFree rq rcb va n ents s = _
    simp only [execHostFree, if_neg granted, clear, Bool.and_false, Bool.false_eq_true, if_false, request_served h]
  have serving := ((Serving.start s rq).keep tables.plat).modClient
    (g := fun c => { c with allocs := c.allocs.flatMap (fun r => cutRange r va n) }) (fun _ => rfl) (fun _ _ => rfl) (fun _ => rfl)
  refine ⟨_, runs, ?_, serving.respond _ _⟩
  have rings := ((RingsOnly.refl ((taken s rq).writeTables ents)).modClient rq.client.toNat
    (fun c => { c with allocs := c.allocs.flatMap (fun r => cutRange r va n) })).respond rq 0 0
  exact rings.mem.trans ((taken_rings s rq).writeTables_mem ents)

/-! ### COPY (R389, R390) -/

/-- A range inside one sector is one run. -/
theorem sectorRuns_single {va n : Nat} (some_ : 0 < n) (inside : va % 32 + n ≤ 32) : sectorRuns va n = [(0, n)] := by
  have count : (va + n - 1) / 32 + 1 - va / 32 = 1 := by omega
  simp only [sectorRuns, if_neg (Nat.pos_iff_ne_zero.mp some_), count, List.range_one, List.map_singleton]
  refine congrArg (fun x => [x]) (Prod.ext ?_ ?_)
  · dsimp only; omega
  · dsimp only; omega

theorem pageAt_eq_some_iff {root va : Nat} {p : Page} :
    s.pageAt root va = some p ↔ validVa va = true ∧ s.walk root va = .page p := by
  unfold State.pageAt
  cases validVa va with
  | false => simp
  | true => cases s.walk root va <;> simp

theorem hostCopy_unmapped {z : CopyArgs} {rcb : Nat} (h : RequestServed s rq (.copy z))
    (refused : 1 < z.dir.toNat ∨ s.rangeMapped (s.rootOf rcb) z.dva z.bytes = false) :
    RanTo (exec (.hostCopy rq rcb z) s) (fun t => Replied s t rq (plain rq 1) ∧ t.mem = s.mem) := by
  refine ⟨(taken s rq).respond rq 1 0, ?_, (Serving.start s rq).respond _ _, ((taken_rings s rq).respond _ _ _).mem⟩
  have refused' : 1 < z.dir.toNat ∨ (!s.rangeMapped (s.rootOf rcb) z.dva z.bytes) = true := by simpa using refused
  show execHostCopy rq rcb z s = _
  simp only [execHostCopy, if_pos refused', request_served h]

section
variable {root va n : Nat} {p : Page} (page : s.pageAt root va = some p) (some_ : 0 < n) (inside : va % 32 + n ≤ 32)
include page some_ inside

theorem rangeMapped_single : s.rangeMapped root va n = true := by
  simp [State.rangeMapped, sectorRuns_single some_ inside, page]

/-- Nothing of the Crucible's folds on a page of another type. -/
theorem foldVirt_single (plain : p.type ≠ .cmp) : s.foldVirt root va n = s := by
  simp [State.foldVirt, sectorRuns_single some_ inside, page, plain]

theorem placeVirt_single {bs : List Byte} (whole : bs.length = n) : s.placeVirt root va bs = s.engineWrite p.pa bs := by
  subst whole
  simp [State.placeVirt, sectorRuns_single some_ inside, page]

theorem readVirt_single (near : p.type ≠ .far) : s.readVirt root va n =
    if s.poisoned p.pa n then .poison va else .bytes (s.homeRead p.pa n) := by
  obtain ⟨valid, walk⟩ := pageAt_eq_some_iff.mp page
  have answers : s.reaches p n true = true := by simp [State.reaches, State.linked, near]
  simp [State.readVirt, sectorRuns_single some_ inside, State.readRuns, valid, walk, answers]

end

/-- The bytes that an engine writes at the home. -/
theorem bytesWritten_engineWrite (wf : Memory.wf s.mem = true) (pa : Nat) (bs : List Byte) :
    BytesWritten s.mem (s.engineWrite pa bs).mem pa bs := by
  intro x
  rw [engineWrite_mem, cellRead_cellsWrite bs pa wf]

section
variable {z : CopyArgs} {rcb : Nat} {p : Page} (h : RequestServed s rq (.copy z))
  (page : s.pageAt (s.rootOf rcb) z.dva = some p) (uncompressed : p.type ≠ .cmp) (near : p.type ≠ .far) (some_ : 0 < z.bytes)
  (inside : z.dva % 32 + z.bytes ≤ 32)
include h page uncompressed near some_ inside

theorem hostCopy_in (in_ : z.dir = 0) (whole : z.data.length = z.bytes) (wf : Memory.wf s.mem = true) :
    RanTo (exec (.hostCopy rq rcb z) s) (fun t => t.thr = s.thr ∧
      Replied s t rq (plain rq 0 (BitVec.ofNat 64 z.bytes)) ∧ BytesWritten s.mem t.mem p.pa z.data) := by
  have page' : (taken s rq).pageAt (s.rootOf rcb) z.dva = some p := page
  have mapped := rangeMapped_single page some_ inside
  have answers : s.rangeAnswers (s.rootOf rcb) z.dva z.bytes = true := by
    simp [State.rangeAnswers, sectorRuns_single some_ inside, page, State.reaches, State.linked, near]
  have runs : exec (.hostCopy rq rcb z) s =
      .next (((taken s rq).engineWrite p.pa z.data).respond rq 0 (BitVec.ofNat 64 z.bytes)) := by
    show execHostCopy rq rcb z s = _
    unfold execHostCopy
    dsimp only
    rw [if_neg (by simp [in_, mapped]), if_pos in_, if_neg (not_not_intro whole), if_neg (by simp [answers]),
      request_served h, foldVirt_single page' some_ inside uncompressed, placeVirt_single page' some_ inside whole]
  have wrote := HomesAndRegions.engineWrite (taken s rq) p.pa z.data
  have rings := (RingsOnly.refl ((taken s rq).engineWrite p.pa z.data)).respond rq 0 (BitVec.ofNat 64 z.bytes)
  have bytes := bytesWritten_engineWrite (s := taken s rq) wf p.pa z.data
  rw [(taken_rings s rq).mem, ← rings.mem] at bytes
  exact ⟨_, runs, (rings.thr.trans wrote.thr).trans (taken_rings s rq).thr,
    ((Serving.start s rq).keep wrote.plat).respond _ _, bytes⟩

theorem hostCopy_out_eq (out : z.dir = 1) : exec (.hostCopy rq rcb z) s = .next (
    if s.poisoned p.pa z.bytes then (taken s rq).respond rq 2 0
    else (taken s rq).answer rq.client.toNat ⟨rq.tag, 0, BitVec.ofNat 64 z.bytes, 0, s.homeRead p.pa z.bytes, []⟩) := by
  have page' : (taken s rq).pageAt (s.rootOf rcb) z.dva = some p := page
  have mapped := rangeMapped_single page some_ inside
  show execHostCopy rq rcb z s = _
  unfold execHostCopy
  dsimp only
  rw [if_neg (by simp [out, mapped]), if_neg (by simp [out]), foldVirt_single page some_ inside uncompressed,
    readVirt_single page some_ inside near]
  cases s.poisoned p.pa z.bytes with
  | true => simp only [if_true, request_served h]
  | false => simp only [Bool.false_eq_true, if_false, request_served h, foldVirt_single page' some_ inside uncompressed]

theorem hostCopy_out_clean (out : z.dir = 1) (clean : s.poisoned p.pa z.bytes = false) :
    RanTo (exec (.hostCopy rq rcb z) s) (fun t => t.mem = s.mem ∧
      Replied s t rq ⟨rq.tag, 0, BitVec.ofNat 64 z.bytes, 0, s.homeRead p.pa z.bytes, []⟩) := by
  refine ⟨_, hostCopy_out_eq h page uncompressed near some_ inside out, ?_⟩
  rw [clean, if_neg Bool.false_ne_true]
  exact ⟨((taken_rings s rq).answer _ _).mem, (Serving.start s rq).answer _⟩

theorem hostCopy_out_poisoned (out : z.dir = 1) (bad : s.poisoned p.pa z.bytes = true) :
    RanTo (exec (.hostCopy rq rcb z) s) (fun t => t.mem = s.mem ∧ Replied s t rq (plain rq 2)) := by
  refine ⟨_, hostCopy_out_eq h page uncompressed near some_ inside out, ?_⟩
  rw [if_pos bad]
  exact ⟨((taken_rings s rq).respond _ _ _).mem, (Serving.start s rq).respond _ _⟩

end

/-! ### ATTEST and EVENTS (R390, R393) -/

theorem hostAttest_signed {nonce fw : List Byte} (h : RequestServed s rq (.attest nonce)) (runs : s.plat.firmware = some fw) :
    let body := nonce ++ Config.shake256 fw 64 ++ bytesOfNat 2 s.plat.excCount.toNat ++ bytesOfNat 1 s.plat.excPeak.toNat ++
      bytesOfNat 4 s.plat.retired.length
    let report := body ++ Config.falconSign (Config.shake256 body 64)
    RanTo (exec (.hostAttest rq nonce) s) (fun t =>
      Replied s t rq ⟨rq.tag, 0, BitVec.ofNat 64 report.length, 0, report, []⟩) := by
  intro body report
  have fields : (taken s rq).report nonce = body := by
    have fw' : (taken s rq).plat.firmware = some fw := runs
    unfold State.report
    rw [fw']
    rfl
  refine ⟨_, congrArg Host.Outcome.next (request_served h _), ?_⟩
  simp only [fields]
  exact (Serving.start s rq).answer _

/-- The elements of a list from a place on that a test finds, of those numbered from `k`. -/
theorem filter_numbered {α : Type} (m : α → Bool) (n k : Nat) (l : List α) :
    (((List.range' k l.length).zip l).filter (fun x => decide (n ≤ x.1) && m x.2)).map Prod.snd = (l.drop (n - k)).filter m := by
  induction l generalizing k with
  | nil => simp
  | cons x l ih =>
    rw [List.length_cons, List.range'_succ, List.zip_cons_cons, List.filter_cons]
    by_cases before : n ≤ k
    · have all : n - k = 0 ∧ n - (k + 1) = 0 := by omega
      specialize ih (k + 1)
      rw [all.2, List.drop_zero] at ih
      rw [all.1, List.drop_zero, List.filter_cons]
      simp only [before, decide_true, Bool.true_and]
      split
      · rw [List.map_cons, ih]
      · exact ih
    · have one : n - k = n - (k + 1) + 1 := by omega
      simp only [before, decide_false, Bool.false_and, Bool.false_eq_true, if_false]
      rw [one, List.drop_succ_cons, ih]

/-- A client whose buffer is large enough is given every record of its fault domains that it has not seen. -/
theorem hostEvents_given {capacity : Nat} (h : RequestServed s rq (.events capacity)) :
    let c := s.client rq.client.toNat
    let mine (e : EventRec) : Bool := ((e.domain?).map (fun d => (s.domainsOf c).contains d)).getD false
    let new := (s.events.drop c.seen).filter mine
    new.length ≤ capacity → RanTo (exec (.hostEvents rq capacity) s) (fun t =>
      Replied s t rq ⟨rq.tag, 0, BitVec.ofNat 64 new.length, 0, [], new⟩ (fun c => { c with seen := s.events.length })) := by
  intro c mine new room
  have own : (taken s rq).client rq.client.toNat = { c with read := c.read + 1 } := (Serving.start s rq).own
  have domains : (taken s rq).domainsOf { c with read := c.read + 1 } = s.domainsOf c := modClient_domainsOf s _ _ _
  have events : (taken s rq).events = s.events := rfl
  have found := filter_numbered mine c.seen 0 s.events
  rw [← List.range_eq_range', Nat.sub_zero] at found
  have count := (congrArg List.length found).symm
  rw [List.length_map] at count
  have few := count ▸ room
  have serving := (Serving.start s rq).modClient (g := fun c => { c with seen := s.events.length })
    (fun _ => rfl) (fun _ _ => rfl) (fun _ => rfl)
  refine ⟨_, congrArg Host.Outcome.next (request_served h _), ?_⟩
  simp only [own, domains, events]
  rw [List.take_of_length_le few, if_pos few, found, ← count]
  exact serving.answer _

end

/-- Settles O58: what is refused is refused alike under every code (`requests_hear`), and what each event does with a
request that is served is stated with its own rules above. -/
theorem requestsHaveTheirEffect : Obligations.RequestsHaveTheirEffect := by
  refine ⟨fun s rq rcb va n b p z g ents q code unnamed whole => ?_, fun s rq rcb env b sig plan h resolves => ?_,
    fun s i found => ?_, fun s rq => ?_⟩
  · have hears := requests_hear s rq rcb va n b p z g ents q code unnamed whole
    exact ⟨fun silent x asked => (hears x asked).silent silent,
      fun x asked heard => ⟨(hears x asked).without_firmware heard, (hears x asked).unclean heard⟩,
      fun h => hostUnknownRequest_refused h unnamed⟩
  · exact ⟨fun code i broken => hostLoad_refused h resolves broken plan, hostLoad_placed h resolves⟩
  · exact ⟨loadComplete_loaded found, loadComplete_loading found⟩
  · refine ⟨fun n ents h => ?unload, fun rcb b h => ?launch, fun rcb a va ents h => ?alloc, fun rcb va n ents h => ?free,
      fun rcb z h => ?copy, fun nonce fw h _ runs => hostAttest_signed h runs, fun capacity h => hostEvents_given h⟩
    case unload =>
      exact ⟨hostUnload_unknown h ents, fun i found => ⟨hostUnload_busy h ents found, hostUnload_idle h ents found⟩⟩
    case launch =>
      exact ⟨hostLaunch_full h,
        fun i k x known template uncopied => hostLaunch_waits h (templateMade_uncopied known template uncopied),
        fun i k env region known under own room resolves same count zero done =>
          hostLaunch_started h known under own room resolves same count zero done⟩
    case alloc =>
      refine ⟨fun malformed => hostAlloc_malformed h malformed rcb va ents, fun n size => ⟨?_, hostAlloc_mapped h size⟩⟩
      rintro rfl
      exact hostAlloc_exhausted h size rcb va
    case free => exact ⟨fun unknown => hostFree_unknown h unknown rcb ents, hostFree_unmapped h⟩
    case copy =>
      exact ⟨hostCopy_unmapped h, fun p page uncompressed some_ inside wf =>
        ⟨fun in_ whole near => hostCopy_in h page uncompressed near some_ inside in_ whole wf,
          fun out clean near => hostCopy_out_clean h page uncompressed near some_ inside out clean,
          fun out bad near => hostCopy_out_poisoned h page uncompressed near some_ inside out bad⟩⟩

end Sys2Proof
end

/-! ## Scalar words (R57 to R59) -/

section
namespace Sys2Proof

open Machine

section
variable {s : State} {i : Instr} {d a b : Reg} {l : Bool}

/-- A word that `salu2` performs writes `f` of its operands where its own function gives the same. -/
theorem runsS2_of_salu2 {f g : Word → Word → Word} (runs : exec i s = .next (salu2 g d a b l s))
    (same : g (s.rdS a) (s.rdS b) = f (s.rdS a) (s.rdS b)) : RunsS2 s i d a b l f :=
  ⟨_, runs, same ▸ scalarTo s d a l _⟩

/-- A word that `salu1` performs writes `f` of its operand where its own function gives the same. -/
theorem runsS1_of_salu1 {f g : Word → Word} (runs : exec i s = .next (salu1 g d a l s)) (same : g (s.rdS a) = f (s.rdS a)) :
    RunsS1 s i d a l f :=
  ⟨_, runs, same ▸ scalarTo s d a l _⟩

/-- A word that only writes `f` of its operand. -/
theorem runsS1_of_wrS {f : Word → Word} {x : Word} (runs : exec i s = .next (s.wrS d x)) (same : x = f (s.rdS a)) :
    RunsS1 s i d a false f :=
  ⟨_, runs, same ▸ scalarTo_plain s d a _⟩

end

/-! ### The divisions that have no ordinary quotient (R58) -/

theorem sdivW_zero (x : Word) : sdivW x 0 = 0xFFFFFFFF := if_pos rfl
theorem udivW_zero (x : Word) : udivW x 0 = 0xFFFFFFFF := if_pos rfl
theorem sremW_zero (x : Word) : sremW x 0 = x := if_pos rfl

theorem sdivW_least_neg_one : sdivW 0x80000000 0xFFFFFFFF = 0x80000000 := by decide
theorem udivW_least_greatest : udivW 0x80000000 0xFFFFFFFF = 0 := by decide
theorem sremW_least_neg_one : sremW 0x80000000 0xFFFFFFFF = 0 := by decide

/-! ### Truth values and immediates -/

theorem boolWord_beq (x y : Word) : boolWord (x == y) = if x = y then 1 else 0 := by
  simp [boolWord]

theorem boolWord_decide (p : Prop) [Decidable p] : boolWord (decide p) = if p then 1 else 0 := by
  simp [boolWord]

theorem immU_eq (s : State) (i : BitVec 12) : s.immU i = match s.ctx.ext with
    | some p => p.setWidth 20 ++ i
    | none => i.zeroExtend 32 := by
  unfold State.immU
  cases s.ctx.ext with
  | none => rfl
  | some p => exact congrArg (· ++ i) (BitVec.setWidth_eq_extractLsb' (by decide)).symm

/-- Settles O9: each word is one of `salu1`, `salu2` and a plain write with its function of the operands, which in the corners
of R58 gives the value of its table. -/
theorem scalarWordsWriteTheirResult : Obligations.ScalarWordsWriteTheirResult := by
  refine ⟨fun s d a b n l => ?words, fun s d a b l => ⟨fun zero => ?byZero, fun least minusOne => ?overflow⟩,
    fun s d a i => ?immediates⟩
  case words =>
    obtain ⟨z, le, zeros, one, value⟩ := clzW_spec (s.rdS a)
    exact ⟨runsS2_of_salu2 rfl rfl, runsS2_of_salu2 rfl rfl, runsS2_of_salu2 rfl rfl, runsS2_of_salu2 rfl rfl,
      runsS2_of_salu2 rfl rfl, runsS2_of_salu2 rfl (udivW_eq _ _), runsS2_of_salu2 rfl rfl, runsS2_of_salu2 rfl rfl,
      runsS2_of_salu2 rfl rfl, runsS2_of_salu2 rfl rfl, runsS2_of_salu2 rfl rfl, runsS2_of_salu2 rfl rfl,
      runsS2_of_salu2 rfl (sraW_eq _ _), fun _ => runsS1_of_salu1 rfl rfl, fun _ => runsS1_of_salu1 rfl rfl,
      fun _ => runsS1_of_salu1 rfl rfl, runsS2_of_salu2 rfl (sminW_eq _ _), runsS2_of_salu2 rfl (smaxW_eq _ _),
      runsS2_of_salu2 rfl (boolWord_beq _ _), runsS2_of_salu2 rfl (boolWord_decide _), runsS2_of_salu2 rfl (boolWord_decide _),
      runsS2_of_salu2 rfl rfl, ⟨z, le, zeros, one, runsS1_of_salu1 rfl value⟩, runsS1_of_salu1 rfl rfl,
      runsS1_of_salu1 rfl rfl⟩
  case byZero =>
    exact ⟨runsS2_of_salu2 rfl (zero ▸ sdivW_zero _), runsS2_of_salu2 rfl (zero ▸ udivW_zero _),
      runsS2_of_salu2 rfl (zero ▸ sremW_zero _)⟩
  case overflow =>
    exact ⟨runsS2_of_salu2 rfl (by rw [least, minusOne, sdivW_least_neg_one]),
      runsS2_of_salu2 rfl (by rw [least, minusOne, udivW_least_greatest]),
      runsS2_of_salu2 rfl (by rw [least, minusOne, sremW_least_neg_one])⟩
  case immediates =>
    intro signed unsigned
    exact ⟨runsS1_of_wrS rfl (congrArg (s.rdS a + ·) (immS_eq s i)),
      runsS1_of_wrS rfl (congrArg (s.rdS a &&& ·) (immS_eq s i)),
      runsS1_of_wrS rfl (congrArg (s.rdS a ||| ·) (immU_eq s i))⟩

end Sys2Proof
end

/-! ## Transfers, the split table and the rejoin stack (R60 to R67) -/

section
namespace Sys2Proof

open Machine

/-! ### Where a split goes -/

theorem target_offset (s : State) {n : Nat} (o : BitVec n) : s.target (s.offset o) = reach s o := by
  unfold State.target State.offset reach
  cases s.ctx.ext <;> simp [BitVec.ofInt_add]

theorem setSplit_eq_withSplit {s : State} {e : Split} (held : s.split = some e) (f : Split → Split) :
    s.setSplit f = withSplit s (f e) := State.setSplit_of_split f held

theorem transfer_eq {s : State} {e : Split} (held : s.split = some e) (p : Word) :
    s.transfer p = withSplit s (sentTo s e p) := setSplit_eq_withSplit held _

@[simp] theorem withSplit_split (s : State) (e : Split) : (withSplit s e).split = some e :=
  (Level.split?_setSplit _ _ _ _).trans (if_pos rfl)

theorem withSplit_split?_other (s : State) (e : Split) {k : BitVec 2} (other : k ≠ s.ctx.sp) :
    (withSplit s e).thr.level.split? k = s.thr.level.split? k :=
  (Level.split?_setSplit _ _ _ _).trans (if_neg other.symm)

@[simp] theorem withSplit_withSplit (s : State) (e g : Split) : withSplit (withSplit s e) g = withSplit s g := by
  simp [withSplit, Level.setSplit_setSplit]

/-- The condition of BRU (R61). -/
theorem bruTaken_iff (q : BitVec 2) (x : Word) : bruTaken q x = true ↔
    (if q = 0 then x = 0 else if q = 1 then x ≠ 0 else if q = 2 then x.toInt < 0 else 0 ≤ x.toInt) := by
  have code : q = 0 ∨ q = 1 ∨ q = 2 ∨ q = 3 := by revert q; decide
  rcases code with rfl | rfl | rfl | rfl <;> simp [bruTaken, BitVec.msb_eq_toInt]

/-! ### Slots of the stack -/

@[simp] theorem Level.split?_setEntry (l : Level) (j : BitVec 4) (r : Option Rejoin) (i : BitVec 2) :
    (l.setEntry j r).split? i = l.split? i := rfl

@[simp] theorem Level.entry?_setSplit (l : Level) (i : BitVec 2) (e : Option Split) (j : BitVec 4) :
    (l.setSplit i e).entry? j = l.entry? j := rfl

theorem Level.entry?_setEntry (l : Level) (i j : BitVec 4) (r : Option Rejoin) :
    (l.setEntry i r).entry? j = if i = j then r else l.entry? j := by
  unfold Level.entry? Level.setEntry
  rw [Vector.getElem?_set]
  simp only [BitVec.toNat_inj]
  split <;> simp

/-- The slots before a slot, the slot, and those above it. -/
theorem stackSlots_split (j : BitVec 4) : stackSlots = stackSlots.take j.toNat ++ j :: stackSlots.drop (j.toNat + 1) ∧
    ∀ k ∈ stackSlots.drop (j.toNat + 1), j < k := by
  revert j
  decide

theorem foldl_unchanged {α β : Type} {f : β → α → β} {v : β} {xs : List α} (same : ∀ x ∈ xs, f v x = v) :
    xs.foldl f v = v := by
  induction xs with
  | nil => rfl
  | cons x xs ih =>
    rw [List.foldl_cons, same x List.mem_cons_self]
    exact ih fun y among => same y (List.mem_cons_of_mem _ among)

/-- What a search of the stack from slot 0 upward ends with: what it makes of the highest slot that counts. -/
theorem foldl_stackSlots_of_highest {β : Type} {f : β → BitVec 4 → β} {v r : β} (j : BitVec 4) (counts : ∀ r, f r j = v)
    (above : ∀ k, j < k → f v k = v) : stackSlots.foldl f r = v := by
  obtain ⟨split, higher⟩ := stackSlots_split j
  rw [split, List.foldl_append, List.foldl_cons, counts]
  exact foldl_unchanged fun k among => above k (higher k among)

/-- The depth of the stack is the first slot above those in use (R64). -/
theorem depth_eq_toNat {l : Level} {n : BitVec 4} (free : ∀ k, n ≤ k → l.entry? k = none)
    (used : n ≠ 0 → l.entry? (n - 1) ≠ none) : l.depth = n.toNat := by
  unfold Level.depth
  by_cases zero : n = 0
  · subst zero
    exact foldl_unchanged fun k _ => by simp [free k (by bv_omega)]
  · have top : (n - 1).toNat + 1 = n.toNat := by bv_omega
    rw [← top]
    refine foldl_stackSlots_of_highest (n - 1) (fun r => if_pos (Option.isSome_iff_ne_none.mpr (used zero))) fun k above => ?_
    simp [free k (by bv_omega)]

theorem pushSlot_of_depth {l : Level} {n : BitVec 4} (depth : l.depth = n.toNat) : l.pushSlot = some n := by
  unfold Level.pushSlot
  rw [depth, if_pos n.isLt, BitVec.ofNat_toNat, BitVec.setWidth_eq]

theorem pushSlot_of_full {l : Level} (full : l.depth = 16) : l.pushSlot = none := by
  unfold Level.pushSlot
  rw [full, if_neg (by decide)]

/-- MJOIN with room on the stack (R67). -/
theorem execMjoin_pushes {s : State} {e : Split} {n : BitVec 4} (held : s.split = some e)
    (room : s.thr.level.pushSlot = some n) (o : BitVec 19) : execMjoin o s = .next
      (withSplit (s.setLevel (s.thr.level.setEntry n (some (.join (reach s o) e.frame 0 0)))) { e with frame := some n }) := by
  have pushed : (s.setLevel (s.thr.level.setEntry n (some (.join (reach s o) e.frame 0 0)))).split = some e := held
  unfold execMjoin
  rw [room, target_offset, held]
  exact congrArg Host.Outcome.next (setSplit_eq_withSplit pushed _)

/-- Settles O18: a transfer is `withSplit` of `sentTo`, and MJOIN pushes at the depth of the stack. -/
theorem controlTransfersReachTheirTarget : Obligations.ControlTransfersReachTheirTarget := by
  refine ⟨fun s e held => ⟨fun o => ?br, fun o => ?call, fun c q o => ?bru, ?ret, fun n => ?jmpr⟩,
    fun s e o n held free used => ?mjoin⟩
  case br => exact congrArg Host.Outcome.next ((transfer_eq held _).trans (by rw [target_offset]))
  case call =>
    have wrote := (ScalarsTo.refl s).write 59 (s.ctx.pc + 1) (by decide)
    refine ⟨s.wrSn 59 (s.ctx.pc + 1), wrote, congrArg Host.Outcome.next ?_⟩
    rw [target_offset]
    exact transfer_eq (s := s.wrSn 59 (s.ctx.pc + 1)) held _
  case bru =>
    change execBru c q o s = _
    unfold execBru
    rw [transfer_eq held, target_offset, apply_ite Host.Outcome.next]
    exact if_congr (bruTaken_iff _ _) rfl rfl
  case ret => exact congrArg Host.Outcome.next (transfer_eq held _)
  case jmpr => exact congrArg Host.Outcome.next (transfer_eq held _)
  case mjoin =>
    have room := pushSlot_of_depth (depth_eq_toNat free used)
    refine ⟨_, execMjoin_pushes held room o, rfl, withSplit_split _ _, ?_, rfl, fun k other => ?_, fun k other => ?_⟩
    · exact (Level.entry?_setEntry _ _ _ _).trans (if_pos rfl)
    · exact (Level.entry?_setEntry _ _ _ _).trans (if_neg other.symm)
    · exact withSplit_split?_other _ _ other

end Sys2Proof
end

/-! ## BRS divides the lanes (R65, R66) -/

section
namespace Sys2Proof

open Machine

/-! ### A free entry of the split table -/

/-- The entries before an entry, the entry, and those above it. -/
theorem splitSlots_split (i : BitVec 2) : splitSlots = splitSlots.take i.toNat ++ i :: splitSlots.drop (i.toNat + 1) ∧
    ∀ k, k ∈ splitSlots.take i.toNat ↔ k < i := by
  revert i
  decide

/-- The free entry that a split takes is the lowest (R65). -/
theorem freeEntry_of_lowest {l : Level} {i : BitVec 2} (free : l.split? i = none) (below : ∀ j, j < i → l.split? j ≠ none) :
    l.freeEntry = some i := by
  obtain ⟨split, lower⟩ := splitSlots_split i
  refine List.find?_eq_some_iff_append.mpr ⟨by simp [free], _, _, split, fun j among => ?_⟩
  simpa using Option.ne_none_iff_isSome.mp (below j ((lower j).mp among))

theorem freeEntry_of_full {l : Level} (full : ∀ j, l.split? j ≠ none) : l.freeEntry = none :=
  List.find?_eq_none.mpr fun j _ => by simp [full j]

/-! ### Words that splits are parked at -/

/-- The words that a split is parked at, changed. -/
def Split.mapWords (g : ParkedWord → ParkedWord) (e : Split) : Split :=
  { e with parked := e.parked.map g, also := e.also.map g }

theorem Level.split?_mapWords (l : Level) (g : ParkedWord → ParkedWord) (k : BitVec 2) :
    (l.mapWords g).split? k = (l.split? k).map (Split.mapWords g) := by
  unfold Level.split? Level.mapWords
  rw [Vector.getElem?_map]
  cases l.splits[k.toNat]? with
  | none => rfl
  | some e => rfl

/-- The flights of a thread's current level are changed, and no others. -/
theorem mapFlights_eq (s : State) (k : TKey) (g : Flight → Flight) : s.mapFlights k g =
    { s with flights := s.flights.map (fun x => if x.key = k ∧ x.inBase = false then g x else x) } := by
  simp only [State.mapFlights, Bool.and_eq_true, beq_iff_eq, Bool.not_eq_true']

theorem mem_mapFlights {s : State} {k : TKey} {g : Flight → Flight} {f : Flight} : f ∈ (s.mapFlights k g).flights ↔
    ∃ x ∈ s.flights, f = if x.key = k ∧ x.inBase = false then g x else x := by
  rw [mapFlights_eq]
  exact List.mem_map.trans (exists_congr fun x => and_congr_right fun _ => eq_comm)

/-- Between `s` and `u` only the level of the thread in focus and the words in flight may have changed. -/
def LevelAndFlightsOnly (s u : State) : Prop := u = { s with thr := { s.thr with level := u.thr.level }, flights := u.flights }

theorem LevelAndFlightsOnly.refl (s : State) : LevelAndFlightsOnly s s := rfl

theorem LevelAndFlightsOnly.setLevel {s u : State} (h : LevelAndFlightsOnly s u) (l : Level) :
    LevelAndFlightsOnly s (u.setLevel l) := by
  unfold LevelAndFlightsOnly at h
  rw [h]
  rfl

theorem LevelAndFlightsOnly.mapFlights {s u : State} (h : LevelAndFlightsOnly s u) (k : TKey) (g : Flight → Flight) :
    LevelAndFlightsOnly s (u.mapFlights k g) := by
  unfold LevelAndFlightsOnly at h
  rw [h]
  rfl

/-! ### Results owed to both sides (R77) -/

/-- A parked word whose result is owed to split `sp` owes it to entry `i` too. -/
def alsoSplit (sp i : BitVec 2) (w : ParkedWord) : ParkedWord :=
  if w.splits.getLsbD sp.toNat = true then { w with splits := w.splits ||| ((1 : BitVec 4) <<< i.toNat) } else w

/-- A parked word whose result is owed to split `sp` owes it to pending entry `n` too. -/
def alsoPending (sp : BitVec 2) (n : BitVec 4) (w : ParkedWord) : ParkedWord :=
  if w.splits.getLsbD sp.toNat = true then { w with pends := w.pends ||| ((1 : BitVec 16) <<< n.toNat) } else w

theorem shareFlights_level (s : State) (i : BitVec 2) :
    (s.shareFlights i).thr.level = s.thr.level.mapWords (alsoSplit s.ctx.sp i) := by
  refine congrArg s.thr.level.mapWords (funext fun w => ?_)
  unfold alsoSplit
  split
  next mine => simp [mine]
  next mine => simp [mine]

theorem sharePending_level (s : State) (n : BitVec 4) :
    (s.sharePending n).thr.level = s.thr.level.mapWords (alsoPending s.ctx.sp n) := by
  refine congrArg s.thr.level.mapWords (funext fun w => ?_)
  unfold alsoPending
  split
  next mine => simp [mine]
  next mine => simp [mine]

theorem mem_shareFlights {s : State} {i : BitVec 2} {f : Flight} : f ∈ (s.shareFlights i).flights ↔
    ∃ g ∈ s.flights, f = if g.key = s.thr.key ∧ g.inBase = false ∧ g.splits.getLsbD s.ctx.sp.toNat = true then
      { g with splits := g.splits ||| ((1 : BitVec 4) <<< i.toNat) } else g := by
  refine mem_mapFlights.trans (exists_congr fun g => and_congr_right fun _ => ?_)
  by_cases mine : g.splits.getLsbD s.ctx.sp.toNat = true <;> simp [mine]

theorem mem_sharePending {s : State} {n : BitVec 4} {f : Flight} : f ∈ (s.sharePending n).flights ↔
    ∃ g ∈ s.flights, f = if g.key = s.thr.key ∧ g.inBase = false ∧ g.splits.getLsbD s.ctx.sp.toNat = true then
      { g with pends := g.pends ||| ((1 : BitVec 16) <<< n.toNat) } else g := by
  refine mem_mapFlights.trans (exists_congr fun g => and_congr_right fun _ => ?_)
  by_cases mine : g.splits.getLsbD s.ctx.sp.toNat = true <;> simp [mine]

/-! ### The modes of BRS -/

section
variable {s : State} {e : Split} {m : Reg} {o : BitVec 16}

/-- BRS on all lanes, on any, and on none goes to its target or falls through. -/
theorem execBrs_whole (held : s.split = some e) :
    execBrs m 1 o s = .next (if s.rdMask m &&& s.cur = s.cur then withSplit s (sentTo s e (reach s o)) else s) ∧
    execBrs m 2 o s = .next (if s.rdMask m &&& s.cur ≠ 0 then withSplit s (sentTo s e (reach s o)) else s) ∧
    execBrs m 3 o s = .next (if s.rdMask m &&& s.cur = 0 then withSplit s (sentTo s e (reach s o)) else s) := by
  simp only [apply_ite Host.Outcome.next, ← transfer_eq held, ← target_offset]
  exact ⟨rfl, rfl, rfl⟩

theorem execBrs_none (empty : s.rdMask m &&& s.cur = 0) : execBrs m 0 o s = .next s := if_pos empty

theorem execBrs_all (held : s.split = some e) (some_ : s.rdMask m &&& s.cur ≠ 0) (all : s.rdMask m &&& s.cur = s.cur) :
    execBrs m 0 o s = .next (withSplit s (sentTo s e (reach s o))) := by
  rw [← transfer_eq held, ← target_offset]
  exact (if_neg some_).trans (if_pos all)

/-- The split's entry with the lanes that do not branch. -/
def restOf (s : State) (m : Reg) (e : Split) : Split :=
  { e with cur := e.cur &&& ~~~(s.rdMask m &&& s.cur), owned := e.owned &&& ~~~(s.rdMask m &&& s.cur) }

/-- The split's entry with the lanes that branch. -/
def takenOf (s : State) (m : Reg) (e : Split) : Split :=
  { e with cur := e.cur &&& (s.rdMask m &&& s.cur), owned := e.owned &&& (s.rdMask m &&& s.cur) }

/-- The split that takes the lanes that branch, in a free entry. -/
def sideOf (s : State) (m : Reg) (o : BitVec 16) (e : Split) : Split :=
  { Split.opened s ⟨reach s o, 0⟩ (s.rdMask m &&& s.cur) (s.rdMask m &&& s.cur) e.frame with
    xfer := some ⟨s.ctx.pc, s.ctx.gslot⟩ }

/-- The level with the lanes that do not branch in a pending entry. -/
def pushedRest (s : State) (m : Reg) (e : Split) (n : BitVec 4) : State :=
  (s.setLevel (s.thr.level.setEntry n (some
    (.pending s.ctx.next (s.cur &&& ~~~(s.rdMask m &&& s.cur)) (e.owned &&& ~~~(s.rdMask m &&& s.cur)) e.frame)))).sharePending n

theorem pushedRest_only (s : State) (m : Reg) (e : Split) (n : BitVec 4) : LevelAndFlightsOnly s (pushedRest s m e n) :=
  (((LevelAndFlightsOnly.refl s).setLevel _).setLevel _).mapFlights _ _

theorem pushedRest_level (s : State) (m : Reg) (e : Split) (n : BitVec 4) : (pushedRest s m e n).thr.level =
    (s.thr.level.setEntry n (some (.pending s.ctx.next (s.cur &&& ~~~(s.rdMask m &&& s.cur))
      (e.owned &&& ~~~(s.rdMask m &&& s.cur)) e.frame))).mapWords (alsoPending s.ctx.sp n) := sharePending_level _ _

theorem mem_pushedRest_flights (s : State) (m : Reg) (e : Split) (n : BitVec 4) (f : Flight) :
    f ∈ (pushedRest s m e n).flights ↔ ∃ g ∈ s.flights, f =
      if g.key = s.thr.key ∧ g.inBase = false ∧ g.splits.getLsbD s.ctx.sp.toNat = true then
        { g with pends := g.pends ||| ((1 : BitVec 16) <<< n.toNat) } else g := mem_sharePending

/-- The level with the lanes that do not branch kept in their entry, and those that branch in entry `i`. -/
def dividedAt (s : State) (m : Reg) (o : BitVec 16) (e : Split) (i : BitVec 2) : State :=
  (s.setLevel ((s.thr.level.setSplit s.ctx.sp (some (restOf s m e))).setSplit i (some (sideOf s m o e)))).shareFlights i

theorem dividedAt_only (s : State) (m : Reg) (o : BitVec 16) (e : Split) (i : BitVec 2) :
    LevelAndFlightsOnly s (dividedAt s m o e i) :=
  (((LevelAndFlightsOnly.refl s).setLevel _).setLevel _).mapFlights _ _

theorem dividedAt_level (s : State) (m : Reg) (o : BitVec 16) (e : Split) (i : BitVec 2) : (dividedAt s m o e i).thr.level =
    ((s.thr.level.setSplit s.ctx.sp (some (restOf s m e))).setSplit i (some (sideOf s m o e))).mapWords
      (alsoSplit s.ctx.sp i) := shareFlights_level _ _

theorem dividedAt_split? (s : State) (m : Reg) (o : BitVec 16) (e : Split) (i k : BitVec 2) :
    (dividedAt s m o e i).thr.level.split? k = if i = k then some (sideOf s m o e) else
      (if s.ctx.sp = k then some (restOf s m e) else s.thr.level.split? k).map (Split.mapWords (alsoSplit s.ctx.sp i)) := by
  rw [dividedAt_level, Level.split?_mapWords, Level.split?_setSplit, Level.split?_setSplit, apply_ite (Option.map _)]
  rfl

theorem mem_dividedAt_flights (s : State) (m : Reg) (o : BitVec 16) (e : Split) (i : BitVec 2) (f : Flight) :
    f ∈ (dividedAt s m o e i).flights ↔ ∃ g ∈ s.flights, f =
      if g.key = s.thr.key ∧ g.inBase = false ∧ g.splits.getLsbD s.ctx.sp.toNat = true then
        { g with splits := g.splits ||| ((1 : BitVec 4) <<< i.toNat) } else g := mem_shareFlights

variable (held : s.split = some e) (some_ : s.rdMask m &&& s.cur ≠ 0) (others : s.rdMask m &&& s.cur ≠ s.cur)
include held some_ others

/-- BRS with lanes on both sides and a free entry (R65). -/
theorem execBrs_splits {i : BitVec 2} (free : s.thr.level.freeEntry = some i) :
    execBrs m 0 o s = .next (dividedAt s m o e i) := by
  refine (if_neg some_).trans ((if_neg others).trans ?_)
  rw [free, State.setSplit_of_split _ held, held, target_offset]
  rfl

/-- BRS with lanes on both sides and no free entry (R66). -/
theorem execBrs_pushes {n : BitVec 4} (full : s.thr.level.freeEntry = none) (room : s.thr.level.pushSlot = some n) :
    execBrs m 0 o s = .next (withSplit (pushedRest s m e n)
      (sentTo s (takenOf s m (Split.mapWords (alsoPending s.ctx.sp n) e)) (reach s o))) := by
  have pushed : (pushedRest s m e n).split = some (Split.mapWords (alsoPending s.ctx.sp n) e) := by
    change (pushedRest s m e n).thr.level.split? s.ctx.sp = _
    rw [pushedRest_level, Level.split?_mapWords, Level.split?_setEntry, show s.thr.level.split? s.ctx.sp = some e from held]
    rfl
  have sent : ((pushedRest s m e n).setSplit (takenOf s m)).transfer (reach s o) = withSplit (pushedRest s m e n)
      (sentTo s (takenOf s m (Split.mapWords (alsoPending s.ctx.sp n) e)) (reach s o)) := by
    rw [setSplit_eq_withSplit pushed, transfer_eq (withSplit_split _ _), withSplit_withSplit]
    rfl
  refine (if_neg some_).trans ((if_neg others).trans ?_)
  rw [full, room, held, target_offset, ← sent]
  rfl

end

/-- Settles O19: the modes that move the whole split, then the two ways in which lanes on both sides part, each by the level
that it leaves. -/
theorem splitBranchesDivideTheLanes : Obligations.SplitBranchesDivideTheLanes := by
  intro s e m o held t go rest taken mine words
  obtain ⟨all, any, none_⟩ := execBrs_whole (m := m) (o := o) held
  refine ⟨all, any, none_, execBrs_none, execBrs_all held, fun some_ others i free below => ?divided,
    fun some_ others full n depth => ?pushed⟩
  case divided =>
    have apart : i ≠ s.ctx.sp := by
      rintro rfl
      exact Option.some_ne_none e (held.symm.trans free)
    refine ⟨_, execBrs_splits held some_ others (freeEntry_of_lowest free below), dividedAt_only s m o e i, ?_, ?_,
      ?_, ?_, fun k other mine => ?_, mem_dividedAt_flights s m o e i⟩
    · exact (dividedAt_split? s m o e i s.ctx.sp).trans ((if_neg apart).trans (congrArg _ (if_pos rfl)))
    · exact (congrArg Level.stack (dividedAt_level s m o e i) :)
    · exact (congrArg Level.loops (dividedAt_level s m o e i) :)
    · exact ⟨_, (dividedAt_split? s m o e i i).trans (if_pos rfl), rfl, rfl, rfl, rfl, rfl, rfl, rfl⟩
    · exact (dividedAt_split? s m o e i k).trans ((if_neg other.symm).trans (congrArg _ (if_neg mine.symm)))
  case pushed =>
    have level := pushedRest_level s m e n
    refine ⟨_, execBrs_pushes held some_ others (freeEntry_of_full full) (pushSlot_of_depth depth),
      (pushedRest_only s m e n).setLevel _, withSplit_split _ _, ?_, fun k other => ?_,
      mem_pushedRest_flights s m e n, ?_, fun k other => ?_⟩
    · exact (congrArg Level.loops level :)
    · refine (withSplit_split?_other (pushedRest s m e n) _ other).trans ?_
      rw [level, Level.split?_mapWords]
      rfl
    · exact (congrArg (Level.entry? · n) level :).trans ((Level.entry?_setEntry _ _ _ _).trans (if_pos rfl))
    · exact (congrArg (Level.entry? · k) level :).trans ((Level.entry?_setEntry _ _ _ _).trans (if_neg other.symm))

end Sys2Proof
end

/-! ## Arrivals, and the splits that leave (R68, R69) -/

section
namespace Sys2Proof

open Machine

/-! ### The pending entry that a frame resumes -/

/-- The most recently pushed pending entry of a frame is the one in the highest slot (R68). -/
theorem pendingOf_of_highest {l : Level} {f j : BitVec 4} {p : Place} {c o : Mask}
    (pending : l.entry? j = some (.pending p c o (some f)))
    (highest : ∀ k p c o, j < k → l.entry? k ≠ some (.pending p c o (some f))) : l.pendingOf f = some (j, p, c, o) := by
  unfold Level.pendingOf
  refine foldl_stackSlots_of_highest j (fun r => by simp [pending]) fun k above => ?_
  split
  next p c o g found =>
    refine if_neg ?_
    rintro rfl
    exact highest k p c o above found
  all_goals rfl

theorem pendingOf_of_none {l : Level} {f : BitVec 4} (none_ : ∀ j p c o, l.entry? j ≠ some (.pending p c o (some f))) :
    l.pendingOf f = none := by
  unfold Level.pendingOf
  refine foldl_unchanged fun k _ => ?_
  split
  next p c o g found =>
    refine if_neg ?_
    rintro rfl
    exact none_ k p c o found
  all_goals rfl

/-- With an entry free, the lowest one is taken (R65). -/
theorem exists_freeEntry {l : Level} {sp : BitVec 2} (free : l.split? sp = none) :
    ∃ i, l.freeEntry = some i ∧ l.split? i = none ∧ ∀ k, k < i → l.split? k ≠ none := by
  obtain ⟨i, lowest, least⟩ := (measure BitVec.toNat).wf.has_min {k | l.split? k = none} ⟨sp, free⟩
  have below (k : BitVec 2) (lt : k < i) : l.split? k ≠ none := fun empty => least k empty lt
  exact ⟨i, freeEntry_of_lowest lowest below, lowest, below⟩

/-! ### An arrival at a frame -/

section
variable {s : State} {sp : BitVec 2} {cur owned : Mask} {e : Split} (held : s.thr.level.split? sp = some e)
include held

theorem arrive_of_due {x : Trap} (due : e.due = some x) :
    s.arrive sp cur owned = (s.arriveAt sp cur owned).trapDue sp false x := by
  unfold State.arrive
  rw [held, Option.bind_some, due]

theorem arrive_of_no_due (due : e.due = none) : s.arrive sp cur owned = s.arriveAt sp cur owned := by
  unfold State.arrive
  rw [held, Option.bind_some, due]

theorem arriveAt_frameless (frame : e.frame = none) :
    s.arriveAt sp cur owned = s.setLevel (s.thr.level.setSplit sp none) := by
  unfold State.arriveAt
  rw [held]
  dsimp only
  rw [frame]

variable {f : BitVec 4} {target : Word} {parent : Option (BitVec 4)} {ac ao : Mask} (frame : e.frame = some f)
  (joins : s.thr.level.entry? f = some (.join target parent ac ao)) {l : Level}
  (arrived : l = (s.thr.level.setSplit sp none).setEntry f (some (.join target parent (ac ||| cur) (ao ||| owned))))
include frame joins arrived

/-- The frame resumes its most recently pushed pending entry (R68). -/
theorem arriveAt_opens {j : BitVec 4} {i : BitVec 2} {p : Place} {c o : Mask} (pending : l.pendingOf f = some (j, p, c, o))
    (free : l.freeEntry = some i) (inside : p.slot ≠ 3) :
    let opened := (l.setEntry j none).setSplit i (some (Split.opened s p c o (some f)))
    s.arriveAt sp cur owned =
      (s.setLevel (opened.mapWords (fun x =>
        { x with splits := (pendsTo j i x.splits x.pends).1, pends := (pendsTo j i x.splits x.pends).2 }))).mapFlights s.thr.key
        (fun x => { x with splits := (pendsTo j i x.splits x.pends).1, pends := (pendsTo j i x.splits x.pends).2 }) := by
  subst arrived
  simp only [State.arriveAt, held, frame, Level.entry?_setSplit, joins, pending, free, if_neg inside]

/-- The frame is still in the chain of a split: the arrivals wait (R68). -/
theorem arriveAt_waits (none_ : l.pendingOf f = none) (open_ : l.held f = true) : s.arriveAt sp cur owned = s.setLevel l := by
  subst arrived
  simp only [State.arriveAt, held, frame, Level.entry?_setSplit, joins, none_, open_, if_true]

/-- Nothing holds the frame open: the arrived splits merge at its target (R68). -/
theorem arriveAt_merges {i : BitVec 2} (none_ : l.pendingOf f = none) (free : l.freeEntry = some i) (closed : l.held f = false) :
    s.arriveAt sp cur owned = s.setLevel
      ((l.setEntry f none).setSplit i (some (Split.opened s ⟨target, 0⟩ (ac ||| cur) (ao ||| owned) parent))) := by
  subst arrived
  simp only [State.arriveAt, held, frame, Level.entry?_setSplit, joins, none_, free, closed, Bool.false_eq_true, if_false]

end

/-! ### The hand-on of the Ladle leaves the threads and the words in flight -/

/-- Between `s` and `u` the threads, the words in flight and the issue context are as they were. -/
structure WavesKept (s u : State) : Prop where
  ctx : u.ctx = s.ctx
  thr : u.thr = s.thr
  live : u.live = s.live
  threads : u.threads = s.threads
  flights : u.flights = s.flights

namespace WavesKept

variable {s u w : State}

theorem refl (s : State) : WavesKept s s := ⟨rfl, rfl, rfl, rfl, rfl⟩

theorem trans (h : WavesKept s u) (g : WavesKept u w) : WavesKept s w :=
  ⟨g.ctx.trans h.ctx, g.thr.trans h.thr, g.live.trans h.live, g.threads.trans h.threads, g.flights.trans h.flights⟩

theorem disown (s : State) (w : Nat) : WavesKept s (s.disown w) := by constructor <;> simp

theorem disownAll (ws : List Nat) (s : State) : WavesKept s (ws.foldl State.disown s) := by
  induction ws generalizing s with
  | nil => exact refl s
  | cons w ws ih => exact (disown s w).trans (ih _)

theorem engineWrite (s : State) (pa : Nat) (bs : List Byte) : WavesKept s (s.engineWrite pa bs) :=
  trans (u := s.homeWrite pa bs) ⟨rfl, rfl, rfl, rfl, rfl⟩ (disownAll _ _)

theorem diverge (s : State) (rcb cause : Nat) (seq index : Word) : WavesKept s (s.diverge rcb cause seq index) :=
  (engineWrite s _ _).trans ⟨rfl, rfl, rfl, rfl, rfl⟩

theorem modRegion (s : State) (rcb : Nat) (f : Region → Region) : WavesKept s (s.modRegion rcb f) := ⟨rfl, rfl, rfl, rfl, rfl⟩

theorem handOn (s : State) (k : TKey) (rcb : Nat) : WavesKept s (s.handOn k rcb) := by
  unfold State.handOn
  split
  · exact refl s
  · dsimp only
    split_ifs
    · exact (diverge s _ _ _ _).trans (modRegion _ _ _)
    · exact modRegion s _ _
    · exact refl s

theorem split (h : WavesKept s u) : u.split = s.split := by
  unfold State.split
  rw [h.ctx, h.thr]

/-- The results that a split waits for are the same. -/
theorem pendingResults (h : WavesKept s u) (sp : BitVec 2) : u.pendingResults sp = s.pendingResults sp := by
  simp only [State.pendingResults, State.outstanding, State.waitsResults, State.thread?, State.allThreads, h.thr, h.live,
    h.threads, h.flights]

end WavesKept

/-! ### A thread that retires -/

theorem Acts.keys {s t : State} (h : Acts s t) : t.threads.map Thread.key = s.threads.map Thread.key := by
  obtain ⟨length, each⟩ := h
  refine List.ext_getElem (by simp [length]) fun n after before => ?_
  rw [List.length_map] at after before
  have same := (each n _ _ (List.getElem?_eq_getElem before) (List.getElem?_eq_getElem after)).1
  rw [List.getElem_map, List.getElem_map, same]

theorem retireThread_live (s : State) : s.retireThread.live = false := rfl

section
variable {s : State} {sp : BitVec 2}

/-- In trap mode a split that leaves takes its thread with it (R357). -/
theorem leave_of_trapMode (trapMode : s.thr.base ≠ none) : s.leave sp = s.retireThread :=
  if_pos (Option.isSome_iff_ne_none.mpr trapMode)

variable (level : s.thr.base = none)
include level

theorem leave_of_left (left : (s.arrive sp 0 0).thr.level.empty = false) : s.leave sp = s.arrive sp 0 0 := by
  unfold State.leave
  rw [level]
  exact if_neg (ne_true_of_eq_false left)

theorem leave_of_empty (empty : (s.arrive sp 0 0).thr.level.empty = true) : s.leave sp = (s.arrive sp 0 0).retireThread := by
  unfold State.leave
  rw [level]
  exact if_pos empty

end

/-! ### JOIN and EXIT -/

section
variable {s : State} {e : Split} (held : s.split = some e)
include held

theorem execJoin_waits (frame : e.frame ≠ none) (owed : s.pendingResults s.ctx.sp = true) :
    execJoin s = .next (waitsAt s e .join) := by
  unfold execJoin
  rw [held]
  simp [frame, owed, waitFor_eq_waitsAt held]

theorem execJoin_arrives (frame : e.frame ≠ none) (free : s.pendingResults s.ctx.sp = false) :
    execJoin s = .next (gone (s.arrive s.ctx.sp e.cur e.owned)) := by
  unfold execJoin
  rw [held]
  simp [frame, free, gone]

theorem execExit_waits (busy : s.pendingResults s.ctx.sp = true ∨ (s.handOn s.thr.key s.thr.env.rcb).mccBusy = true) :
    execExit s = .next (waitsAt (s.handOn s.thr.key s.thr.env.rcb) e .exit) := by
  have kept := WavesKept.handOn s s.thr.key s.thr.env.rcb
  unfold execExit
  rw [← waitFor_eq_waitsAt (kept.split.trans held)]
  refine if_pos ?_
  rw [Bool.or_eq_true, kept.pendingResults, kept.ctx]
  exact busy

end

theorem execExit_leaves {s : State} (free : s.pendingResults s.ctx.sp = false)
    (idle : (s.handOn s.thr.key s.thr.env.rcb).mccBusy = false) :
    execExit s = .next (gone ((s.handOn s.thr.key s.thr.env.rcb).leave s.ctx.sp)) := by
  have kept := WavesKept.handOn s s.thr.key s.thr.env.rcb
  unfold execExit
  refine (if_neg ?_).trans ?_
  · rw [Bool.or_eq_true, kept.pendingResults, kept.ctx, free, idle]
    simp
  · rw [kept.ctx]
    rfl

/-- EXIT with nothing owed, where the thread retires: its focus ends, and the other threads stay (R69). -/
theorem execExit_retires {s u : State} (free : s.pendingResults s.ctx.sp = false)
    (idle : (s.handOn s.thr.key s.thr.env.rcb).mccBusy = false)
    (leaves : (s.handOn s.thr.key s.thr.env.rcb).leave s.ctx.sp = u.retireThread) (kept : u.threads = s.threads) :
    RanTo (execExit s) (fun t => t.live = false ∧ t.threads.map Thread.key = s.threads.map Thread.key) :=
  ⟨_, (execExit_leaves free idle).trans (congrArg (fun t => Host.Outcome.next (gone t)) leaves), retireThread_live u,
    (acts_retireThread u).keys.trans (congrArg _ kept)⟩

/-! ### The events of a split that waited -/

section
variable {s u : State} {k : TKey} {sp : BitVec 2} {e : Split} (focus : s.focus k = some u)
  (held : u.thr.level.split? sp = some e) (free : u.pendingResults sp = false)
include focus held free

theorem execJoinArrive_arrives (wait : e.wait = .join) : execJoinArrive k sp s = .next (u.arrive sp e.cur e.owned) := by
  unfold execJoinArrive
  rw [forSplit_eq focus held, if_pos ⟨wait, by simp [free]⟩]

theorem execSplitLeave_leaves (wait : e.wait = .exit) (idle : u.mccBusy = false) :
    execSplitLeave k sp s = .next (u.leave sp) := by
  unfold execSplitLeave
  rw [forSplit_eq focus held, if_pos ⟨wait, by simp [free], by simp [idle]⟩]

end

/-- Settles O20: an arrival by what its frame's entry and the highest pending entry of the frame make of it, JOIN and EXIT by
whether results are owed, and retirement by what the thread leaves. -/
theorem arrivalsReleaseOrMerge : Obligations.ArrivalsReleaseOrMerge := by
  refine ⟨fun s sp cur owned e held => ?arrivals, fun s e held => ⟨execJoin_waits held, execJoin_arrives held, ?exit⟩,
    fun s u k sp e focus held free => ⟨execJoinArrive_arrives focus held free, execSplitLeave_leaves focus held free⟩⟩
  case arrivals =>
    refine ⟨fun x due => arrive_of_due held due, arrive_of_no_due held, arriveAt_frameless held,
      fun f target parent ac ao frame joins => ?_⟩
    intro l
    have left : l.split? sp = none := (Level.split?_setSplit _ _ _ _).trans (if_pos rfl)
    obtain ⟨i, free, lowest, least⟩ := exists_freeEntry left
    refine ⟨fun j p c o pending highest => ⟨i, lowest, least, ?_⟩,
      fun none_ => ⟨arriveAt_waits held frame joins rfl (pendingOf_of_none none_), fun closed => ⟨i, lowest, least, ?_⟩⟩⟩
    · intro passed rest opened inside
      rw [arriveAt_opens held frame joins rfl (pendingOf_of_highest pending highest) free inside, mapFlights_eq]
      rfl
    · exact arriveAt_merges held frame joins rfl (pendingOf_of_none none_) free closed
  case exit =>
    intro h
    have kept : WavesKept s h := .handOn s _ _
    have base : h.thr.base = s.thr.base := congrArg Thread.base kept.thr
    refine ⟨execExit_waits held, fun free idle => ?_⟩
    refine ⟨fun level left => ?_, fun level empty => ?_, fun trapMode => ?_⟩
    · exact (execExit_leaves free idle).trans (by rw [leave_of_left (base.trans level) left])
    · exact execExit_retires free idle (leave_of_empty (base.trans level) empty)
        ((keeps_arrive h s.ctx.sp 0 0).threads.trans kept.threads)
    · exact execExit_retires free idle (leave_of_trapMode (base.trans_ne trapMode)) kept.threads

end Sys2Proof
end

/-! ## Loops (R71 to R74) -/

section
namespace Sys2Proof

open Machine

/-! ### Opening and leaving a level -/

theorem loopBlocked_iff (l : Level) : l.loopBlocked = true ↔ 1 < l.liveCount ∨ l.hasPending = true := by
  simp [Level.loopBlocked]

theorem loopBlocked_of_single {l : Level} (single : l.liveCount ≤ 1) (none_ : l.hasPending = false) :
    l.loopBlocked = false := by
  simp [Level.loopBlocked, none_, single]

/-- The loop state of the thread in focus replaced. -/
def withLoops (s : State) (lp : Loops) : State := { s with thr := { s.thr with level := { s.thr.level with loops := lp } } }

section
variable {s : State} {e : Split} (held : s.split = some e) (free : s.thr.level.loopBlocked = false)
include held free

/-- LOOP and LOOPI with a level free: a body of count 0 is skipped, another opens a level (R72). -/
theorem startLoop_eq (room : s.thr.level.loops.depth ≠ 3) (c : Word) (n : BitVec 7) : startLoop s c n =
    if c = 0 then withSplit s (sentTo s e (s.ctx.pc + n.setWidth 32 + 1))
    else withLoops s
      { depth := s.thr.level.loops.depth + 1
        len := s.thr.level.loops.len.setIfInBounds s.thr.level.loops.depth.toNat n
        lc := s.thr.level.loops.lc.setIfInBounds s.thr.level.loops.depth.toNat c
        start := s.thr.level.loops.start.setIfInBounds s.thr.level.loops.depth.toNat (s.ctx.pc + 1) } := by
  simp only [startLoop, free, transfer_eq held, Bool.false_eq_true, if_false, if_neg room]
  rfl

/-- LBRK in a loop closes the innermost level and goes behind its body (R74). -/
theorem execLbrk_leaves {i : Fin 3} (depth : s.thr.level.loops.depth.toNat = i.val + 1) : execLbrk s = .next
    (withSplit (withLoops s { s.thr.level.loops with depth := s.thr.level.loops.depth - 1 })
      (sentTo s e (s.thr.level.loops.start[i] + (s.thr.level.loops.len[i]).setWidth 32))) := by
  have open_ : s.thr.level.loops.depth ≠ 0 := fun zero => by simp [zero] at depth
  have closed : (withLoops s { s.thr.level.loops with depth := s.thr.level.loops.depth - 1 }).split = some e := held
  have here := transfer_eq closed (s.thr.level.loops.start[i] + (s.thr.level.loops.len[i]).setWidth 32)
  unfold execLbrk
  simp only [if_neg open_, free, depth, Nat.add_sub_cancel, Bool.false_eq_true, if_false, Fin.is_lt, Vector.getElem?_eq_getElem,
    Option.getD_some]
  exact congrArg Host.Outcome.next here

end

/-! ### The end of a body -/

section
variable {l : Level} {pc : Word} {i : Fin 3} (depth : l.loops.depth.toNat = i.val + 1)
  (last : pc + 1 = l.loops.start[i] + (l.loops.len[i]).setWidth 32)
include depth last

/-- Out of the last packet of the innermost body: on, with a trap due, where several splits live or one is pending; else to the
body's start while the count lasts, and then behind the body with its level closed (R73). -/
theorem fallFrom_body : fallFrom l pc =
    if l.loopBlocked = true then (⟨pc + 1, 0⟩, l.loops, true)
    else if l.loops.lc[i] - 1 ≠ 0 then
      (⟨l.loops.start[i], 0⟩, { l.loops with lc := l.loops.lc.set i (l.loops.lc[i] - 1) }, false)
    else (⟨pc + 1, 0⟩, { l.loops with lc := l.loops.lc.set i (l.loops.lc[i] - 1), depth := l.loops.depth - 1 }, false) := by
  have open_ : l.loops.depth ≠ 0 := fun zero => by simp [zero] at depth
  have ends : pc = l.loops.start[i] + (l.loops.len[i]).zeroExtend 32 - 1 := BitVec.eq_sub_iff_add_eq.mpr last
  have index : l.loops.depth.toNat - 1 = i.val := by omega
  unfold fallFrom
  simp only [index, Vector.getElem?_eq_getElem i.isLt, Option.getD_some, setIfInBounds_eq_set _ i.isLt]
  exact if_pos ⟨open_, ends⟩

end

/-- The split's entry at a place, with the loop state and the trap due that the end of a body leaves. -/
def landsAt (s : State) (sp : BitVec 2) (e : Split) (at_ : Place) (lp : Loops) (due : Option Trap) : State :=
  { s with thr := { s.thr with level :=
    { s.thr.level.setSplit sp (some { e with at_ := at_, xfer := none, due := due }) with loops := lp } } }

/-- A split that reaches the end of its packet by falling through lands where `fallFrom` says (R18, R73). -/
theorem settle_of_fallFrom {s : State} {sp : BitVec 2} {p at_ : Place} {e : Split} {lp : Loops} {bad : Bool}
    (held : s.thr.level.split? sp = some e) (ended : s.atPacketEnd s.thr p = true)
    (falls : fallFrom s.thr.level p.pc = (at_, lp, bad)) : s.settle sp p true = landsAt s sp e at_ lp
      (if (bad && e.due.isNone) = true then some
        { cls := 11, cause := 3, pc := at_.pc, slot := 0, oslot := 0, replay := false, addr := 0, lanes := e.cur }
        else e.due) := by
  unfold State.settle
  rw [held]
  simp only [ended, Bool.and_self, if_true, falls]
  rfl

/-- Settles O21: the words by what they do with the level free, the end of a body by where `fallFrom` sends the split. -/
theorem loopsCountTheirBodies : Obligations.LoopsCountTheirBodies := by
  refine ⟨fun s e held => ?words, fun s sp p e i held ended depth last => ?bodyEnd⟩
  case words =>
    intro l loops started
    refine ⟨fun single none_ room => ?_, fun single none_ i depth => ?_, fun k x => rfl⟩
    · have opens := startLoop_eq held (loopBlocked_of_single single none_) room
      refine ⟨fun c n => congrArg Host.Outcome.next (opens (s.rdS c) n), fun t n => ?_⟩
      exact congrArg Host.Outcome.next ((opens (s.immU t) n).trans (congrArg (started · n) (immU_eq s t)))
    · exact execLbrk_leaves held (loopBlocked_of_single single none_) depth
  case bodyEnd =>
    have falls := fallFrom_body depth last
    refine ⟨fun free more => ?_, fun free done => ?_, fun blocked clear => ?_⟩
    · rw [free, if_neg Bool.false_ne_true, if_pos more] at falls
      exact settle_of_fallFrom held ended falls
    · rw [free, if_neg Bool.false_ne_true, if_neg (not_not_intro done)] at falls
      exact settle_of_fallFrom held ended falls
    · rw [if_pos blocked] at falls
      exact (settle_of_fallFrom held ended falls).trans (by rw [clear]; rfl)

end Sys2Proof
end

/-! ## The causes of REJOIN (R70) -/

section
namespace Sys2Proof

open Machine

/-- A word that answers with a trap of its whole group enters trap mode in a wave that can take it (R362, R364). -/
theorem trapsAtGroup_of_trapWord {s : State} {e : Split} {i : Instr} {cls cause : Nat} (can : CanTrap s e)
    (runs : exec i s = .next (s.trapWord cls cause)) : TrapsAtGroup s i cls cause := by
  obtain ⟨wave, level, handler, held⟩ := can
  obtain ⟨h, handler⟩ := Option.ne_none_iff_exists'.mp handler
  refine ⟨_, runs, ?_⟩
  unfold State.trapWord
  rw [trapGroup_eq, takeTrap_enter _ _ wave level handler]
  exact enterTrap_entered _ handler held

theorem execMjoin_full {s : State} (full : s.thr.level.depth = 16) (o : BitVec 19) :
    execMjoin o s = .next (s.trapWord clsREJOIN 1) := by
  unfold execMjoin
  rw [pushSlot_of_full full]

theorem execJoin_frameless {s : State} {e : Split} (held : s.split = some e) (frame : e.frame = none) :
    execJoin s = .next (s.trapWord clsREJOIN 2) := by
  unfold execJoin
  rw [held]
  simp [frame]

theorem startLoop_blocked {s : State} (blocked : s.thr.level.loopBlocked = true) (c : Word) (n : BitVec 7) :
    startLoop s c n = s.trapWord clsREJOIN 3 := if_pos blocked

theorem startLoop_deepest {s : State} (free : s.thr.level.loopBlocked = false) (deepest : s.thr.level.loops.depth = 3) (c : Word)
    (n : BitVec 7) : startLoop s c n = s.trapWord clsREJOIN 4 := by
  unfold startLoop
  exact (if_neg (ne_true_of_eq_false free)).trans (if_pos deepest)

theorem execLbrk_blocked {s : State} (open_ : s.thr.level.loops.depth ≠ 0) (blocked : s.thr.level.loopBlocked = true) :
    execLbrk s = .next (s.trapWord clsREJOIN 3) := by
  unfold execLbrk
  exact (if_neg open_).trans (if_pos blocked)

theorem execLbrk_outside {s : State} (outside : s.thr.level.loops.depth = 0) : execLbrk s = .next (s.trapWord clsREJOIN 5) :=
  if_pos outside

/-- BRS with lanes on both sides, no entry free and a full stack. -/
theorem execBrs_full {s : State} {m : Reg} (some_ : s.rdMask m &&& s.cur ≠ 0) (others : s.rdMask m &&& s.cur ≠ s.cur)
    (entries : ∀ j, s.thr.level.split? j ≠ none) (full : s.thr.level.depth = 16) (o : BitVec 16) :
    execBrs m 0 o s = .next (s.trapWord clsREJOIN 1) := by
  refine (if_neg some_).trans ((if_neg others).trans ?_)
  rw [freeEntry_of_full entries, pushSlot_of_full full]

/-- Settles O22: on each condition the word answers with the trap of its cause, which the wave takes. -/
theorem rejoinTrapsHaveTheirCauses : Obligations.RejoinTrapsHaveTheirCauses := by
  intro s e can
  have traps {i : Instr} {cause : Nat} := trapsAtGroup_of_trapWord (i := i) (cls := 11) (cause := cause) can
  obtain ⟨-, -, -, held⟩ := can
  refine ⟨fun o full => traps (execMjoin_full full o),
    fun m o full entries some_ others => traps (execBrs_full some_ others entries full o),
    fun frame => traps (execJoin_frameless held frame), fun several => ?blocked, fun single none_ deepest => ?deepest,
    fun outside => traps (execLbrk_outside outside)⟩
  case blocked =>
    have blocked := (loopBlocked_iff s.thr.level).mpr several
    exact ⟨fun c n => traps (congrArg Host.Outcome.next (startLoop_blocked blocked _ n)),
      fun t n => traps (congrArg Host.Outcome.next (startLoop_blocked blocked _ n)),
      fun open_ => traps (execLbrk_blocked open_ blocked)⟩
  case deepest =>
    have free := loopBlocked_of_single single none_
    exact ⟨fun c n => traps (congrArg Host.Outcome.next (startLoop_deepest free deepest _ n)),
      fun t n => traps (congrArg Host.Outcome.next (startLoop_deepest free deepest _ n))⟩

end Sys2Proof
end

/-! ## Control registers: what CTLR of each register reads (R358 to R361) -/

section
namespace Sys2Proof

open Machine

/-! ### Fields joined -/

/-- A bit of a control register. -/
def bitOf (b : Bool) : BitVec 1 := if b then 1 else 0

/-- Two fields joined are the upper one shifted above the lower one. -/
theorem append_eq_shiftLeft_or {m n w : Nat} (x : BitVec m) (y : BitVec n) (fits : m + n = w) :
    (x ++ y).setWidth w = (x.setWidth w <<< n) ||| y.setWidth w := by
  subst fits
  apply BitVec.eq_of_toNat_eq
  have hx : x.toNat < 2 ^ (m + n) := lt_of_lt_of_le x.isLt (Nat.pow_le_pow_right (by decide) (Nat.le_add_right m n))
  have hy : y.toNat < 2 ^ (m + n) := lt_of_lt_of_le y.isLt (Nat.pow_le_pow_right (by decide) (Nat.le_add_left n m))
  have hs : x.toNat <<< n < 2 ^ (m + n) := by
    rw [Nat.shiftLeft_eq, Nat.pow_add]
    exact Nat.mul_lt_mul_of_pos_right x.isLt (Nat.two_pow_pos n)
  simp [BitVec.toNat_append, Nat.mod_eq_of_lt, hx, hy, hs]

theorem hstat_eq (c : Ctl) : c.hstat = bitOf c.herr ++ c.hcause ++ c.hbad := by
  have joined := append_eq_shiftLeft_or (w := 32) (bitOf c.herr ++ c.hcause) c.hbad rfl
  have upper : ((bitOf c.herr ++ c.hcause).setWidth 32 : Word) <<< 28 =
      (if c.herr then 0x80000000 else 0) ||| (c.hcause.zeroExtend 32 <<< 28) := by
    generalize c.herr = b, c.hcause = x
    revert b x
    decide
  rw [upper, BitVec.setWidth_eq] at joined
  exact joined.symm

/-- Two bits of a control register, those above them zero. -/
theorem twoBits_eq (x y : Bool) :
    ((if x then 2 else 0) ||| (if y then 1 else 0) : Word) = (0 : BitVec 30) ++ bitOf x ++ bitOf y := by
  revert x y
  decide

theorem einfo_eq (c : Ctl) : c.einfo = (0 : BitVec 27) ++ bitOf c.replay ++ c.oslot ++ c.rslot := by
  unfold Ctl.einfo
  generalize c.replay = x, c.oslot = y, c.rslot = z
  revert x y z
  decide

/-- ctl.ecause: the cause above the class (R361). -/
theorem causeWord_eq (x : BitVec 16) (y : BitVec 8) :
    (x.zeroExtend 32 <<< 16) ||| y.zeroExtend 32 = x ++ (0 : BitVec 8) ++ y := by
  have upper : (x ++ (0 : BitVec 8)).setWidth 32 <<< 8 = (x.setWidth 32 : Word) <<< 16 := by
    have joined : (x ++ (0 : BitVec 8)).toNat = x.toNat * 2 ^ 8 := by
      rw [BitVec.toNat_append, Nat.shiftLeft_eq]
      exact Nat.or_zero _
    apply BitVec.eq_of_toNat_eq
    simp only [BitVec.toNat_shiftLeft, BitVec.toNat_setWidth, joined, Nat.shiftLeft_eq]
    omega
  have joined := append_eq_shiftLeft_or (w := 32) (x ++ (0 : BitVec 8)) y rfl
  rw [upper, BitVec.setWidth_eq] at joined
  exact joined.symm

theorem place_eq (t : Thread) : t.place =
    BitVec.ofNat 32 (if t.mcc then clusterOf t.core * 4 % 1024 else t.part.toNat * 1024 + t.core % 1024) := by
  unfold Thread.place
  split
  · rfl
  · apply BitVec.eq_of_toNat_eq
    have low : t.core % 1024 < 2 ^ 10 := Nat.mod_lt _ (by decide)
    have high : t.part.toNat < 4 := t.part.isLt
    have joined : t.part.toNat <<< 10 ||| t.core % 1024 = t.part.toNat * 1024 + t.core % 1024 := by
      rw [← Nat.shiftLeft_add_eq_or_of_lt low, Nat.shiftLeft_eq]
    have part : (t.part.toNat % 2 ^ 32) <<< 10 % 2 ^ 32 = t.part.toNat <<< 10 := by
      simp only [Nat.shiftLeft_eq]
      omega
    rw [BitVec.toNat_or, BitVec.toNat_shiftLeft, BitVec.toNat_setWidth, BitVec.toNat_ofNat, BitVec.toNat_ofNat, part,
      Nat.mod_eq_of_lt (a := t.core % 1024) (by omega), joined]
    omega

theorem readBank_eq {s : State} {cl : Nat} {b : Fin 32} {k : Bank} (bank : (s.cluster cl).banks[b] = k) : s.readBank cl b =
    (0 : BitVec 27) ++ bitOf k.launched ++ bitOf k.refused ++ bitOf (s.bankBusy cl b) ++ k.mode := by
  have found : (s.cluster cl).banks[b.val]? = some k := (Vector.getElem?_eq_getElem b.isLt).trans (congrArg some bank)
  unfold State.readBank
  rw [found]
  generalize s.bankBusy cl b = busy
  obtain ⟨launched, refused, mode⟩ := k
  dsimp only
  clear bank found
  revert launched refused busy mode
  decide

/-! ### The registers -/

/-- A CTLR reads what the register holds. -/
theorem exec_ctlr {s : State} (d : Reg) {r : Nat} {v : Word} (hr : r < 2 ^ 12) (holds : s.ctlOf s.src r = v) :
    RanTo (exec (.ctlr d (BitVec.ofNat 12 r)) s) (ScalarTo s · d d false v) := by
  refine ⟨s.wrS d (s.ctlOf s.src r), ?_, holds ▸ scalarTo_plain s d d _⟩
  change execCtlr d (BitVec.ofNat 12 r) s = _
  rw [execCtlr, toNat_ofNat_of_register hr]

variable (s : State) (t : Thread)

theorem ctlOf_loopCounter (k : Fin 3) : s.ctlOf t (0x002 + k) = t.level.loops.lc[k] := by
  match k with
  | 0 | 1 | 2 => rfl

theorem ctlOf_loopStart (k : Fin 3) : s.ctlOf t (0x005 + k) = t.level.loops.start[k] := by
  match k with
  | 0 | 1 | 2 => rfl

theorem ctlOf_sstat (k : Fin 3) : s.ctlOf t (0x00A + k) = t.ctl.sstat.extractLsb' (32 * k) 32 := by
  match k with
  | 0 | 1 | 2 => rfl

theorem ctlOf_elanes (k : Fin 3) : s.ctlOf t (0x085 + k) = t.ctl.elanes.extractLsb' (32 * k) 32 := by
  match k with
  | 0 | 1 | 2 => rfl

theorem ctlOf_bank (b : Fin 32) : s.ctlOf t (0x020 + b) = s.readBank (clusterOf t.core) b := by
  simp (disch := omega) only [State.ctlOf, if_neg, if_pos, Nat.add_sub_cancel_left]

theorem ctlOf_tag (r : Fin 64) : s.ctlOf t (0x040 + r) = (t.tag s.stamp r).code := by
  simp (disch := omega) only [State.ctlOf, if_neg, if_pos, Nat.add_sub_cancel_left]

/-- Settles O27: CTLR writes what `ctlOf` gives, which each register's lemma spells out as its fields; RDTIME is two writes. -/
theorem controlRegistersReadTheirFields : Obligations.ControlRegistersReadTheirFields := by
  refine ⟨fun s d => ?registers, fun s d pair => ?time⟩
  case registers =>
    intro t c l bit busy reads
    have gives {r : Nat} (hr : r < 2 ^ 12) {v : Word} (holds : s.ctlOf t r = v) : reads r v := exec_ctlr d hr holds
    refine ⟨gives (by decide) rfl, gives (by decide) rfl, fun k => ?_, gives (by decide) rfl, gives (by decide) rfl,
      gives (by decide) rfl, gives (by decide) (hstat_eq c), gives (by decide) rfl, gives (by decide) rfl,
      gives (by decide) rfl, gives (by decide) (twoBits_eq _ _), fun b k bank => ?_, fun r => ?_,
      gives (by decide) (causeWord_eq _ _), gives (by decide) rfl, gives (by decide) (einfo_eq c), gives (by decide) rfl,
      gives (by decide) rfl, gives (by decide) (twoBits_eq _ _), gives (by decide) (place_eq t)⟩
    · exact ⟨gives (by omega) (ctlOf_loopCounter s t k), gives (by omega) (ctlOf_loopStart s t k),
        gives (by omega) (ctlOf_sstat s t k), gives (by omega) (ctlOf_elanes s t k)⟩
    · exact gives (by omega) ((ctlOf_bank s t b).trans (readBank_eq bank))
    · refine gives (by omega) ((ctlOf_tag s t r).trans ?_)
      cases t.tag s.stamp r <;> rfl
  case time =>
    have first := (ScalarsTo.refl s).write d.toNat (BitVec.ofNat 32 s.time) (by omega)
    have both := first.write (d.toNat + 1) (BitVec.ofNat 32 (s.time / 2 ^ 32)) (by omega)
    have order : (fun r => if r = d.toNat + 1 then some (BitVec.ofNat 32 (s.time / 2 ^ 32))
          else if r = d.toNat then some (BitVec.ofNat 32 s.time) else none) =
        fun r => if r = d.toNat then some (BitVec.ofNat 32 s.time)
          else if r = d.toNat + 1 then some (BitVec.ofNat 32 (s.time / 2 ^ 32)) else none := by
      funext r
      by_cases low : r = d.toNat <;> simp [low]
    exact ⟨_, rfl, order ▸ both⟩

end Sys2Proof
end

/-! ## What reset leaves -/

section
namespace Sys2Proof

open Machine

theorem reset_slots (k : Fin 64) : State.reset.slots[k] = CmpSlot.reset := Vector.getElem_replicate _
theorem reset_tables (k : Fin 256) : State.reset.tables[k] = ⟨false, 0, 0⟩ := Vector.getElem_replicate _
theorem reset_bank (c : Nat) (b : Fin 32) : (State.reset.cluster c).banks[b] = ⟨false, false, 0⟩ := Vector.getElem_replicate _

/-- Each level of the loop state that a thread starts with is zero (R71). -/
theorem start_loops (k : Fin 3) : Thread.start.level.loops.lc[k] = 0 ∧ Thread.start.level.loops.start[k] = 0 ∧
    Thread.start.level.loops.len[k] = 0 :=
  ⟨Vector.getElem_replicate _, Vector.getElem_replicate _, Vector.getElem_replicate _⟩

/-- Each register that a thread starts with is zero, with tag U (R330). -/
theorem start_registers (r : Fin 64) : Thread.start.s[r] = 0 ∧ Thread.start.vtag[r] = .u ∧
    ∀ l : Fin 96, Thread.start.v[r][l] = 0 := by
  refine ⟨Vector.getElem_replicate _, Vector.getElem_replicate _, fun l => ?_⟩
  have zero : Thread.start.v[r] = Vector.replicate 96 0 := Vector.getElem_replicate _
  rw [zero]
  exact Vector.getElem_replicate _

theorem start_lanes (l : Fin 96) : Thread.start.fl[l] = 0 ∧ Thread.start.draw[l] = 0 :=
  ⟨Vector.getElem_replicate _, Vector.getElem_replicate _⟩

/-- Settles O4: the fields by evaluation, the tables by what each of their entries is. -/
theorem resetLeavesItsValues : Obligations.ResetLeavesItsValues := by
  unfold Obligations.ResetLeavesItsValues
  refine ⟨rfl, rfl, rfl, rfl, fun k => ?slots, fun k => ?tables, reset_bank, rfl, rfl, rfl, rfl, rfl, rfl, rfl, rfl, rfl, rfl,
    rfl, ?links, ?ctl, rfl, rfl, rfl, start_loops, start_registers, start_lanes⟩
  case slots =>
    rw [reset_slots]
    exact ⟨rfl, rfl, rfl⟩
  case tables =>
    rw [reset_tables]
    exact ⟨rfl, rfl⟩
  case links => decide
  case ctl => decide

end Sys2Proof
end

/-! ## Floating words (R103 to R106) -/

section
namespace Sys2Proof

open Machine

section
variable {s : State} {i : Instr} {d a b : Reg} {l : Bool}

/-- A word that `fop1` performs gives the function of its operand. -/
theorem runsF1_of_fop1 {f : BitVec 16 → Word → FRes} (runs : exec i s = .next (fop1 f d a l s)) : RunsF1 s i d a l f :=
  ⟨_, runs, floatTo s d a l _ _⟩

/-- A word that `fop2` performs gives the function of its two operands. -/
theorem runsF2_of_fop2 {f : BitVec 16 → Word → Word → FRes} (runs : exec i s = .next (fop2 f d a b l s)) :
    RunsF2 s i d a b l f :=
  ⟨_, runs, floatTo s d a l _ _⟩

/-- A word that `fop3` performs gives the function of its two operands and the old vD. -/
theorem runsF3_of_fop3 {f : BitVec 16 → Word → Word → Word → FRes} (runs : exec i s = .next (fop3 f d a b l s)) :
    RunsF3 s i d a b l f :=
  ⟨_, runs, floatTo s d a l _ _⟩

/-- A packed word gives the function of each half of its operands, the low half drawing first. -/
theorem ranTo_of_hop {f : BitVec 16 → Word → Word → Word → FRes} {acc : Bool}
    (runs : exec i s = .next (hop f acc d a b l s)) :
    RanTo (exec i s) (FloatTo s · d a l
      (fun n => halves f s n (laneOf (s.rdV a) n) (laneOf (s.rdV b) n) (laneOf (s.rdV d) n))
      (s.tagU (if acc then [a, b, d] else [a, b]))) :=
  ⟨_, runs, floatTo s d a l _ _⟩

end

/-- Settles O11: each word is one of `fop1`, `fop2` and `fop3`, or `hop` on the halves, with its function of a lane. -/
theorem floatingWordsRoundOnce : Obligations.FloatingWordsRoundOnce := by
  refine ⟨fun s d a b l => ?lanes, fun s d a b l => ?halves⟩
  case lanes =>
    exact ⟨runsF3_of_fop3 rfl, runsF3_of_fop3 rfl, runsF2_of_fop2 rfl, runsF2_of_fop2 rfl, runsF2_of_fop2 rfl,
      runsF3_of_fop3 rfl, runsF3_of_fop3 rfl, runsF3_of_fop3 rfl, runsF1_of_fop1 rfl, runsF1_of_fop1 rfl⟩
  case halves =>
    intro low high lane two three
    have lane_eq (f : BitVec 16 → Word → Word → Word → FRes) : lane f =
        fun n => halves f s n (laneOf (s.rdV a) n) (laneOf (s.rdV b) n) (laneOf (s.rdV d) n) := rfl
    have packed2 {i : Instr} {f : BitVec 16 → Word → Word → FRes}
        (runs : exec i s = .next (hop (fun r x y _ => f r x y) false d a b l s)) : two i f := by
      simp only [two, lane_eq]
      exact ranTo_of_hop runs
    have packed3 {i : Instr} {f : BitVec 16 → Word → Word → Word → FRes}
        (runs : exec i s = .next (hop f true d a b l s)) : three i f := by
      simp only [three, lane_eq]
      exact ranTo_of_hop runs
    clear_value two three
    exact ⟨packed2 rfl, packed2 rfl, packed2 rfl, packed3 rfl, packed2 rfl, packed2 rfl, packed2 rfl, packed2 rfl,
      packed3 rfl⟩

/-! ### Sums and products of special operands (R104) -/

theorem fadd_of_nan {x y : Word} (nan : FFmt.fp32.read x = .nan ∨ FFmt.fp32.read y = .nan) (mode : RMode) (r : BitVec 16) :
    fadd .fp32 mode r x y = .exact FFmt.fp32.canon := by
  unfold fadd addExact
  rw [if_pos nan]
  rfl

theorem mulVal_of_nan {a b : Val} (nan : a = .nan ∨ b = .nan) : mulVal a b = some .nan := by
  rcases nan with rfl | rfl
  · rfl
  · cases a <;> rfl

theorem fmul_of_nan {x y : Word} (nan : FFmt.fp32.read x = .nan ∨ FFmt.fp32.read y = .nan) (mode : RMode) (r : BitVec 16) :
    fmul .fp32 mode r x y = .exact FFmt.fp32.canon := by
  unfold fmul mulExact
  rw [mulVal_of_nan nan]
  rfl

/-- The exact sum of two values that are no NaN. -/
theorem addExact_of_number {a b : Val} (ha : a ≠ .nan) (hb : b ≠ .nan) (mode : RMode) :
    addExact a b mode = sumVals [a, b] (zeroSign2 a b mode) :=
  if_neg (not_or.mpr ⟨ha, hb⟩)

theorem sumVals_of_opposite (n z : Bool) : sumVals [.inf n, .inf !n] z = .invalid := by
  cases n <;> rfl

/-- An infinity absorbs a finite term. -/
theorem sumVals_of_inf (n z : Bool) {b : Val} (finite : b.finite = true) : sumVals [.inf n, b] z = .inf n := by
  cases b with
  | nan | inf => cases finite
  | zero m => cases n <;> rfl
  | fin q => cases n <;> rfl

/-- Two finite terms that cancel leave the zero of the sign given. -/
theorem sumVals_of_cancel {a b : Val} (ha : a.finite = true) (hb : b.finite = true) (cancel : a.toRat + b.toRat = 0)
    (z : Bool) : sumVals [a, b] z = .zero z := by
  have noInf (v : Val) (finite : v.finite = true) (n : Bool) : (v == Val.inf n) = false := by
    cases v with
    | nan | inf => cases finite
    | zero | fin => rfl
  unfold sumVals
  simp [noInf a ha, noInf b hb, cancel]

/-- Settles O13: the exact sum or product is special, and rounding passes it on. -/
theorem floatingSpecialCasesComeFirst : Obligations.FloatingSpecialCasesComeFirst := by
  intro mode r x y a b
  have sum (ha : a ≠ .nan) (hb : b ≠ .nan) : fadd .fp32 mode r x y =
      (sumVals [a, b] (zeroSign2 a b mode)).round .fp32 mode false r :=
    congrArg (Exact.round · .fp32 mode false r) (addExact_of_number ha hb mode)
  refine ⟨fun nan => ⟨fadd_of_nan nan mode r, fmul_of_nan nan mode r⟩, fun n ha hb => ?_, fun n m ha hb => ?_,
    fun n ha finite => ?_, fun p q ha hb cancel => ?_, fun n m ha hb => ?_⟩
  · rw [sum (by simp [ha]) (by simp [hb]), ha, hb, sumVals_of_opposite]
    rfl
  · change (mulExact a b).round .fp32 mode false r = _
    rw [ha, hb]
    rfl
  · have number : b ≠ .nan := fun nan => by simp [nan, Val.finite] at finite
    rw [sum (by simp [ha]) number, ha, sumVals_of_inf n _ finite]
    cases n <;> rfl
  · rw [sum (by simp [ha]) (by simp [hb]), ha, hb, sumVals_of_cancel (a := .fin p) (b := .fin q) rfl rfl cancel]
    cases mode <;> rfl
  · rw [sum (by simp [ha]) (by simp [hb]), ha, hb, sumVals_of_cancel rfl rfl (add_zero 0)]
    cases mode <;> cases n <;> cases m <;> rfl

end Sys2Proof
end

/-! ## The values of a floating format as a grid (R85, R90) -/

section
namespace Sys2Proof.Machine

theorem pow2_eq (k : ℤ) : pow2 k = 2 ^ k := by
  unfold pow2
  split
  case isTrue h =>
    push_cast
    rw [← zpow_natCast, Int.toNat_of_nonneg h]
  case isFalse h =>
    have neg : ((-k).toNat : ℤ) = -k := Int.toNat_of_nonneg (by omega)
    rw [Rat.mkRat_eq_div]
    push_cast
    rw [← zpow_natCast, neg, zpow_neg, one_div, inv_inv]

/-- floor(log2 x) is the binade that holds x. -/
theorem log2Floor_spec {x : ℚ} (pos : 0 < x) : (2 : ℚ) ^ log2Floor x ≤ x ∧ x < 2 ^ (log2Floor x + 1) := by
  have num : 0 < x.num := Rat.num_pos.mpr pos
  have numCast : ((x.num.natAbs : ℕ) : ℚ) = x.num := by
    rw [← Int.cast_natCast, Int.natAbs_of_nonneg num.le]
  have value : x = (x.num.natAbs : ℚ) / x.den := by rw [numCast, Rat.num_div_den]
  have numLow : (2 : ℚ) ^ (Nat.log2 x.num.natAbs) ≤ x.num.natAbs := by
    exact_mod_cast Nat.log2_self_le (by omega)
  have numHigh : (x.num.natAbs : ℚ) < 2 ^ (Nat.log2 x.num.natAbs + 1) := by exact_mod_cast Nat.lt_log2_self
  have denLow : (2 : ℚ) ^ (Nat.log2 x.den) ≤ x.den := by exact_mod_cast Nat.log2_self_le x.den_ne_zero
  have denHigh : (x.den : ℚ) < 2 ^ (Nat.log2 x.den + 1) := by exact_mod_cast Nat.lt_log2_self
  have den : (0 : ℚ) < x.den := by exact_mod_cast x.den_pos
  set a := Nat.log2 x.num.natAbs
  set b := Nat.log2 x.den
  have two : (2 : ℚ) ≠ 0 := by norm_num
  have below : (2 : ℚ) ^ ((a : ℤ) - b - 1) ≤ x := by
    rw [value, le_div_iff₀ den]
    calc (2 : ℚ) ^ ((a : ℤ) - b - 1) * x.den ≤ 2 ^ ((a : ℤ) - b - 1) * 2 ^ (b + 1) := by gcongr
      _ = 2 ^ a := by
        rw [← zpow_natCast, ← zpow_natCast, ← zpow_add₀ two]
        congr 1
        push_cast
        ring
      _ ≤ _ := numLow
  have above : x < (2 : ℚ) ^ ((a : ℤ) - b + 1) := by
    rw [value, div_lt_iff₀ den]
    calc (x.num.natAbs : ℚ) < 2 ^ (a + 1) := numHigh
      _ = 2 ^ ((a : ℤ) - b + 1) * 2 ^ b := by
        rw [← zpow_natCast, ← zpow_natCast, ← zpow_add₀ two]
        congr 1
        push_cast
        ring
      _ ≤ _ := by gcongr
  unfold log2Floor
  simp only [pow2_eq]
  rw [if_neg above.not_ge]
  split
  case isTrue h => exact ⟨h, above⟩
  case isFalse h => exact ⟨below, by simpa using h⟩

/-- A number has one binade. -/
theorem log2Floor_unique {x : ℚ} {e : ℤ} (low : (2 : ℚ) ^ e ≤ x) (high : x < 2 ^ (e + 1)) : log2Floor x = e := by
  have two : (1 : ℚ) < 2 := by norm_num
  obtain ⟨low', high'⟩ := log2Floor_spec (lt_of_lt_of_le (by positivity) low)
  have := (zpow_lt_zpow_iff_right₀ two).mp (low.trans_lt high')
  have := (zpow_lt_zpow_iff_right₀ two).mp (low'.trans_lt high)
  omega

/-! ### The grid -/

/-- The value of the magnitude bits `k` of a format with `m` bits of M and the least step 2^b: the first 2^m values are a step
apart, and each later binade of 2^m values has steps twice as wide. -/
def gridVal (m : ℕ) (b : ℤ) (k : ℕ) : ℚ :=
  if k / 2 ^ m = 0 then k * 2 ^ b else (2 ^ m + k % 2 ^ m : ℕ) * 2 ^ (b + (k / 2 ^ m : ℕ) - 1)

variable {m : ℕ} {b : ℤ}

/-- Magnitude bits fall into the number of a binade and a count of its steps. -/
theorem exists_steps (m k : ℕ) : ∃ i n, k = i * 2 ^ m + n ∧ n < 2 ^ (m + 1) ∧ (i = 0 ∨ 2 ^ m ≤ n) := by
  have pos := Nat.two_pow_pos m
  have parts := Nat.div_add_mod k (2 ^ m)
  have small := Nat.mod_lt k pos
  rw [Nat.pow_succ]
  cases quotient : k / 2 ^ m with
  | zero => exact ⟨0, k % 2 ^ m, by simp [quotient] at parts ⊢; omega, by omega, .inl rfl⟩
  | succ i =>
    refine ⟨i, 2 ^ m + k % 2 ^ m, ?_, by omega, .inr (by omega)⟩
    rw [quotient, Nat.mul_succ, Nat.mul_comm] at parts
    omega

/-- The value is the count of steps, even where the count reaches the next binade. -/
theorem gridVal_steps (b : ℤ) {i n : ℕ} (upper : n ≤ 2 ^ (m + 1)) (lower : i = 0 ∨ 2 ^ m ≤ n) :
    gridVal m b (i * 2 ^ m + n) = n * 2 ^ (b + i) := by
  have pos := Nat.two_pow_pos m
  have two : (2 : ℚ) ≠ 0 := by norm_num
  rw [Nat.pow_succ] at upper
  have split (j r : ℕ) (hr : r < 2 ^ m) : (j * 2 ^ m + r) / 2 ^ m = j ∧ (j * 2 ^ m + r) % 2 ^ m = r := by
    rw [Nat.mul_comm]
    exact ⟨by rw [Nat.mul_add_div pos, Nat.div_eq_of_lt hr, Nat.add_zero], by rw [Nat.mul_add_mod, Nat.mod_eq_of_lt hr]⟩
  unfold gridVal
  by_cases low : n < 2 ^ m
  · obtain rfl : i = 0 := by omega
    simp [Nat.div_eq_of_lt low]
  by_cases top : n = 2 ^ m * 2
  · obtain ⟨quotient, rest⟩ := split (i + 2) 0 pos
    have index : i * 2 ^ m + n = (i + 2) * 2 ^ m + 0 := by rw [top]; ring
    rw [index, quotient, rest, if_neg (by omega), top]
    push_cast
    rw [show b + ((i : ℤ) + 2) - 1 = b + i + 1 by ring, zpow_add_one₀ two]
    ring
  · obtain ⟨quotient, rest⟩ := split (i + 1) (n - 2 ^ m) (by omega)
    have index : i * 2 ^ m + n = (i + 1) * 2 ^ m + (n - 2 ^ m) := by rw [Nat.add_mul]; omega
    rw [index, quotient, rest, if_neg (by omega), Nat.add_sub_cancel' (by omega)]
    push_cast
    rw [show b + ((i : ℤ) + 1) - 1 = b + i by ring]

@[simp] theorem gridVal_zero (m : ℕ) (b : ℤ) : gridVal m b 0 = 0 := by
  simp [gridVal]

theorem gridVal_strictMono (m : ℕ) (b : ℤ) : StrictMono (gridVal m b) := by
  refine strictMono_nat_of_lt_succ fun k => ?_
  obtain ⟨i, n, rfl, upper, lower⟩ := exists_steps m k
  rw [Nat.add_assoc, gridVal_steps b upper.le lower, gridVal_steps b upper (by omega)]
  have step : (0 : ℚ) < 2 ^ (b + i) := by positivity
  push_cast
  linarith

theorem gridVal_pos {k : ℕ} (pos : 0 < k) : 0 < gridVal m b k := by
  simpa using gridVal_strictMono m b pos

/-- Every count below 2^(m + 1) of a step that is not below the least one stands on the grid. -/
theorem exists_gridVal (b : ℤ) (i : ℕ) {n : ℕ} (small : n < 2 ^ (m + 1)) : ∃ k, gridVal m b k = n * 2 ^ (b + i) := by
  induction i generalizing n with
  | zero => exact ⟨0 * 2 ^ m + n, gridVal_steps b small.le (.inl rfl)⟩
  | succ i ih =>
    by_cases low : n < 2 ^ m
    · obtain ⟨k, value⟩ := ih (n := 2 * n) (by rw [Nat.pow_succ]; omega)
      refine ⟨k, value.trans ?_⟩
      push_cast
      rw [show b + ((i : ℤ) + 1) = b + i + 1 by ring, zpow_add_one₀ (by norm_num)]
      ring
    · exact ⟨(i + 1) * 2 ^ m + n, gridVal_steps b small.le (.inr (by omega))⟩

end Sys2Proof.Machine
end

section
namespace Sys2Proof.Machine

/-! ### The patterns of a format (R85, R86) -/

variable (f : FFmt)

/-- The exponent of the least step of a format. -/
def FFmt.least : ℤ := 1 - f.bias - f.mbits

/-- The magnitude bits of the element in a word. -/
def FFmt.mag (w : Word) : ℕ := w.toNat % 2 ^ (f.mbits + f.ebits)

/-- The sign bit of the element in a word. -/
def FFmt.negative (w : Word) : Bool := w.toNat / 2 ^ (f.mbits + f.ebits) % 2 == 1

/-- The value of magnitude bits in a format. -/
def FFmt.val (k : ℕ) : ℚ := gridVal f.mbits f.least k

theorem FFmt.mbits_pos : 0 < f.mbits := by
  cases f <;> decide

theorem FFmt.val_zero : f.val 0 = 0 := gridVal_zero _ _

theorem FFmt.val_strictMono : StrictMono f.val := gridVal_strictMono _ _

theorem FFmt.val_pos {k : ℕ} (pos : 0 < k) : 0 < f.val k := gridVal_pos pos

theorem FFmt.val_nonneg (k : ℕ) : 0 ≤ f.val k := by
  rw [← f.val_zero]
  exact f.val_strictMono.monotone (Nat.zero_le k)

variable {f}

/-- The fields E and M of a pattern are those of its magnitude bits. -/
theorem FFmt.mag_fields (w : Word) : f.mag w / 2 ^ f.mbits = w.toNat / 2 ^ f.mbits % 2 ^ f.ebits ∧
    f.mag w % 2 ^ f.mbits = w.toNat % 2 ^ f.mbits := by
  unfold FFmt.mag
  rw [Nat.pow_add]
  exact ⟨Nat.mod_mul_right_div_self _ _ _, Nat.mod_mul_right_mod _ _ _⟩

/-- The value that R85 gives the fields E and M. -/
theorem FFmt.val_of_fields {k e man : ℕ} (quotient : k / 2 ^ f.mbits = e) (rest : k % 2 ^ f.mbits = man) : f.val k =
    if e = 0 then (man : ℚ) * pow2 (1 - f.bias - f.mbits)
    else ((2 ^ f.mbits + man : ℕ) : ℚ) * pow2 (e - f.bias - f.mbits) := by
  unfold FFmt.val gridVal FFmt.least
  rw [quotient, rest, pow2_eq, pow2_eq]
  split
  case isTrue zero =>
    have parts := Nat.div_add_mod k (2 ^ f.mbits)
    rw [quotient, zero, Nat.mul_zero, Nat.zero_add, rest] at parts
    rw [parts]
  case isFalse => rw [show (1 : ℤ) - f.bias - f.mbits + e - 1 = e - f.bias - f.mbits by ring]

/-- The magnitude bits of the greatest value of a format, which is its infinity where it has one (R85). -/
def FFmt.topMag (f : FFmt) : ℕ := if f.hasInf then f.infMag else f.maxMag

/-- What a pattern reads as, by its magnitude bits: NaN above the greatest value, infinity above the largest finite one. -/
theorem FFmt.read_eq (w : Word) : f.read w =
    if f.topMag < f.mag w then .nan
    else if f.maxMag < f.mag w then .inf (f.negative w)
    else if f.mag w = 0 then .zero (f.negative w)
    else .fin (if f.negative w then -f.val (f.mag w) else f.val (f.mag w)) := by
  obtain ⟨quotient, rest⟩ := f.mag_fields w
  have parts := Nat.div_add_mod (f.mag w) (2 ^ f.mbits)
  have bound : f.mag w < 2 ^ (f.mbits + f.ebits) := Nat.mod_lt _ (Nat.two_pow_pos _)
  rw [FFmt.val_of_fields quotient rest]
  unfold FFmt.read FFmt.negative
  dsimp only
  rw [← quotient, ← rest]
  generalize f.mag w = k at *
  clear quotient rest
  refine ite_congr (propext ?nan) (fun _ => rfl) fun number => if_congr ?inf rfl (if_congr ?zero rfl rfl)
  case nan =>
    cases f <;> simp [FFmt.mbits, FFmt.ebits, FFmt.topMag, FFmt.infMag, FFmt.maxMag, FFmt.hasInf] at bound parts ⊢ <;> omega
  case inf =>
    cases f <;> simp [FFmt.mbits, FFmt.ebits, FFmt.topMag, FFmt.infMag, FFmt.maxMag, FFmt.hasInf] at bound parts number ⊢ <;>
      omega
  case zero =>
    constructor
    · rintro ⟨zeroE, zeroM⟩
      rw [← parts, zeroE, zeroM, Nat.mul_zero]
    · rintro rfl
      exact ⟨Nat.zero_div _, Nat.zero_mod _⟩

theorem FFmt.maxMag_le_topMag : f.maxMag ≤ f.topMag := by
  cases f <;> decide

/-- What a pattern of a finite value reads as. -/
theorem FFmt.read_of_mag_le {w : Word} (finite : f.mag w ≤ f.maxMag) : f.read w =
    if f.mag w = 0 then .zero (f.negative w) else .fin (if f.negative w then -f.val (f.mag w) else f.val (f.mag w)) := by
  rw [FFmt.read_eq, if_neg (finite.trans f.maxMag_le_topMag).not_gt, if_neg finite.not_gt]

/-- A finite value's pattern has magnitude bits no greater than the largest. -/
theorem FFmt.mag_le_of_finite {w : Word} (finite : (f.read w).finite = true) : f.mag w ≤ f.maxMag := by
  rw [FFmt.read_eq] at finite
  split at finite
  case isTrue => cases finite
  case isFalse =>
    split at finite
    case isTrue => cases finite
    case isFalse number => exact not_lt.mp number

/-- A pattern reads as a number exactly when its magnitude bits are those of one; the number is their value with the sign. -/
theorem FFmt.read_fin_iff {w : Word} {x : ℚ} : f.read w = .fin x ↔ 0 < f.mag w ∧ f.mag w ≤ f.maxMag ∧
    x = if f.negative w then -f.val (f.mag w) else f.val (f.mag w) := by
  constructor
  · intro h
    have finite := f.mag_le_of_finite (w := w) (by rw [h]; rfl)
    rw [FFmt.read_of_mag_le finite] at h
    split at h
    case isTrue => cases h
    case isFalse nonzero => exact ⟨Nat.pos_of_ne_zero nonzero, finite, (Val.fin.inj h).symm⟩
  · rintro ⟨pos, finite, rfl⟩
    rw [FFmt.read_of_mag_le finite, if_neg pos.ne']

theorem FFmt.read_fin_ne_zero {w : Word} {x : ℚ} (h : f.read w = .fin x) : x ≠ 0 := by
  obtain ⟨pos, -, rfl⟩ := FFmt.read_fin_iff.mp h
  have := f.val_pos pos
  split <;> linarith

theorem FFmt.abs_of_read {w : Word} {x : ℚ} (h : f.read w = .fin x) : |x| = f.val (f.mag w) := by
  obtain ⟨-, -, rfl⟩ := FFmt.read_fin_iff.mp h
  split
  · rw [abs_neg, abs_of_nonneg (f.val_nonneg _)]
  · rw [abs_of_nonneg (f.val_nonneg _)]

/-- The sign of a number is the sign bit. -/
theorem FFmt.negative_of_read {w : Word} {x : ℚ} (h : f.read w = .fin x) : f.negative w = decide (x < 0) := by
  obtain ⟨pos, -, rfl⟩ := FFmt.read_fin_iff.mp h
  have := f.val_pos pos
  cases f.negative w
  · simp [this.le]
  · simp [this]

theorem FFmt.maxMag_lt : f.maxMag < 2 ^ (f.mbits + f.ebits) := by
  cases f <;> decide

theorem FFmt.toNat_pack (n : Bool) {k : ℕ} (small : k < 2 ^ (f.mbits + f.ebits)) :
    (f.pack n k).toNat = (if n then 2 ^ (f.mbits + f.ebits) else 0) + k := by
  have width : 2 ^ (f.mbits + f.ebits) ≤ 2 ^ 31 := by cases f <;> decide
  unfold FFmt.pack
  rw [BitVec.toNat_ofNat, Nat.add_comm f.ebits]
  apply Nat.mod_eq_of_lt
  split <;> omega

theorem FFmt.mag_pack (n : Bool) {k : ℕ} (small : k < 2 ^ (f.mbits + f.ebits)) : f.mag (f.pack n k) = k := by
  unfold FFmt.mag
  rw [FFmt.toNat_pack n small]
  cases n
  · simpa using Nat.mod_eq_of_lt small
  · simpa using Nat.mod_eq_of_lt small

theorem FFmt.negative_pack (n : Bool) {k : ℕ} (small : k < 2 ^ (f.mbits + f.ebits)) : f.negative (f.pack n k) = n := by
  unfold FFmt.negative
  rw [FFmt.toNat_pack n small]
  cases n
  · simp [Nat.div_eq_of_lt small]
  · simp [Nat.add_div_left, Nat.div_eq_of_lt small]

/-- The finite pattern of a sign and magnitude bits reads as their number. -/
theorem FFmt.read_pack (n : Bool) {k : ℕ} (pos : 0 < k) (finite : k ≤ f.maxMag) :
    f.read (f.pack n k) = .fin (if n then -f.val k else f.val k) := by
  have small := finite.trans_lt f.maxMag_lt
  rw [FFmt.read_fin_iff, FFmt.mag_pack n small, FFmt.negative_pack n small]
  exact ⟨pos, finite, rfl⟩

end Sys2Proof.Machine
end

/-! ### Rounding to a grid (R92) -/

section
namespace Sys2Proof.Machine

variable {f : FFmt} {x t : ℚ} {k : ℕ} {mode : RMode} {r : BitVec 16}

/-- The magnitude of `x` stands the part `t` of a step above the value of the magnitude bits `k`. -/
structure OnGrid (f : FFmt) (x : ℚ) (k : ℕ) (t : ℚ) : Prop where
  nonneg : 0 ≤ t
  lt_one : t < 1
  value : |x| = f.val k + t * (f.val (k + 1) - f.val k)

namespace OnGrid
variable (on : OnGrid f x k t)
include on

theorem val_le : f.val k ≤ |x| := by
  have step : 0 < f.val (k + 1) - f.val k := sub_pos.mpr (f.val_strictMono k.lt_succ_self)
  have := mul_nonneg on.nonneg step.le
  rw [on.value]
  linarith

theorem lt_val : |x| < f.val (k + 1) := by
  have step : 0 < f.val (k + 1) - f.val k := sub_pos.mpr (f.val_strictMono k.lt_succ_self)
  have := mul_lt_mul_of_pos_right on.lt_one step
  rw [on.value]
  linarith

theorem eq_zero_iff : t = 0 ↔ |x| = f.val k := by
  have step : f.val (k + 1) - f.val k ≠ 0 := (sub_pos.mpr (f.val_strictMono k.lt_succ_self)).ne'
  rw [on.value]
  simp [step]

theorem le_iff (j : ℕ) : j ≤ k ↔ f.val j ≤ |x| := by
  refine ⟨fun h => (f.val_strictMono.monotone h).trans on.val_le, fun h => ?_⟩
  exact Nat.lt_succ_iff.mp (f.val_strictMono.lt_iff_lt.mp (h.trans_lt on.lt_val))

/-- A value of the grid is placed at its own magnitude bits. -/
theorem eq_of_abs_eq {j : ℕ} (exact : |x| = f.val j) : k = j ∧ t = 0 := by
  have low : j ≤ k := (on.le_iff j).mpr exact.ge
  have high : k ≤ j := f.val_strictMono.le_iff_le.mp (on.val_le.trans exact.le)
  obtain rfl := le_antisymm high low
  exact ⟨rfl, on.eq_zero_iff.mpr exact⟩

end OnGrid

/-- The decision to round up looks at the last bit of the magnitude alone. -/
theorem roundUp_congr {n n' : ℕ} (same : n % 2 = n' % 2) (mode : RMode) (neg : Bool) (t : ℚ) (r : BitVec 16) :
    roundUp mode neg n t r = roundUp mode neg n' t r := by
  cases mode <;> simp [roundUp, same]

theorem roundUp_of_exact (mode : RMode) (neg : Bool) (n : ℕ) (r : BitVec 16) : roundUp mode neg n 0 r = false := if_pos rfl

theorem ite_neg_eq_abs (x : ℚ) : (if decide (x < 0) then -x else x) = |x| := by
  by_cases h : x < 0
  · simp [h, abs_of_neg h]
  · simp [h, abs_of_nonneg (not_lt.mp h)]

theorem toNat_floor_spec {y : ℚ} (nonneg : 0 ≤ y) : (y.floor.toNat : ℚ) ≤ y ∧ y < y.floor.toNat + 1 :=
  ⟨Nat.floor_le nonneg, Nat.lt_floor_add_one y⟩

/-- The exponent of the binade that rounding to a format works in. -/
def FFmt.binade (f : FFmt) (x : ℚ) : ℤ := log2Floor |x| ⊔ (1 - f.bias)

/-- The whole steps of its binade in the magnitude of a number. -/
def FFmt.steps (f : FFmt) (x : ℚ) : ℕ := (|x| / 2 ^ (f.binade x - f.mbits)).floor.toNat

/-- The magnitude bits of the grid's value at or below the magnitude of a number. -/
def FFmt.gridMag (f : FFmt) (x : ℚ) : ℕ := (f.binade x - (1 - f.bias)).toNat * 2 ^ f.mbits + f.steps x

/-- The part of a step that is left above that value. -/
def FFmt.gridPart (f : FFmt) (x : ℚ) : ℚ := |x| / 2 ^ (f.binade x - f.mbits) - f.steps x

theorem FFmt.onGrid (f : FFmt) (nonzero : x ≠ 0) : OnGrid f x (f.gridMag x) (f.gridPart x) := by
  have pos : 0 < |x| := abs_pos.mpr nonzero
  obtain ⟨low, high⟩ := log2Floor_spec pos
  obtain ⟨i, hi⟩ : ∃ i, (f.binade x - (1 - f.bias)).toNat = i := ⟨_, rfl⟩
  have above : (1 - f.bias : ℤ) ≤ f.binade x := le_max_right _ _
  have within : log2Floor |x| ≤ f.binade x := le_max_left _ _
  have exact : i = 0 ∨ f.binade x = log2Floor |x| := by unfold FFmt.binade at *; omega
  have unit : f.binade x - f.mbits = f.least + i := by unfold FFmt.least; omega
  have floor : (f.steps x : ℚ) ≤ |x| / 2 ^ (f.binade x - f.mbits) ∧ |x| / 2 ^ (f.binade x - f.mbits) < f.steps x + 1 :=
    toNat_floor_spec (by positivity)
  unfold FFmt.gridMag FFmt.gridPart
  rw [hi]
  generalize f.steps x = n at *
  generalize f.binade x = e at *
  obtain ⟨floorLow, floorHigh⟩ := floor
  have stepPos : (0 : ℚ) < 2 ^ (e - f.mbits) := by positivity
  have upper : n < 2 ^ (f.mbits + 1) := by
    have : |x| / 2 ^ (e - f.mbits) < 2 ^ (f.mbits + 1) := by
      rw [div_lt_iff₀ stepPos, ← zpow_natCast, ← zpow_add₀ (by norm_num)]
      refine high.trans_le (zpow_le_zpow_right₀ (by norm_num) ?_)
      push_cast
      omega
    exact_mod_cast floorLow.trans_lt this
  have lower : i = 0 ∨ 2 ^ f.mbits ≤ n := by
    refine exact.imp_right fun same => ?_
    have : (2 : ℚ) ^ f.mbits ≤ |x| / 2 ^ (e - f.mbits) := by
      rw [le_div_iff₀ stepPos, ← zpow_natCast, ← zpow_add₀ (by norm_num), add_sub_cancel, same]
      exact low
    exact Nat.lt_succ_iff.mp (by exact_mod_cast this.trans_lt floorHigh)
  refine ⟨by linarith, by linarith, ?_⟩
  unfold FFmt.val
  rw [Nat.add_assoc, gridVal_steps _ upper.le lower, gridVal_steps _ upper (by omega), ← unit]
  push_cast
  field_simp
  ring

/-- The magnitude bits that rounding goes to: those of the grid's value below a number, or the next. -/
def FFmt.roundedMag (f : FFmt) (mode : RMode) (x : ℚ) (r : BitVec 16) : ℕ :=
  if roundUp mode (decide (x < 0)) (f.gridMag x) (f.gridPart x) r then f.gridMag x + 1 else f.gridMag x

/-- round_to of a number whose rounded magnitude is no greater than the largest finite value (R92). -/
theorem roundTo_of_fits (sat : Bool) (fits : f.roundedMag mode x r ≤ f.maxMag) : roundTo x f mode sat r =
    ⟨f.pack (decide (x < 0)) (f.roundedMag mode x r),
      flWhen (decide (f.gridPart x ≠ 0)) flNX |||
        flWhen (decide (f.gridPart x ≠ 0) && decide (f.roundedMag mode x r < 2 ^ f.mbits)) flUF,
      decide (f.gridPart x ≠ 0) && decide (mode = .rs)⟩ := by
  have parity : f.gridMag x % 2 = f.steps x % 2 := by
    obtain ⟨m, hm⟩ := Nat.exists_eq_succ_of_ne_zero f.mbits_pos.ne'
    unfold FFmt.gridMag
    rw [hm, Nat.pow_succ, ← Nat.mul_assoc]
    omega
  have mag : f.roundedMag mode x r = (f.binade x - (1 - f.bias)).toNat * 2 ^ f.mbits +
      if roundUp mode (decide (x < 0)) (f.steps x) (f.gridPart x) r then f.steps x + 1 else f.steps x := by
    unfold FFmt.roundedMag
    rw [roundUp_congr parity, FFmt.gridMag, apply_ite (_ + ·)]
    rfl
  rw [mag] at fits ⊢
  unfold roundTo
  simp only [ite_neg_eq_abs, pow2_eq]
  exact if_neg fits.not_gt

end Sys2Proof.Machine
end

section
namespace Sys2Proof.Machine

/-! ### Exact results -/

section
variable {f : FFmt} {x : ℚ} {k : ℕ}

/-- A value of the format rounds to itself, without a flag and without a draw. -/
theorem roundTo_of_val (pos : 0 < k) (finite : k ≤ f.maxMag) (value : |x| = f.val k) (mode : RMode) (sat : Bool)
    (r : BitVec 16) : roundTo x f mode sat r = .exact (f.pack (decide (x < 0)) k) := by
  have nonzero : x ≠ 0 := abs_pos.mp (value ▸ f.val_pos pos)
  obtain ⟨mag, part⟩ := (f.onGrid nonzero).eq_of_abs_eq value
  have rounded : f.roundedMag mode x r = k := by
    unfold FFmt.roundedMag
    rw [part, roundUp_of_exact, mag]
    rfl
  rw [roundTo_of_fits sat (rounded.trans_le finite), rounded, part]
  simp [FRes.exact, flWhen, flNone]

theorem read_pack_of_val (pos : 0 < k) (finite : k ≤ f.maxMag) (value : |x| = f.val k) :
    f.read (f.pack (decide (x < 0)) k) = .fin x := by
  rw [FFmt.read_pack _ pos finite, ← value]
  by_cases neg : x < 0
  · simp [neg, abs_of_neg neg]
  · simp [neg, abs_of_nonneg (not_lt.mp neg)]

/-- The value of the first magnitude bits of a binade. -/
theorem FFmt.val_binade (f : FFmt) (i : ℕ) : f.val ((i + 1) * 2 ^ f.mbits) = 2 ^ (1 - f.bias + i : ℤ) := by
  unfold FFmt.val
  rw [Nat.succ_mul, gridVal_steps _ (Nat.pow_le_pow_right (by decide) (Nat.le_succ _)) (.inr le_rfl), FFmt.least]
  push_cast
  rw [← zpow_natCast, ← zpow_add₀ (by norm_num)]
  congr 1
  ring

/-- The value of the first FP32 pattern beyond the finite ones would be 2^128. -/
theorem fp32_val_top : FFmt.fp32.val (255 * 2 ^ 23) = 2 ^ 128 :=
  (FFmt.fp32.val_binade 254).trans (by norm_num [FFmt.bias])

/-- A number of at most 24 significant bits within the range of FP32 is an FP32 value. -/
theorem exists_fp32_val {n i : ℕ} (nonzero : x ≠ 0) (digits : n < 2 ^ 24) (value : |x| = n * 2 ^ (-149 + i : ℤ))
    (bound : |x| < 2 ^ 128) : ∃ k, 0 < k ∧ k ≤ FFmt.fp32.maxMag ∧ |x| = FFmt.fp32.val k := by
  obtain ⟨k, hk⟩ : ∃ k, FFmt.fp32.val k = n * 2 ^ (-149 + i : ℤ) := exists_gridVal _ i digits
  rw [← hk] at value
  refine ⟨k, ?_, ?_, value⟩
  · by_contra zero
    obtain rfl : k = 0 := by omega
    exact nonzero (abs_eq_zero.mp (value.trans FFmt.fp32.val_zero))
  · rw [value, ← fp32_val_top] at bound
    exact Nat.lt_succ_iff.mp (FFmt.fp32.val_strictMono.lt_iff_lt.mp bound)

theorem read_fp32Of_of_digits {n i : ℕ} (nonzero : x ≠ 0) (digits : n < 2 ^ 24) (value : |x| = n * 2 ^ (-149 + i : ℤ))
    (bound : |x| < 2 ^ 128) : FFmt.fp32.read (fp32Of x) = .fin x := by
  obtain ⟨k, pos, finite, value⟩ := exists_fp32_val nonzero digits value bound
  unfold fp32Of
  rw [if_neg nonzero, roundTo_of_val pos finite value]
  exact read_pack_of_val pos finite value

end

/-! ### Rounding to the nearest -/

/-- Rounding to the nearest goes up from a half on, and stays up to a half. -/
theorem half_of_roundUp_rne (neg : Bool) (n : ℕ) (t : ℚ) (r : BitVec 16) :
    if roundUp .rne neg n t r then 1 / 2 ≤ t else t ≤ 1 / 2 := by
  unfold roundUp
  rcases lt_trichotomy t (1 / 2) with below | half | above
  · have stays : ¬ (1 / 2 < t ∨ t = 1 / 2 ∧ n % 2 = 1) := by
      rintro (h | h) <;> linarith
    simp only [gt_iff_lt, Bool.if_false_left, Bool.and_eq_true, Bool.or_eq_true, decide_eq_true_eq, beq_iff_eq, stays, and_false,
      if_false]
    exact below.le
  · simp [half]
  · have nonzero : t ≠ 0 := by linarith
    simp only [gt_iff_lt, if_neg nonzero, above, decide_true, Bool.true_or, if_true]
    exact above.le

/-- The whole number that rounding goes to from a magnitude. -/
theorem abs_rounded_sub_le {y : ℚ} {n : ℕ} (low : (n : ℚ) ≤ y) (high : y < n + 1) (neg : Bool) (r : BitVec 16) :
    |((if roundUp .rne neg n (y - n) r then n + 1 else n : ℤ) : ℚ) - y| ≤ 1 / 2 := by
  have half := half_of_roundUp_rne neg n (y - n) r
  rw [abs_le]
  split at half
  case isTrue up =>
    rw [if_pos up]
    push_cast
    constructor <;> linarith
  case isFalse down =>
    rw [if_neg down]
    push_cast
    constructor <;> linarith

/-- Rounding to the nearest integer moves a number by at most a half. -/
theorem abs_roundInt_sub_le (x : ℚ) (r : BitVec 16) : |((roundInt x .rne r).1 : ℚ) - x| ≤ 1 / 2 := by
  obtain ⟨low, high⟩ := toNat_floor_spec (abs_nonneg x)
  have near := abs_rounded_sub_le low high (decide (x < 0)) r
  unfold roundInt
  simp only [ite_neg_eq_abs]
  generalize (ite (roundUp .rne _ _ _ _ = true) _ _ : ℤ) = n at near ⊢
  by_cases neg : x < 0
  · rw [abs_of_neg neg, sub_neg_eq_add, ← abs_neg, neg_add, ← sub_eq_add_neg] at near
    simpa [neg] using near
  · rw [abs_of_nonneg (not_lt.mp neg)] at near
    simpa [neg] using near

theorem roundInt_intCast (n : ℤ) (mode : RMode) (r : BitVec 16) : roundInt n mode r = (n, true) := by
  have cast : |(n : ℚ)| = n.natAbs := by rw [Nat.cast_natAbs, Int.cast_abs]
  have floor : (|(n : ℚ)|).floor.toNat = n.natAbs := by
    rw [cast]
    exact Nat.floor_natCast (R := ℚ) _
  unfold roundInt
  simp only [ite_neg_eq_abs, floor]
  simp only [cast, sub_self, roundUp_of_exact]
  by_cases neg : n < 0
  · simp [neg, abs_of_neg neg]
  · simp [neg, abs_of_nonneg (not_lt.mp neg)]

/-! ### Rounding up -/

/-- Rounding a positive number up goes to the least value at or above it. -/
theorem roundedMag_ru_le_iff {f : FFmt} {x : ℚ} (pos : 0 < x) (r : BitVec 16) (j : ℕ) :
    f.roundedMag .ru x r ≤ j ↔ x ≤ f.val j := by
  have on := f.onGrid pos.ne'
  have above := on.le_iff j
  have exact_iff := on.eq_zero_iff
  rw [abs_of_pos pos] at above exact_iff
  have up : roundUp .ru (decide (x < 0)) (f.gridMag x) (f.gridPart x) r = !decide (f.gridPart x = 0) := by
    by_cases exact : f.gridPart x = 0 <;> simp [roundUp, exact, pos.le]
  unfold FFmt.roundedMag
  rw [up]
  by_cases exact : f.gridPart x = 0
  · rw [decide_eq_true exact, Bool.not_true, if_neg Bool.false_ne_true, ← f.val_strictMono.le_iff_le, ← exact_iff.mp exact]
  · rw [decide_eq_false exact, Bool.not_false, if_pos rfl, Nat.succ_le_iff, ← not_le, above, not_le]
    refine ⟨le_of_lt, fun h => lt_of_le_of_ne h fun same => exact ?_⟩
    exact (on.eq_of_abs_eq (by rw [abs_of_pos pos, same])).2

end Sys2Proof.Machine
end

section
namespace Sys2Proof.Machine

/-! ### Block scales (R90, R113) -/

/-- The block scales are a grid of two bits of M, from the first value that has its hidden bit. -/
def scaleVal (c : ℕ) : ℚ := gridVal 2 (-129) (c + 4)

theorem scaleVal_strictMono : StrictMono scaleVal := fun _ _ h => gridVal_strictMono _ _ (Nat.add_lt_add_right h 4)

/-- The value of a scale's code is the count of its steps. -/
theorem scaleVal_steps (i : ℕ) {k : ℕ} (upper : k ≤ 4) : scaleVal (i * 4 + k) = (4 + k) * 2 ^ (-129 + i : ℤ) := by
  unfold scaleVal
  have steps := gridVal_steps (m := 2) (-129) (i := i) (n := 4 + k) (by omega) (.inr (by omega))
  rw [show i * 4 + k + 4 = i * 2 ^ 2 + (4 + k) by omega, steps]
  push_cast
  rfl

theorem blockScale_eq (w : Word) :
    blockScale w = if w.toNat % 1024 < 1020 then some (scaleVal (w.toNat % 1024)) else none := by
  have fields : w.toNat % 1024 = w.toNat / 4 % 256 * 4 + w.toNat % 4 := by omega
  have small : w.toNat % 4 ≤ 4 := by omega
  have nan : w.toNat / 4 % 256 = 255 ↔ ¬ w.toNat % 1024 < 1020 := by omega
  unfold blockScale
  simp only [nan, ite_not, fields, scaleVal_steps _ small, pow2_eq]
  split
  case isTrue =>
    rw [show (-129 + (w.toNat / 4 % 256 : ℕ) : ℤ) = ((w.toNat / 4 % 256 : ℕ) : ℤ) - 127 - 2 by ring,
      zpow_sub₀ (by norm_num) _ 2]
    congr 1
    ring
  case isFalse => rfl

theorem blockScale_eq_some {w : Word} {s : ℚ} :
    blockScale w = some s ↔ w.toNat % 1024 < 1020 ∧ scaleVal (w.toNat % 1024) = s := by
  rw [blockScale_eq]
  split
  case isTrue small => simp [small]
  case isFalse large => simp [large]

/-- The code of the least scale at or above a positive number. -/
def scaleCode (t : ℚ) : ℕ :=
  (log2Floor t ⊔ (-127) + 127).toNat * 4 + ((t / 2 ^ (log2Floor t ⊔ (-127)) - 1) * 4).ceil.toNat

theorem toNat_ceil_eq (y : ℚ) : y.ceil.toNat = ⌈y⌉₊ :=
  eq_of_forall_ge_iff fun n => by rw [Int.toNat_le, Rat.ceil_le_iff, Nat.ceil_le, Int.cast_natCast]

/-- A positive number stands a count of steps above the start of a binade of the scales, or below that of the first. -/
theorem exists_scaleCode {t : ℚ} (pos : 0 < t) : ∃ i y, scaleCode t = i * 4 + ⌈y⌉₊ ∧ t = (4 + y) * 2 ^ (-129 + i : ℤ) ∧ y < 4 ∧
    (i = 0 ∨ 0 ≤ y) := by
  obtain ⟨low, high⟩ := log2Floor_spec pos
  unfold scaleCode
  obtain ⟨i, hi⟩ : ∃ i : ℕ, (i : ℤ) = log2Floor t ⊔ (-127) + 127 := ⟨_, Int.toNat_of_nonneg (by omega)⟩
  have exact : i = 0 ∨ log2Floor t ⊔ (-127) = log2Floor t := by omega
  have within : log2Floor t ≤ log2Floor t ⊔ (-127) := le_max_left _ _
  generalize log2Floor t ⊔ (-127) = e at *
  rw [← hi, Int.toNat_natCast, toNat_ceil_eq]
  have binade : (0 : ℚ) < 2 ^ e := by positivity
  refine ⟨i, _, rfl, ?value, ?upper, exact.imp_right fun same => ?lower⟩
  case value =>
    have unit : (2 : ℚ) ^ e = 4 * 2 ^ (-129 + i : ℤ) := by
      rw [show (-129 + i : ℤ) = e - 2 by omega, zpow_sub₀ (by norm_num) _ 2]
      ring
    field_simp
    rw [unit]
    ring
  case upper =>
    have : t / 2 ^ e < 2 := by
      rw [div_lt_iff₀ binade, ← zpow_one_add₀ (by norm_num)]
      exact high.trans_le (zpow_le_zpow_right₀ (by norm_num) (by omega))
    linarith
  case lower =>
    have : 1 ≤ t / 2 ^ e := (one_le_div binade).mpr (same ▸ low)
    linarith

theorem scaleCode_le_iff {t : ℚ} (pos : 0 < t) (j : ℕ) : scaleCode t ≤ j ↔ t ≤ scaleVal j := by
  obtain ⟨i, y, code, value, upper, lower⟩ := exists_scaleCode pos
  have small : ⌈y⌉₊ ≤ 4 := Nat.ceil_le.mpr (by exact_mod_cast upper.le)
  have stepPos : (0 : ℚ) < 2 ^ (-129 + i : ℤ) := by positivity
  have steps (k : ℕ) (hk : k ≤ 4) : t ≤ scaleVal (i * 4 + k) ↔ ⌈y⌉₊ ≤ k := by
    rw [scaleVal_steps i hk, value, mul_le_mul_iff_left₀ stepPos, add_le_add_iff_left, Nat.ceil_le]
  rw [code]
  refine ⟨fun h => ((steps _ small).mpr le_rfl).trans (scaleVal_strictMono.monotone h), fun above => ?_⟩
  by_contra less
  rcases Nat.lt_or_ge j (i * 4) with before | within
  · have nonneg : 0 ≤ y := lower.resolve_left (by omega)
    have start : scaleVal j < scaleVal (i * 4 + 0) := scaleVal_strictMono before
    rw [scaleVal_steps i (by omega), Nat.cast_zero, add_zero] at start
    refine (above.trans_lt start).not_ge ?_
    rw [value]
    gcongr
    linarith
  · obtain ⟨k, rfl⟩ := Nat.exists_eq_add_of_le within
    have := (steps k (by omega)).mp above
    omega

theorem scaleVal_top : scaleVal 1019 = 7 / 4 * 2 ^ 127 := by
  rw [show 1019 = 254 * 4 + 3 by norm_num, scaleVal_steps _ (by norm_num)]
  norm_num

theorem scaleAtLeast_of_gt {t : ℚ} (above : t > 7 / 4 * 2 ^ 127) : scaleAtLeast t = ⟨0x3FB, flOF, false⟩ := by
  unfold scaleAtLeast
  rw [pow2_eq, mul_comm]
  exact if_pos above

theorem scaleAtLeast_of_le {t : ℚ} (bound : t ≤ 7 / 4 * 2 ^ 127) : scaleAtLeast t = .exact (BitVec.ofNat 32 (scaleCode t)) := by
  unfold scaleAtLeast scaleCode
  simp only [pow2_eq]
  rw [mul_comm]
  exact if_neg bound.not_gt

/-- The scale chosen is the least at or above the target (R113). -/
theorem scaleAtLeast_least {t : ℚ} (pos : 0 < t) (bound : t ≤ 7 / 4 * 2 ^ 127) :
    (scaleAtLeast t).fl = 0 ∧ (scaleAtLeast t).v.toNat < 1020 ∧ ∃ s, blockScale (scaleAtLeast t).v = some s ∧ t ≤ s ∧
      ∀ (u : Word) (z : ℚ), blockScale u = some z → t ≤ z → s ≤ z := by
  have small : scaleCode t ≤ 1019 := (scaleCode_le_iff pos _).mpr (bound.trans_eq scaleVal_top.symm)
  have bits : (scaleAtLeast t).v.toNat = scaleCode t := by
    rw [scaleAtLeast_of_le bound]
    exact Nat.mod_eq_of_lt (by omega)
  refine ⟨by rw [scaleAtLeast_of_le bound]; rfl, by omega, scaleVal (scaleCode t), ?_, ?_, fun u z scale above => ?_⟩
  · rw [blockScale_eq_some, bits, Nat.mod_eq_of_lt (by omega)]
    exact ⟨by omega, rfl⟩
  · exact (scaleCode_le_iff pos _).mp le_rfl
  · obtain ⟨-, rfl⟩ := blockScale_eq_some.mp scale
    exact scaleVal_strictMono.monotone ((scaleCode_le_iff pos _).mpr above)

/-! ### The least FP16 value at or above a number (R113) -/

theorem halfAtLeast_of_gt {t : ℚ} (above : t > 65504) : halfAtLeast t = ⟨0x7BFF, flOF, false⟩ := if_pos above

theorem fp16_val_maxMag : FFmt.fp16.val FFmt.fp16.maxMag = 65504 := by
  have index : FFmt.fp16.maxMag = 29 * 2 ^ FFmt.fp16.mbits + 2047 := by decide
  rw [index, FFmt.val, gridVal_steps _ (by decide) (.inr (by decide))]
  norm_num [FFmt.least, FFmt.bias, FFmt.mbits]

theorem halfAtLeast_least {t : ℚ} (pos : 0 < t) (bound : t ≤ 65504) :
    (halfAtLeast t).fl = 0 ∧ (halfAtLeast t).v.toNat < 0x8000 ∧ ∃ s, FFmt.fp16.read (halfAtLeast t).v = .fin s ∧ t ≤ s ∧
      ∀ (u : Word) (z : ℚ), FFmt.fp16.read u = .fin z → t ≤ z → s ≤ z := by
  set k := FFmt.fp16.roundedMag .ru t 0 with hk
  have least (j : ℕ) : k ≤ j ↔ t ≤ FFmt.fp16.val j := roundedMag_ru_le_iff pos 0 j
  have fits : k ≤ FFmt.fp16.maxMag := (least _).mpr (bound.trans_eq fp16_val_maxMag.symm)
  have bits : halfAtLeast t = .exact (FFmt.fp16.pack false k) := by
    unfold halfAtLeast
    rw [if_neg bound.not_gt, roundTo_of_fits false fits, decide_eq_false pos.not_gt]
  have nonzero : 0 < k := by
    by_contra zero
    have := (least 0).mp (by omega)
    rw [FFmt.val_zero] at this
    exact this.not_gt pos
  have small : k < 2 ^ (FFmt.fp16.mbits + FFmt.fp16.ebits) := fits.trans_lt FFmt.maxMag_lt
  rw [bits]
  refine ⟨rfl, ?_, FFmt.fp16.val k, FFmt.read_pack false nonzero fits, (least k).mp le_rfl, fun u z read above => ?_⟩
  · change (FFmt.fp16.pack false k).toNat < _
    rw [FFmt.toNat_pack false small]
    simpa [FFmt.mbits, FFmt.ebits] using small
  · have value := FFmt.abs_of_read read
    rw [abs_of_pos (pos.trans_le above)] at value
    rw [value] at above ⊢
    exact FFmt.fp16.val_strictMono.monotone ((least _).mpr above)

end Sys2Proof.Machine
end

section
namespace Sys2Proof.Machine

/-! ### Square roots (R115) -/

theorem isqrtAux_spec (n : ℕ) : ∀ k s, s * s ≤ n → n < (s + 2 ^ k) * (s + 2 ^ k) →
    isqrtAux n k s * isqrtAux n k s ≤ n ∧ n < (isqrtAux n k s + 1) * (isqrtAux n k s + 1)
  | 0, _, low, high => ⟨low, high⟩
  | k + 1, s, low, high => by
    unfold isqrtAux
    split
    case isTrue fits => exact isqrtAux_spec n k _ fits (by rw [Nat.add_assoc, ← Nat.two_mul, ← Nat.pow_succ']; exact high)
    case isFalse exceeds => exact isqrtAux_spec n k s low (by omega)

theorem isqrt_eq (n : ℕ) : isqrt n = n.sqrt := by
  refine Nat.eq_sqrt.mpr (isqrtAux_spec n _ 0 (Nat.zero_le _) ?_)
  rw [Nat.zero_add, ← Nat.pow_add]
  exact Nat.lt_log2_self.trans_le (Nat.pow_le_pow_right (by decide) (by omega))

/-- The parts into which the model's square root of `x` counts. -/
def sqrtParts (x : ℚ) : ℕ := x.den * 2 ^ (64 + Nat.log2 x.den)

theorem sqrtParts_pos (x : ℚ) : (0 : ℝ) < sqrtParts x := by
  exact_mod_cast Nat.mul_pos x.den_pos (Nat.two_pow_pos _)

/-- The rational that stands for a root is the root itself, or the middle of the part that holds it. -/
theorem sqrtRep_cell {x : ℚ} (pos : 0 < x) : ∃ s : ℕ, 2 ^ (64 + Nat.log2 x.den) ≤ s ∧
    ((sqrtRep x : ℝ) = s / sqrtParts x ∧ √(x : ℝ) = s / sqrtParts x ∨
      (sqrtRep x : ℝ) = (s + 1 / 2) / sqrtParts x ∧ s / sqrtParts x < √(x : ℝ) ∧ √(x : ℝ) < (s + 1) / sqrtParts x) := by
  have parts := sqrtParts_pos x
  set k := 64 + Nat.log2 x.den with hk
  set n := x.num.natAbs * x.den * 4 ^ k with hn
  have num : 0 < x.num := Rat.num_pos.mpr pos
  have numCast : ((x.num.natAbs : ℕ) : ℚ) = x.num := by
    rw [← Int.cast_natCast, Int.natAbs_of_nonneg num.le]
  have square : (x : ℝ) * (sqrtParts x * sqrtParts x) = n := by
    have value : x * x.den = x.num := Rat.mul_den_eq_num x
    have : x * (sqrtParts x * sqrtParts x) = n := by
      unfold sqrtParts
      rw [hn, ← hk]
      push_cast
      rw [numCast, ← value, show (4 : ℚ) = 2 * 2 by norm_num, mul_pow]
      ring
    exact_mod_cast this
  have root : √(x : ℝ) = √(n : ℝ) / sqrtParts x := by
    rw [eq_div_iff parts.ne', ← square, Real.sqrt_mul (by exact_mod_cast pos.le), Real.sqrt_mul_self parts.le]
  have rep : sqrtRep x = if n.sqrt * n.sqrt = n then mkRat n.sqrt (sqrtParts x) else mkRat (2 * n.sqrt + 1) (2 * sqrtParts x) := by
    unfold sqrtRep sqrtParts
    simp only [isqrt_eq]
    rw [← hk, ← hn, Nat.pow_succ, ← Nat.mul_assoc, Nat.mul_comm 2]
  have large : 2 ^ k ≤ n.sqrt := by
    rw [Nat.le_sqrt, ← Nat.mul_pow, hn]
    exact Nat.le_mul_of_pos_left _ (Nat.mul_pos (by omega) x.den_pos)
  refine ⟨n.sqrt, large, ?_⟩
  by_cases exact : n.sqrt * n.sqrt = n
  · left
    rw [rep, if_pos exact, root, ← exact]
    push_cast
    rw [Real.sqrt_mul_self (Nat.cast_nonneg _), exact, Rat.mkRat_eq_div]
    push_cast
    exact ⟨rfl, rfl⟩
  · right
    rw [rep, if_neg exact, root]
    refine ⟨?_, ?_, ?_⟩
    · rw [Rat.mkRat_eq_div]
      push_cast
      field_simp
    · gcongr
      refine lt_of_le_of_ne Real.nat_sqrt_le_real_sqrt fun same => exact ?_
      have := Real.mul_self_sqrt (Nat.cast_nonneg n : (0 : ℝ) ≤ n)
      rw [← same] at this
      exact_mod_cast this
    · gcongr
      exact Real.real_sqrt_lt_nat_sqrt_succ

/-- The rational that stands for a root and the root itself lie on the same side of every whole count of parts. -/
theorem sqrtRep_le_iff {x : ℚ} (pos : 0 < x) (h : ℕ) :
    ((sqrtRep x : ℝ) ≤ h / sqrtParts x ↔ √(x : ℝ) ≤ h / sqrtParts x) ∧
      ((h / sqrtParts x : ℝ) ≤ sqrtRep x ↔ h / sqrtParts x ≤ √(x : ℝ)) := by
  have parts := sqrtParts_pos x
  obtain ⟨s, -, ⟨rep, root⟩ | ⟨rep, low, high⟩⟩ := sqrtRep_cell pos
  · rw [rep, root]
    exact ⟨Iff.rfl, Iff.rfl⟩
  · rw [rep, div_le_div_iff_of_pos_right parts, div_le_div_iff_of_pos_right parts]
    rcases Nat.lt_or_ge s h with above | below
    · have count : (s : ℝ) + 1 ≤ h := by exact_mod_cast above
      have beyond : √(x : ℝ) < h / sqrtParts x := high.trans_le ((div_le_div_iff_of_pos_right parts).mpr count)
      exact ⟨iff_of_true (by linarith) beyond.le, iff_of_false (by linarith) beyond.not_ge⟩
    · have count : (h : ℝ) ≤ s := by exact_mod_cast below
      have beyond : h / sqrtParts x < √(x : ℝ) := ((div_le_div_iff_of_pos_right parts).mpr count).trans_lt low
      exact ⟨iff_of_false (by linarith) beyond.not_ge, iff_of_true (by linarith) beyond.le⟩

/-- A multiple of a power of two that is not too small is a whole count of parts. -/
theorem exists_parts (x : ℚ) (n : ℕ) {j : ℤ} (fine : -(64 + Nat.log2 x.den : ℕ) ≤ j) :
    ∃ h : ℕ, (n * 2 ^ j : ℝ) = h / sqrtParts x := by
  have parts := sqrtParts_pos x
  obtain ⟨i, hi⟩ : ∃ i : ℕ, (i : ℤ) = j + (64 + Nat.log2 x.den : ℕ) := ⟨_, Int.toNat_of_nonneg (by omega)⟩
  refine ⟨n * 2 ^ i * x.den, ?_⟩
  have den : (0 : ℝ) < x.den := by exact_mod_cast x.den_pos
  unfold sqrtParts
  rw [show j = i - (64 + Nat.log2 x.den : ℕ) by omega, zpow_sub₀ (by norm_num), zpow_natCast, zpow_natCast]
  push_cast
  field_simp

/-- The root is within a factor of two of the rational that stands for it, and neither is small beside the denominator. -/
theorem sqrtRep_bounds {x : ℚ} (pos : 0 < x) : √(x : ℝ) / 2 ≤ sqrtRep x ∧ (sqrtRep x : ℝ) ≤ 2 * √(x : ℝ) ∧
    (2 : ℝ) ^ (-(Nat.log2 x.den + 1 : ℕ) : ℤ) < sqrtRep x := by
  have parts := sqrtParts_pos x
  obtain ⟨s, large, cell⟩ := sqrtRep_cell pos
  have one : (1 : ℝ) ≤ s := by exact_mod_cast Nat.one_le_two_pow.trans large
  have den : (0 : ℝ) < x.den := by exact_mod_cast x.den_pos
  have least : (2 : ℝ) ^ (-(Nat.log2 x.den + 1 : ℕ) : ℤ) < s / sqrtParts x := by
    have bits : (x.den : ℝ) < 2 ^ (Nat.log2 x.den + 1) := by exact_mod_cast Nat.lt_log2_self
    have cast : (2 : ℝ) ^ (64 + Nat.log2 x.den) ≤ s := by exact_mod_cast large
    have value : (sqrtParts x : ℝ) = x.den * 2 ^ (64 + Nat.log2 x.den) := by simp [sqrtParts]
    rw [lt_div_iff₀ parts, value, zpow_neg, zpow_natCast, inv_mul_lt_iff₀ (by positivity)]
    calc (x.den : ℝ) * 2 ^ (64 + Nat.log2 x.den) < 2 ^ (Nat.log2 x.den + 1) * 2 ^ (64 + Nat.log2 x.den) := by gcongr
      _ ≤ _ := by gcongr
  rcases cell with ⟨rep, root⟩ | ⟨rep, low, high⟩
  · have : (0 : ℝ) < s / sqrtParts x := by positivity
    rw [rep, root]
    exact ⟨by linarith, by linarith, least⟩
  · have unit : 1 / sqrtParts x ≤ (s / sqrtParts x : ℝ) := by gcongr
    rw [add_div] at high
    rw [rep, add_div]
    have half : (1 / 2 : ℝ) / sqrtParts x = 1 / sqrtParts x / 2 := by ring
    have : (0 : ℝ) < 1 / sqrtParts x := by positivity
    exact ⟨by linarith, by linarith, by linarith⟩

/-- Where a real lies on the same side of the middle of a step as the number that is rounded, and within the step, the value
that rounding to the nearest goes to is nearest to the real. -/
theorem abs_rounded_sub_le_of_side {f : FFmt} {x : ℚ} {root : ℝ} {r : BitVec 16} (nonzero : x ≠ 0)
    (low : (f.val (f.gridMag x) : ℝ) ≤ root) (high : root ≤ f.val (f.gridMag x + 1))
    (side : ((f.val (f.gridMag x) + f.val (f.gridMag x + 1)) / 2 ≤ |x| →
        (f.val (f.gridMag x) + f.val (f.gridMag x + 1) : ℝ) / 2 ≤ root) ∧
      (|x| ≤ (f.val (f.gridMag x) + f.val (f.gridMag x + 1)) / 2 →
        root ≤ (f.val (f.gridMag x) + f.val (f.gridMag x + 1) : ℝ) / 2)) (j : ℕ) :
    |(f.val (f.roundedMag .rne x r) : ℝ) - root| ≤ |(f.val j : ℝ) - root| := by
  have on := f.onGrid nonzero
  have step : 0 < f.val (f.gridMag x + 1) - f.val (f.gridMag x) := sub_pos.mpr (f.val_strictMono (Nat.lt_succ_self _))
  have half := half_of_roundUp_rne (decide (x < 0)) (f.gridMag x) (f.gridPart x) r
  have value := on.value
  have far : root - f.val (f.gridMag x) ≤ |(f.val j : ℝ) - root| ∨ f.val (f.gridMag x + 1) - root ≤ |(f.val j : ℝ) - root| := by
    rcases Nat.lt_or_ge (f.gridMag x) j with above | below
    · right
      have : (f.val (f.gridMag x + 1) : ℝ) ≤ f.val j := by exact_mod_cast f.val_strictMono.monotone above
      exact (by linarith : _ ≤ (f.val j : ℝ) - root).trans (le_abs_self _)
    · left
      have : (f.val j : ℝ) ≤ f.val (f.gridMag x) := by exact_mod_cast f.val_strictMono.monotone below
      exact (by linarith : _ ≤ -((f.val j : ℝ) - root)).trans (neg_le_abs _)
  unfold FFmt.roundedMag
  split at half
  case isTrue up =>
    have beyond := side.1 (by rw [value]; nlinarith)
    rw [if_pos up, abs_of_nonneg (by linarith)]
    rcases far with far | far <;> linarith
  case isFalse down =>
    have within := side.2 (by rw [value]; nlinarith)
    rw [if_neg down, abs_of_nonpos (by linarith)]
    rcases far with far | far <;> linarith

theorem sqrtRep_pos {x : ℚ} (pos : 0 < x) : 0 < sqrtRep x := by
  obtain ⟨-, -, large⟩ := sqrtRep_bounds pos
  have : (0 : ℝ) < sqrtRep x := lt_trans (by positivity) large
  exact_mod_cast this

/-- The values about a root, and the middle between them, are whole counts of its parts. -/
theorem exists_parts_of_gridMag {x : ℚ} (pos : 0 < x) :
    ∃ a b c : ℕ, (FFmt.fp32.val (FFmt.fp32.gridMag (sqrtRep x)) : ℝ) = a / sqrtParts x ∧
      (FFmt.fp32.val (FFmt.fp32.gridMag (sqrtRep x) + 1) : ℝ) = b / sqrtParts x ∧
      (FFmt.fp32.val (FFmt.fp32.gridMag (sqrtRep x)) + FFmt.fp32.val (FFmt.fp32.gridMag (sqrtRep x) + 1) : ℝ) / 2 =
        c / sqrtParts x := by
  obtain ⟨-, -, large⟩ := sqrtRep_bounds pos
  have above := (FFmt.fp32.onGrid (sqrtRep_pos pos).ne').lt_val
  rw [abs_of_pos (sqrtRep_pos pos)] at above
  obtain ⟨i, n, hk, upper, lower⟩ := exists_steps 23 (FFmt.fp32.gridMag (sqrtRep x))
  rw [hk] at above ⊢
  have val : FFmt.fp32.val (i * 2 ^ 23 + n) = n * 2 ^ (-149 + i : ℤ) := gridVal_steps _ upper.le lower
  have next : FFmt.fp32.val (i * 2 ^ 23 + n + 1) = (n + 1 : ℕ) * 2 ^ (-149 + i : ℤ) := by
    rw [Nat.add_assoc]
    exact gridVal_steps _ (Nat.succ_le_of_lt upper) (lower.imp_right (Nat.le_succ_of_le ·))
  have fine : -(64 + Nat.log2 x.den : ℕ) ≤ (-150 + i : ℤ) := by
    have : (2 : ℝ) ^ (-(Nat.log2 x.den + 1 : ℕ) : ℤ) < 2 ^ (24 + (-149 + i) : ℤ) := by
      refine large.trans (lt_of_lt_of_le (b := ((FFmt.fp32.val (i * 2 ^ 23 + n + 1) : ℚ) : ℝ)) (by exact_mod_cast above) ?_)
      have count : ((n + 1 : ℕ) : ℝ) ≤ 2 ^ (24 : ℤ) := by exact_mod_cast Nat.succ_le_of_lt upper
      rw [next, zpow_add₀ two_ne_zero 24, Rat.cast_mul, Rat.cast_zpow, Rat.cast_natCast, Rat.cast_ofNat]
      gcongr
    have := (zpow_lt_zpow_iff_right₀ (by norm_num)).mp this
    omega
  have double : (2 : ℝ) ^ (-149 + i : ℤ) = 2 * 2 ^ (-150 + i : ℤ) := by
    rw [← zpow_one_add₀ (by norm_num)]
    congr 1
    ring
  obtain ⟨a, ha⟩ := exists_parts x (2 * n) fine
  obtain ⟨b, hb⟩ := exists_parts x (2 * (n + 1)) fine
  obtain ⟨c, hc⟩ := exists_parts x (2 * n + 1) fine
  refine ⟨a, b, c, ?_, ?_, ?_⟩
  · rw [← ha, val]
    push_cast
    rw [double]
    ring
  · rw [← hb, next]
    push_cast
    rw [double]
    ring
  · rw [← hc, val, next]
    push_cast
    rw [double]
    ring

/-- The magnitude bits of the FP32 value that a root rounds to. -/
def rootMag (x : ℚ) : ℕ := FFmt.fp32.roundedMag .rne (sqrtRep x) 0

theorem rootMag_eq (x : ℚ) :
    rootMag x = FFmt.fp32.gridMag (sqrtRep x) + 1 ∨ rootMag x = FFmt.fp32.gridMag (sqrtRep x) :=
  ite_eq_or_eq _ _ _

section
variable {x : ℚ} (pos : 0 < x)
include pos

theorem sqrtRep_onGrid :
    OnGrid .fp32 (sqrtRep x) (FFmt.fp32.gridMag (sqrtRep x)) (FFmt.fp32.gridPart (sqrtRep x)) ∧ |sqrtRep x| = sqrtRep x :=
  ⟨FFmt.onGrid _ (sqrtRep_pos pos).ne', abs_of_pos (sqrtRep_pos pos)⟩

/-- No value of FP32 is nearer to a root than the one it rounds to. -/
theorem abs_val_rootMag_sub_le (j : ℕ) :
    |(FFmt.fp32.val (rootMag x) : ℝ) - √(x : ℝ)| ≤ |(FFmt.fp32.val j : ℝ) - √(x : ℝ)| := by
  obtain ⟨on, same⟩ := sqrtRep_onGrid pos
  have below := on.val_le
  have above := on.lt_val
  rw [same] at below above
  obtain ⟨a, b, c, ha, hb, hc⟩ := exists_parts_of_gridMag pos
  refine abs_rounded_sub_le_of_side (sqrtRep_pos pos).ne' ?low ?high ?side j
  case low =>
    rw [ha, ← (sqrtRep_le_iff pos a).2, ← ha]
    exact_mod_cast below
  case high =>
    rw [hb, ← (sqrtRep_le_iff pos b).1, ← hb]
    exact_mod_cast above.le
  case side =>
    rw [same, hc, ← (sqrtRep_le_iff pos c).1, ← (sqrtRep_le_iff pos c).2, ← hc]
    exact ⟨fun h => by exact_mod_cast h, fun h => by exact_mod_cast h⟩

/-- The rounding of a root is exact when the value it goes to is the root. -/
theorem gridPart_sqrtRep_eq_zero_iff :
    FFmt.fp32.gridPart (sqrtRep x) = 0 ↔ FFmt.fp32.val (rootMag x) * FFmt.fp32.val (rootMag x) = x := by
  obtain ⟨on, same⟩ := sqrtRep_onGrid pos
  have parts : ∃ h : ℕ, (FFmt.fp32.val (rootMag x) : ℝ) = h / sqrtParts x := by
    obtain ⟨a, b, -, ha, hb, -⟩ := exists_parts_of_gridMag pos
    rcases rootMag_eq x with h | h
    · exact ⟨b, by rw [h, hb]⟩
    · exact ⟨a, by rw [h, ha]⟩
  have value : FFmt.fp32.gridPart (sqrtRep x) = 0 ↔ sqrtRep x = FFmt.fp32.val (rootMag x) := by
    constructor
    · intro part
      have exact := on.eq_zero_iff.mp part
      rw [same] at exact
      rw [rootMag, FFmt.roundedMag, part, roundUp_of_exact]
      exact exact
    · intro exact
      exact (on.eq_of_abs_eq (same.trans exact)).2
  have root : √(x : ℝ) = FFmt.fp32.val (rootMag x) ↔ sqrtRep x = FFmt.fp32.val (rootMag x) := by
    obtain ⟨h, hh⟩ := parts
    have sides : (sqrtRep x : ℝ) = h / sqrtParts x ↔ √(x : ℝ) = h / sqrtParts x := by
      rw [le_antisymm_iff, le_antisymm_iff, (sqrtRep_le_iff pos h).1, (sqrtRep_le_iff pos h).2]
    rw [hh, ← sides, ← hh]
    norm_cast
  rw [value, ← root, Real.sqrt_eq_iff_mul_self_eq (by exact_mod_cast pos.le) (by exact_mod_cast FFmt.val_nonneg _ _), eq_comm]
  norm_cast

/-- A root that is neither tiny nor huge rounds to a normal value. -/
theorem rootMag_normal (low : (2 : ℝ) ^ (-100 : ℤ) ≤ √(x : ℝ)) (high : √(x : ℝ) ≤ 2 ^ 100) :
    2 ^ 23 ≤ rootMag x ∧ rootMag x ≤ FFmt.fp32.maxMag := by
  obtain ⟨on, same⟩ := sqrtRep_onGrid pos
  obtain ⟨repLow, repHigh, -⟩ := sqrtRep_bounds pos
  have least : FFmt.fp32.val (2 ^ 23) = 1 / 2 ^ 126 := (FFmt.fp32.val_binade 0).trans (by norm_num [FFmt.bias])
  have normal : 2 ^ 23 ≤ FFmt.fp32.gridMag (sqrtRep x) := by
    rw [on.le_iff, same, least]
    refine (Rat.cast_le (K := ℝ)).mp (le_trans (le_trans ?_ (div_le_div_of_nonneg_right low zero_le_two)) repLow)
    norm_num
  have top : FFmt.fp32.val (254 * 2 ^ 23) = 2 ^ 127 := (FFmt.fp32.val_binade 253).trans (by norm_num [FFmt.bias])
  have fits : FFmt.fp32.gridMag (sqrtRep x) < 254 * 2 ^ 23 := by
    rw [← not_le, on.le_iff, same, not_le, top]
    refine (Rat.cast_lt (K := ℝ)).mp (repHigh.trans_lt ((mul_le_mul_of_nonneg_left high zero_le_two).trans_lt ?_))
    norm_num
  have largest : 254 * 2 ^ 23 ≤ FFmt.fp32.maxMag := by decide
  have := rootMag_eq x
  omega

/-- The FP32 value that a root rounds to is nearest to the root, and it is the root or NX is raised. -/
theorem roundTo_sqrtRep (low : (2 : ℝ) ^ (-100 : ℤ) ≤ √(x : ℝ)) (high : √(x : ℝ) ≤ 2 ^ 100) :
    ∃ y : ℚ, FFmt.fp32.read (roundTo (sqrtRep x) .fp32 .rne false 0).v = .fin y ∧ 0 < y ∧
      (roundTo (sqrtRep x) .fp32 .rne false 0).fl = (if y * y = x then 0 else flNX) ∧
      (roundTo (sqrtRep x) .fp32 .rne false 0).drew = false ∧
      ∀ (u : Word) (z : ℚ), FFmt.fp32.read u = .fin z → |(y : ℝ) - √(x : ℝ)| ≤ |(z : ℝ) - √(x : ℝ)| := by
  obtain ⟨normal, fits⟩ := rootMag_normal pos low high
  have magPos : 0 < rootMag x := by omega
  have exact_iff := gridPart_sqrtRep_eq_zero_iff pos
  have nearest := abs_val_rootMag_sub_le pos
  have notTiny : ¬ rootMag x < 2 ^ FFmt.fp32.mbits := normal.not_gt
  rw [roundTo_of_fits false fits, decide_eq_false (sqrtRep_pos pos).not_gt]
  change ∃ y : ℚ, FFmt.fp32.read (FFmt.fp32.pack false (rootMag x)) = _ ∧ _ ∧
    flWhen _ _ ||| flWhen (_ && decide (rootMag x < _)) _ = _ ∧ _
  refine ⟨FFmt.fp32.val (rootMag x), FFmt.read_pack false magPos fits, FFmt.val_pos _ magPos, ?flag, by simp, ?nearest⟩
  case flag =>
    by_cases part : FFmt.fp32.gridPart (sqrtRep x) = 0
    · simp [part, exact_iff.mp part, flWhen]
    · simp [part, mt exact_iff.mpr part, flWhen, notTiny]
  case nearest =>
    intro u z read
    obtain ⟨-, -, rfl⟩ := FFmt.read_fin_iff.mp read
    split
    case isFalse => exact nearest _
    case isTrue =>
      have zero := nearest 0
      have nonneg : (0 : ℝ) ≤ FFmt.fp32.val (FFmt.fp32.mag u) := by exact_mod_cast FFmt.val_nonneg _ _
      have rootNonneg := Real.sqrt_nonneg (x : ℝ)
      rw [FFmt.val_zero, Rat.cast_zero, zero_sub, abs_neg, abs_of_nonneg rootNonneg] at zero
      refine zero.trans ?_
      push_cast
      rw [abs_of_nonpos (by linarith)]
      linarith

end

end Sys2Proof.Machine
end

/-! ## Conversions and special functions (R89, R109 to R116) -/

section
namespace Sys2Proof

open Machine

/-! ### Conversion between formats (R109) -/

theorem clampInt_eq {x lo hi : ℤ} (ordered : lo ≤ hi) : clampInt x lo hi = max lo (min hi x) := by
  unfold clampInt
  omega

theorem range_ordered (f : IFmt) : f.range.1 ≤ f.range.2 := by
  cases f <;> decide

/-- A number converted to an integer format is clamped; a flag says whether the number was whole or out of range. -/
theorem cvtFI_fin (q : ℚ) (f : IFmt) (mode : RMode) (sat : Bool) (r : BitVec 16) :
    let n := (roundInt q mode r).1
    let whole := (roundInt q mode r).2
    let within := f.range.1 ≤ n ∧ n ≤ f.range.2
    let y := cvtFI (.fin q) f mode sat r
    y.v = BitVec.ofInt 32 (max f.range.1 (min f.range.2 n)) ∧ (within → y.fl = if whole then 0 else flNX) ∧
      (¬ within → y.fl = if sat then 0 else flNV) ∧ y.drew = (!whole && decide (mode = .rs)) := by
  intro n whole within y
  refine ⟨congrArg (BitVec.ofInt 32) (clampInt_eq (range_ordered f)), fun h => ?_, fun h => ?_, rfl⟩
  · change flWhen (!decide within && !sat) flNV ||| flWhen (!whole && decide within) flNX = _
    rw [decide_eq_true h]
    cases whole <;> cases sat <;> rfl
  · change flWhen (!decide within && !sat) flNV ||| flWhen (!whole && decide within) flNX = _
    rw [decide_eq_false h]
    cases whole <;> cases sat <;> rfl

/-- The low bits of an integer, read as an integer format, are congruent to it and in range. -/
theorem read_wordOfInt (f : IFmt) (n : ℤ) : (f.range.1 ≤ f.read (wordOfInt n) ∧ f.read (wordOfInt n) ≤ f.range.2) ∧
    (f.read (wordOfInt n) - n) % 2 ^ f.width = 0 := by
  have bits : ((wordOfInt n).toNat : ℤ) = n % 2 ^ 32 := by
    rw [wordOfInt, BitVec.toNat_ofInt, Int.toNat_of_nonneg (Int.emod_nonneg _ (by decide))]
    rfl
  unfold IFmt.read sext zext
  generalize (wordOfInt n).toNat = u at bits
  cases f <;> simp [IFmt.signed, IFmt.width, IFmt.range] <;> omega

/-! ### Group elements (R89) -/

/-- The product of a group's scale and an element's distance from the zero point is an FP32 value. -/
theorem read_fp32Of_product {v : Word} {s : ℚ} (scale : FFmt.fp16.read v = .fin s) {d : ℤ} (nonzero : d ≠ 0)
    (small : d.natAbs < 512) : FFmt.fp32.read (fp32Of (s * d)) = .fin (s * d) := by
  obtain ⟨-, finite, -⟩ := FFmt.read_fin_iff.mp scale
  have value := FFmt.abs_of_read scale
  have bound : |s| ≤ 65504 := by
    rw [value, ← fp16_val_maxMag]
    exact FFmt.fp16.val_strictMono.monotone finite
  obtain ⟨i, n, mag, upper, lower⟩ := exists_steps 10 (FFmt.fp16.mag v)
  have steps : |s| = n * 2 ^ (-24 + i : ℤ) := by
    rw [value, mag]
    exact gridVal_steps _ upper.le lower
  have size : |(d : ℚ)| = d.natAbs := by rw [Nat.cast_natAbs, Int.cast_abs]
  refine read_fp32Of_of_digits (n := n * d.natAbs) (i := 125 + i) ?_ ?_ ?_ ?_
  · exact mul_ne_zero (FFmt.read_fin_ne_zero scale) (by exact_mod_cast nonzero)
  · calc n * d.natAbs < 2 ^ 11 * 2 ^ 9 := Nat.mul_lt_mul'' upper small
      _ ≤ 2 ^ 24 := by decide
  · rw [abs_mul, steps, size]
    push_cast
    rw [show (-149 + (125 + i) : ℤ) = -24 + i by ring]
    ring
  · have : (d.natAbs : ℚ) ≤ 512 := by exact_mod_cast small.le
    rw [abs_mul, size]
    calc |s| * d.natAbs ≤ 65504 * 512 := by gcongr
      _ < 2 ^ 128 := by norm_num

theorem dequantGroup_eq (n : ℕ) (w v : Word) :
    dequantGroup n w v = valTo32 (groupVal (FFmt.fp16.read v) (w.toNat % 2 ^ n : ℕ) (v.extractLsb' 16 8).toInt) := by
  rw [← sext_bitsOf v 16 7]
  rfl

theorem groupVal_of_zero {s : Val} {q z : ℤ} (zero : q - z = 0) :
    groupVal s q z = (mulVal s (.zero false)).getD .nan := by
  unfold groupVal
  simp only [zero, if_true]
  cases mulVal s (.zero false) <;> rfl

theorem groupVal_of_nonzero {s : Val} {q z : ℤ} (nonzero : q - z ≠ 0) :
    groupVal s q z = (mulVal s (.fin (q - z : ℤ))).getD .nan := by
  unfold groupVal
  simp only [nonzero, if_false]
  cases mulVal s (.fin (q - z : ℤ)) <;> rfl

theorem read_zero (n : Bool) : FFmt.fp32.read (FFmt.fp32.zero n) = .zero n := by
  cases n <;> decide +kernel

/-- The FP32 value of a group element is exact; an infinite scale keeps its sign, and meets zero in a NaN. -/
theorem dequantGroup_value {n : ℕ} (w v : Word) (d : ℤ) (hd : d = (w.toNat % 2 ^ n : ℕ) - (v.extractLsb' 16 8).toInt)
    (small : d.natAbs < 512) :
    (FFmt.fp16.read v = .nan → dequantGroup n w v = 0x7FC00000) ∧
    (∀ s, FFmt.fp16.read v = .inf s → dequantGroup n w v =
      if d = 0 then 0x7FC00000 else if (s != decide (d < 0)) then 0xFF800000 else 0x7F800000) ∧
    (∀ s, FFmt.fp16.read v = .fin s → (FFmt.fp32.read (dequantGroup n w v)).toRat = s * d ∧
      (FFmt.fp32.read (dequantGroup n w v)).finite = true) ∧
    (∀ s, FFmt.fp16.read v = .zero s → (FFmt.fp32.read (dequantGroup n w v)).toRat = 0 ∧
      (FFmt.fp32.read (dequantGroup n w v)).finite = true) := by
  rw [dequantGroup_eq]
  by_cases zero : d = 0
  · rw [groupVal_of_zero (hd ▸ zero)]
    refine ⟨fun h => ?_, fun s h => ?_, fun s h => ?_, fun s h => ?_⟩ <;> rw [h]
    · rfl
    · rw [if_pos zero]
      rfl
    · change (FFmt.fp32.read (FFmt.fp32.zero _)).toRat = _ ∧ (FFmt.fp32.read (FFmt.fp32.zero _)).finite = _
      rw [read_zero, zero]
      simp [Val.toRat, Val.finite]
    · change (FFmt.fp32.read (FFmt.fp32.zero _)).toRat = _ ∧ (FFmt.fp32.read (FFmt.fp32.zero _)).finite = _
      rw [read_zero]
      exact ⟨rfl, rfl⟩
  · rw [groupVal_of_nonzero (hd ▸ zero), ← hd]
    refine ⟨fun h => ?_, fun s h => ?_, fun s h => ?_, fun s h => ?_⟩ <;> rw [h]
    · rfl
    · change FFmt.fp32.inf (s != decide ((d : ℚ) < 0)) = _
      rw [if_neg zero]
      simp only [Int.cast_lt_zero]
      cases s != decide (d < 0) <;> rfl
    · change (FFmt.fp32.read (fp32Of (s * d))).toRat = _ ∧ (FFmt.fp32.read (fp32Of (s * d))).finite = _
      rw [read_fp32Of_product h zero small]
      exact ⟨rfl, rfl⟩
    · change (FFmt.fp32.read (FFmt.fp32.zero _)).toRat = _ ∧ (FFmt.fp32.read (FFmt.fp32.zero _)).finite = _
      rw [read_zero]
      exact ⟨rfl, rfl⟩

/-! ### Special functions (R116) -/

theorem coef_eq (n : ℤ) (k : ℕ) : coef n k = fp32Of (n / 10 ^ k) := by
  unfold coef
  rw [Rat.mkRat_eq_div]
  push_cast
  rfl

theorem coef_one : coef 1 0 = 0x3F800000 := by
  decide +kernel

theorem horner_eq_foldl (u : Word) (cs : List Word) (p : Word) : horner p u cs = cs.foldl (fun p c => fma32 p u c) p := by
  induction cs generalizing p with
  | nil => rfl
  | cons c cs ih => exact ih _

/-- The polynomial of XEXP2 at zero is 1. -/
theorem exp2Poly_zero : (FFmt.fp32.read (horner (coef 15252734 12) 0 exp2Coefs)).toRat = 1 := by
  decide +kernel

/-- XSIN and XCOS by the row of their table. -/
theorem sinCos_eq {x : ℚ} {phase j : ℤ} (row : ((roundInt (x / halfPi) .rne 0).1 + phase) % 4 = j) :
    let a := fp32Of (x - (roundInt (x / halfPi) .rne 0).1 * halfPi)
    let u := mul32 a a
    sinCos x phase = if j = 0 then sinPoly a u else if j = 1 then cosPoly u
      else if j = 2 then sinPoly a u ^^^ 0x80000000 else cosPoly u ^^^ 0x80000000 := by
  have range : j = 0 ∨ j = 1 ∨ j = 2 ∨ j = 3 := by omega
  unfold sinCos
  simp only [row]
  rcases range with rfl | rfl | rfl | rfl <;> rfl

/-- The rows of XEXP2 within its range: the rounded product, inexact unless the operand is an integer. -/
theorem xexp2Lane_rows {w : Word} {q : ℚ} {n : ℤ} {y : FRes}
    (result : xexp2Lane w = if q = n ∧ -149 ≤ n ∧ n ≤ 127 then .exact y.v else { y with fl := y.fl ||| flNX }) :
    (xexp2Lane w).v = y.v ∧ ((∀ m : ℤ, -149 ≤ m → q ≠ m) → (xexp2Lane w).fl = y.fl ||| flNX) := by
  rw [result]
  split
  case isTrue exact => exact ⟨rfl, fun other => absurd exact.1 (other _ exact.2.1)⟩
  case isFalse => exact ⟨rfl, fun _ => rfl⟩

section
variable {w : Word} {q : ℚ} (read : FFmt.fp32.read w = .fin q)
include read

theorem xexp2Lane_of_ge (high : 128 ≤ q) : xexp2Lane w = ⟨FFmt.fp32.inf false, flOF ||| flNX, false⟩ := by
  unfold xexp2Lane
  rw [read]
  exact if_pos high

theorem xexp2Lane_of_lt (low : q < -150) : xexp2Lane w = ⟨0, flUF ||| flNX, false⟩ := by
  have below : ¬ 128 ≤ q := by linarith
  unfold xexp2Lane
  rw [read]
  exact (if_neg below).trans (if_pos low)

/-- XEXP2 of a number within its range, by its nearest integer, its polynomial and their product. -/
theorem xexp2Lane_fin (low : -150 ≤ q) (high : q < 128) {n : ℤ} {p : Word} {y : FRes} (whole : (roundInt q .rne 0).1 = n)
    (poly : horner (coef 15252734 12) (fp32Of (q - n)) exp2Coefs = p)
    (product : roundTo ((FFmt.fp32.read p).toRat * 2 ^ n) .fp32 .rne false 0 = y) :
    xexp2Lane w = if q = n ∧ -149 ≤ n ∧ n ≤ 127 then .exact y.v else { y with fl := y.fl ||| flNX } := by
  subst whole poly product
  unfold xexp2Lane
  rw [read]
  simp only [pow2_eq]
  exact (if_neg high.not_ge).trans (if_neg low.not_gt)

/-- XEXP2 of an integer is the power of two, exactly. -/
theorem xexp2Lane_int {n : ℤ} (low : -149 ≤ n) (high : n ≤ 127) (value : q = n) :
    (xexp2Lane w).fl = 0 ∧ FFmt.fp32.read (xexp2Lane w).v = .fin (2 ^ n) := by
  subst value
  have lowCast : (-149 : ℚ) ≤ n := by exact_mod_cast low
  have highCast : (n : ℚ) ≤ 127 := by exact_mod_cast high
  obtain ⟨i, hi⟩ : ∃ i : ℕ, (i : ℤ) = n + 149 := ⟨_, Int.toNat_of_nonneg (by omega)⟩
  have pos : (0 : ℚ) < 2 ^ n := by positivity
  obtain ⟨k, kPos, finite, grid⟩ := exists_fp32_val (x := 2 ^ n) (n := 1) (i := i) pos.ne' (by norm_num)
    (by rw [abs_of_pos pos, hi, Nat.cast_one, one_mul]; congr 1; ring)
    (by
      rw [abs_of_pos pos, ← zpow_natCast]
      exact zpow_lt_zpow_right₀ (by norm_num) (by push_cast; omega))
  have product : roundTo ((FFmt.fp32.read (horner (coef 15252734 12) (fp32Of ((n : ℚ) - n)) exp2Coefs)).toRat * 2 ^ n)
      .fp32 .rne false 0 = .exact (FFmt.fp32.pack (decide ((2 : ℚ) ^ n < 0)) k) := by
    have zero : fp32Of ((n : ℚ) - n) = 0 := by
      rw [sub_self]
      rfl
    rw [zero, exp2Poly_zero, one_mul, roundTo_of_val kPos finite grid]
  rw [xexp2Lane_fin read (by linarith) (by linarith) (congrArg Prod.fst (roundInt_intCast n _ _)) rfl product,
    if_pos ⟨rfl, low, high⟩]
  exact ⟨rfl, read_pack_of_val kPos finite grid⟩

/-! #### XLOG2 -/

theorem xlog2Lane_of_neg (neg : q < 0) : xlog2Lane w = .invalid .fp32 := by
  unfold xlog2Lane
  rw [read]
  exact if_pos neg

/-- XLOG2 of a positive number, by its binade and its significand. -/
theorem xlog2Lane_fin {e : ℤ} {m : ℚ} (low : 1 ≤ m) (high : m < 2) (value : q = m * 2 ^ e) :
    let big := decide (m > (FFmt.fp32.read 0x3FB504F3).toRat)
    let k := fp32Of (if big then m / 2 else m)
    let t := div32 (sub32 k 0x3F800000) (add32 k 0x3F800000)
    xlog2Lane w = ⟨fma32 t (horner (coef 26230822 8) (mul32 t t) log2Coefs) (fp32Of (if big then e + 1 else e : ℤ)),
      if m = 1 then 0 else flNX, false⟩ := by
  have binade : (0 : ℚ) < 2 ^ e := by positivity
  have pos : 0 < q := by
    rw [value]
    positivity
  have exponent : log2Floor q = e := by
    refine log2Floor_unique ?_ ?_
    · rw [value]
      exact le_mul_of_one_le_left binade.le low
    · rw [value, zpow_add_one₀ two_ne_zero, mul_comm]
      gcongr
  have significand : q / 2 ^ e = m := by rw [value, mul_div_cancel_right₀ _ binade.ne']
  unfold xlog2Lane
  rw [read]
  simp only [pow2_eq, exponent, significand, if_neg pos.not_gt]
  by_cases one : m = 1
  · rw [if_pos one, if_pos one]
    rfl
  · rw [if_neg one, if_neg one]
    rfl

/-! #### XTANH -/

/-- A pattern with its sign bit cleared reads as the magnitude. -/
theorem read_clearSign : FFmt.fp32.read (w &&& 0x7FFFFFFF) = .fin |q| := by
  obtain ⟨pos, finite, -⟩ := FFmt.read_fin_iff.mp read
  have bits : (w &&& 0x7FFFFFFF).toNat = FFmt.fp32.mag w := by
    rw [BitVec.toNat_and]
    exact Nat.and_two_pow_sub_one_eq_mod _ 31
  have small : FFmt.fp32.mag w < 2 ^ 31 := Nat.mod_lt _ (by decide)
  have mag : FFmt.fp32.mag (w &&& 0x7FFFFFFF) = FFmt.fp32.mag w := by
    conv_lhs => rw [FFmt.mag, bits]
    exact Nat.mod_eq_of_lt small
  have positive : FFmt.fp32.negative (w &&& 0x7FFFFFFF) = false := by
    rw [FFmt.negative, bits]
    have : FFmt.fp32.mag w / 2 ^ (FFmt.fp32.mbits + FFmt.fp32.ebits) = 0 := Nat.div_eq_of_lt small
    rw [this]
    rfl
  rw [FFmt.read_fin_iff, mag, positive]
  exact ⟨pos, finite, FFmt.abs_of_read read⟩

/-- XTANH of a number by its three ranges. -/
theorem xtanhLane_fin : xtanhLane w =
    let a := w &&& 0x7FFFFFFF
    let back (y : Word) : Word := if q < 0 then y ||| 0x80000000 else y
    if 19 / 2 ≤ |q| then ⟨back 0x3F800000, flNX, false⟩
    else if |q| < 1 / 2 then
      ⟨back (fma32 (mul32 a (mul32 a a)) (horner (coef (-14558344) 10) (mul32 a a)
        [coef 35921280 10, coef (-88632355) 10, coef 21869488 9, coef (-53968254) 9, coef 13333333 8, coef (-33333333) 8]) a),
        flNX, false⟩
    else ⟨back (sub32 0x3F800000 (div32 0x40000000
      (add32 (xexp2Lane (fp32Of (2 * |q| * rat32 (coef 14426950 7)))).v 0x3F800000))), flNX, false⟩ := by
  have magnitude : rat32 (w &&& 0x7FFFFFFF) = |q| := by rw [rat32, read_clearSign read]; rfl
  unfold xtanhLane
  rw [read]
  simp only [magnitude, decide_eq_true_eq, ge_iff_le]

end

/-! ### Roots, quotients and scales (R113, R115) -/

/-- The magnitude of an FP32 number lies well within 2^−200 and 2^200. -/
theorem fp32_within {w : Word} {q : ℚ} (read : FFmt.fp32.read w = .fin q) : 1 / 2 ^ 200 ≤ |q| ∧ |q| ≤ 2 ^ 200 := by
  obtain ⟨pos, finite, -⟩ := FFmt.read_fin_iff.mp read
  have mono := FFmt.fp32.val_strictMono.monotone
  have least : FFmt.fp32.val 1 = 1 / 2 ^ 149 := by
    have : FFmt.fp32.val (0 * 2 ^ 23 + 1) = (1 : ℕ) * 2 ^ (-149 + (0 : ℕ) : ℤ) := gridVal_steps _ (by decide) (.inl rfl)
    rw [Nat.zero_mul, Nat.zero_add] at this
    rw [this]
    norm_num
  rw [FFmt.abs_of_read read]
  constructor
  · refine le_trans ?_ (least.symm.trans_le (mono pos))
    norm_num
  · refine (mono (finite.trans (by decide : _ ≤ 255 * 2 ^ 23))).trans (fp32_val_top.trans_le ?_)
    norm_num

theorem sqrt_within {x : ℚ} (low : 1 / 2 ^ 200 ≤ x) (high : x ≤ 2 ^ 200) :
    (2 : ℝ) ^ (-100 : ℤ) ≤ √(x : ℝ) ∧ √(x : ℝ) ≤ 2 ^ 100 := by
  have lowCast : ((1 / 2 ^ 200 : ℚ) : ℝ) ≤ x := Rat.cast_le.mpr low
  have highCast : (x : ℝ) ≤ (2 ^ 200 : ℚ) := Rat.cast_le.mpr high
  push_cast at lowCast highCast
  constructor
  · refine Real.le_sqrt_of_sq_le (le_trans (le_of_eq ?_) lowCast)
    norm_num
  · refine Real.sqrt_le_iff.mpr ⟨by positivity, highCast.trans (le_of_eq ?_)⟩
    norm_num

section
variable {w : Word} {q : ℚ} (read : FFmt.fp32.read w = .fin q)
include read

theorem fsqrt32_of_neg (neg : q < 0) : fsqrt32 w = .invalid .fp32 := by
  unfold fsqrt32
  rw [read]
  exact if_pos neg

theorem frsqrt32_of_neg (neg : q < 0) : frsqrt32 w = .invalid .fp32 := by
  unfold frsqrt32
  rw [read]
  exact if_pos neg

/-- XSQRT gives the FP32 value nearest to the root. -/
theorem fsqrt32_nearest (pos : 0 < q) : ∃ y : ℚ, FFmt.fp32.read (fsqrt32 w).v = .fin y ∧ 0 < y ∧
    (fsqrt32 w).fl = (if y * y = q then 0 else flNX) ∧ (fsqrt32 w).drew = false ∧
    ∀ (u : Word) (z : ℚ), FFmt.fp32.read u = .fin z → |(y : ℝ) - √(q : ℝ)| ≤ |(z : ℝ) - √(q : ℝ)| := by
  have rounds : fsqrt32 w = roundTo (sqrtRep q) .fp32 .rne false 0 := by
    unfold fsqrt32
    rw [read]
    exact if_neg pos.not_gt
  obtain ⟨low, high⟩ := fp32_within read
  rw [abs_of_pos pos] at low high
  obtain ⟨low, high⟩ := sqrt_within low high
  rw [rounds]
  exact roundTo_sqrtRep pos low high

/-- XRSQ gives the FP32 value nearest to the reciprocal of the root. -/
theorem frsqrt32_nearest (pos : 0 < q) : ∃ y : ℚ, FFmt.fp32.read (frsqrt32 w).v = .fin y ∧ 0 < y ∧
    (frsqrt32 w).fl = (if y * y * q = 1 then 0 else flNX) ∧ (frsqrt32 w).drew = false ∧
    ∀ (u : Word) (z : ℚ), FFmt.fp32.read u = .fin z → |(y : ℝ) - 1 / √(q : ℝ)| ≤ |(z : ℝ) - 1 / √(q : ℝ)| := by
  have rounds : frsqrt32 w = roundTo (sqrtRep (1 / q)) .fp32 .rne false 0 := by
    unfold frsqrt32
    rw [read]
    exact if_neg pos.not_gt
  obtain ⟨low, high⟩ := fp32_within read
  rw [abs_of_pos pos] at low high
  have inverse : 0 < 1 / q := one_div_pos.mpr pos
  obtain ⟨low, high⟩ := sqrt_within (x := 1 / q) (one_div_le_one_div_of_le pos high)
    ((one_div_le_one_div_of_le (by positivity) low).trans_eq (one_div_one_div _))
  obtain ⟨y, value, yPos, flag, drew, nearest⟩ := roundTo_sqrtRep inverse low high
  have root : √((1 / q : ℚ) : ℝ) = 1 / √(q : ℝ) := by
    push_cast
    rw [Real.sqrt_div zero_le_one, Real.sqrt_one]
  rw [root] at nearest
  rw [rounds]
  refine ⟨y, value, yPos, flag.trans (if_congr ?_ rfl rfl), drew, nearest⟩
  rw [eq_div_iff pos.ne']

end

/-! ### The patterns of the formats by their codes (R30, R85, R86) -/

/-- The sign bit, the largest magnitude and the infinity of the formats, in the order of their codes. -/
def codeSign (c : ℕ) : Word := ([0x80000000, 0x8000, 0x8000, 0x80, 0x80, 0x20, 0x20, 0x8] : List Word)[c]?.getD 0
def codeLargest (c : ℕ) : Word := ([0x7F7FFFFF, 0x7BFF, 0x7F7F, 0x7E, 0x7B, 0x1F, 0x1F, 0x7] : List Word)[c]?.getD 0
def codeInfinity (c : ℕ) : Word := ([0x7F800000, 0x7C00, 0x7F80, 0, 0x7C] : List Word)[c]?.getD 0
def codeCanon (c : ℕ) : Word := ([0x7FC00000, 0x7E00, 0x7FC0, 0x7F, 0x7E] : List Word)[c]?.getD 0

/-- A magnitude with a sign in the format of a code. -/
def codeSigned (n : Bool) (c : ℕ) (y : Word) : Word := if n then codeSign c ||| y else y

theorem zero_ofCode : ∀ c < 8, ∀ n, (FFmt.ofCode c).zero n = codeSigned n c 0 := by
  decide

theorem max_ofCode : ∀ c < 8, ∀ n, (FFmt.ofCode c).max n = codeSigned n c (codeLargest c) := by
  decide

theorem inf_ofCode : ∀ c < 8, (FFmt.ofCode c).hasInf → ∀ n, (FFmt.ofCode c).inf n = codeSigned n c (codeInfinity c) := by
  decide

theorem canon_ofCode : ∀ c < 8, (FFmt.ofCode c).canon = codeCanon c := by
  decide

theorem hasInf_ofCode : ∀ c < 8, (FFmt.ofCode c).hasInf = (decide (c < 5) && decide (c ≠ 3)) := by
  decide

theorem finiteOnly_ofCode : ∀ c < 8, (FFmt.ofCode c).finiteOnly = decide (5 ≤ c) := by
  decide

theorem cvtNan_ofCode {c : ℕ} (code : c < 8) :
    cvtNan (.ofCode c) = if 5 ≤ c then ⟨0, flNV, false⟩ else ⟨codeCanon c, 0, false⟩ := by
  unfold cvtNan
  rw [finiteOnly_ofCode c code, canon_ofCode c code]
  simp only [decide_eq_true_eq]
  rfl

/-- An infinity converted to a floating format (R109). -/
theorem cvtFF_inf {c : ℕ} (code : c < 8) (n : Bool) (mode : RMode) (sat : Bool) (r : BitVec 16) :
    cvtFF (.inf n) (.ofCode c) mode sat r =
      if c = 3 then (if sat then ⟨codeSigned n 3 (codeLargest 3), 0, false⟩ else ⟨codeCanon 3, flNV, false⟩)
      else if 5 ≤ c then ⟨codeSigned n c (codeLargest c), if sat then 0 else flNV, false⟩
      else ⟨codeSigned n c (codeInfinity c), 0, false⟩ := by
  unfold cvtFF
  dsimp only
  rw [finiteOnly_ofCode c code, max_ofCode c code]
  by_cases narrow : c = 3
  · subst narrow
    rfl
  by_cases small : 5 ≤ c
  · rw [hasInf_ofCode c code, if_neg narrow, if_pos small]
    simp only [decide_eq_false (by omega : ¬ c < 5), Bool.false_and, small, decide_true, Bool.false_eq_true, if_false, if_true]
    cases sat <;> rfl
  · have infinite : (FFmt.ofCode c).hasInf = true := by
      rw [hasInf_ofCode c code]
      simp only [narrow, ne_eq, not_false_iff, decide_true, Bool.and_true, decide_eq_true_eq]
      omega
    rw [if_pos infinite, if_neg narrow, if_neg small, inf_ofCode c code infinite]
    rfl

theorem fp32_zero (n : Bool) : FFmt.fp32.zero n = codeSigned n 0 0 := zero_ofCode 0 (by decide) n

theorem fp32_inf (n : Bool) : FFmt.fp32.inf n = codeSigned n 0 0x7F800000 := inf_ofCode 0 (by decide) rfl n

/-! ### Quantisation (R112 to R114) -/

section
variable {qmax : ℤ} {mode : RMode} {r : BitVec 16} {w v : Word} {c : ℕ}

theorem quantGroup_bad (bad : (∀ s, FFmt.fp16.read v ≠ .fin s) ∨ FFmt.fp32.read w = .nan) : quantGroup qmax mode r w v =
    ⟨wordOfInt (clampInt (sext (bitsOf v 16 8) 8) 0 qmax), flNV, false⟩ := by
  unfold quantGroup
  dsimp only
  cases scale : FFmt.fp16.read v with
  | nan | inf | zero => rfl
  | fin s => rw [bad.resolve_left (not_forall_not.mpr ⟨s, scale⟩)]

/-- The rows of XQNT for a scale that is a number. -/
theorem quantGroup_rows {s : ℚ} (scale : FFmt.fp16.read v = .fin s) (positive : 0 ≤ qmax) :
    let z : ℤ := (v.extractLsb' 16 8).toInt
    let clamp (n : ℤ) : Word := BitVec.ofInt 32 (max 0 (min qmax n))
    (∀ n, FFmt.fp32.read w = .inf n →
      quantGroup qmax mode r w v = .exact (if n = decide (s < 0) then BitVec.ofInt 32 qmax else 0)) ∧
    (∀ n, FFmt.fp32.read w = .zero n → quantGroup qmax mode r w v = .exact (clamp z)) ∧
    (∀ a, FFmt.fp32.read w = .fin a → quantGroup qmax mode r w v =
      ⟨clamp ((roundInt (a / s) mode r).1 + z), if (roundInt (a / s) mode r).2 then 0 else flNX,
        !(roundInt (a / s) mode r).2 && decide (mode = .rs)⟩) := by
  intro z clamp
  have zeroPoint : sext (bitsOf v 16 8) 8 = z := sext_bitsOf v 16 7
  have clamp_eq (n : ℤ) : wordOfInt (clampInt n 0 qmax) = clamp n := congrArg (BitVec.ofInt 32) (clampInt_eq positive)
  unfold quantGroup
  simp only [scale, zeroPoint, clamp_eq]
  refine ⟨fun n read => ?_, fun n read => ?_, fun a read => ?_⟩ <;> rw [read]
  · exact congrArg FRes.exact (apply_ite wordOfInt _ _ _)
  · dsimp only
    cases (roundInt (a / s) mode r).2 <;> rfl

/-- What XAMAX divides by: the largest value of a format, or of the positive side of INT8 and INT4. -/
def amaxDivisor (c : ℕ) : ℚ :=
  ([1, 1, 1, 448, 57344, 28, 15/2, 6] : List ℚ)[c]?.getD (if c = 11 then 127 else 7)

theorem amaxDivisor_pos (c : ℕ) : 0 < amaxDivisor c := by
  by_cases small : c < 8
  · revert c
    decide +kernel
  · unfold amaxDivisor
    rw [List.getElem?_eq_none (not_lt.mp small)]
    dsimp only [Option.getD_none]
    split <;> norm_num

theorem largest_eq_amaxDivisor : ∀ c < 8, 3 ≤ c →
    ((FFmt.ofCode c).read ((FFmt.ofCode c).max false)).toRat = amaxDivisor c := by
  decide +kernel

section
variable (code : (v.extractLsb' 0 4).toNat = c)
include code

theorem amaxScale_other (float : c < 3 ∨ 7 < c) (int8 : c ≠ 11) (int4 : c ≠ 13) : amaxScale w v = ⟨0, flNV, false⟩ := by
  unfold amaxScale
  rw [bitsOf_eq, code]
  exact (if_neg (by omega)).trans (if_neg (by omega))

/-- The rows of XAMAX for a floating format. -/
theorem amaxScale_float (low : 3 ≤ c) (high : c ≤ 7) :
    (FFmt.fp32.read w = .nan → amaxScale w v = .exact 0x3FC) ∧ (∀ n, FFmt.fp32.read w = .zero n → amaxScale w v = .exact 0) ∧
    (∀ n, FFmt.fp32.read w = .inf n → amaxScale w v = ⟨0x3FB, flOF, false⟩) ∧
    (∀ q, FFmt.fp32.read w = .fin q → amaxScale w v = scaleAtLeast (|q| / amaxDivisor c)) := by
  unfold amaxScale
  simp only [bitsOf_eq, code, if_pos (And.intro low high)]
  refine ⟨fun read => ?_, fun n read => ?_, fun n read => ?_, fun q read => ?_⟩ <;> rw [read]
  dsimp only
  rw [largest_eq_amaxDivisor c (by omega) low, ← ite_neg_eq_abs]
  simp only [decide_eq_true_eq]

/-- The rows of XAMAX for an integer format. -/
theorem amaxScale_int (integer : c = 11 ∨ c = 13) :
    (FFmt.fp32.read w = .nan → amaxScale w v = .exact 0x7E00) ∧ (∀ n, FFmt.fp32.read w = .zero n → amaxScale w v = .exact 1) ∧
    (∀ n, FFmt.fp32.read w = .inf n → amaxScale w v = ⟨0x7BFF, flOF, false⟩) ∧
    (∀ q, FFmt.fp32.read w = .fin q → amaxScale w v = halfAtLeast (|q| / amaxDivisor c)) := by
  have notFloat : ¬ (3 ≤ c ∧ c ≤ 7) := by omega
  have divisor : amaxDivisor c = if c = 11 then 127 else 7 := by rcases integer with rfl | rfl <;> rfl
  unfold amaxScale
  simp only [bitsOf_eq, code, if_neg notFloat, if_pos integer]
  refine ⟨fun read => ?_, fun n read => ?_, fun n read => ?_, fun q read => ?_⟩ <;> rw [read]
  rw [divisor, ← ite_neg_eq_abs]
  simp only [decide_eq_true_eq]

end

section
variable (code : (v.extractLsb' 12 4).toNat = c)
include code

theorem blocks_other (other : c < 3 ∨ 7 < c) :
    quantBlock mode r w v = ⟨0, flNV, false⟩ ∧ dequantBlock mode r w v = ⟨0, flNV, false⟩ := by
  unfold quantBlock dequantBlock
  rw [bitsOf_eq, code]
  exact ⟨if_pos other, if_pos other⟩

variable (low : 3 ≤ c) (high : c ≤ 7)
include low high

/-- The rows of XQMX. -/
theorem quantBlock_rows :
    (blockScale v = none → quantBlock mode r w v = ⟨codeCanon c, flNV, false⟩) ∧
    ∀ s, blockScale v = some s →
      (FFmt.fp32.read w = .nan →
        quantBlock mode r w v = if 5 ≤ c then ⟨0, flNV, false⟩ else ⟨codeCanon c, 0, false⟩) ∧
      (∀ n, FFmt.fp32.read w = .inf n → quantBlock mode r w v = .exact (codeSigned n c (codeLargest c))) ∧
      (∀ n, FFmt.fp32.read w = .zero n → quantBlock mode r w v = .exact (codeSigned n c 0)) ∧
      (∀ q, FFmt.fp32.read w = .fin q → quantBlock mode r w v = roundTo (q / s) (.ofCode c) mode true r) := by
  have small : c < 8 := by omega
  have format : ¬ (c < 3 ∨ 7 < c) := by omega
  rw [← cvtNan_ofCode small]
  unfold quantBlock
  simp only [bitsOf_eq, code, if_neg format]
  refine ⟨fun scale => ?_, fun s scale => ?_⟩ <;> rw [scale]
  · exact congrArg (FRes.mk · flNV false) (canon_ofCode c small)
  · refine ⟨fun read => ?_, fun n read => ?_, fun n read => ?_, fun q read => ?_⟩ <;> rw [read]
    · exact congrArg FRes.exact (max_ofCode c small n)
    · exact congrArg FRes.exact (zero_ofCode c small n)

/-- The rows of XDQMX. -/
theorem dequantBlock_rows :
    (blockScale v = none → dequantBlock mode r w v = .exact 0x7FC00000) ∧
    ∀ s, blockScale v = some s →
      ((FFmt.ofCode c).read w = .nan → dequantBlock mode r w v = .exact 0x7FC00000) ∧
      (∀ n, (FFmt.ofCode c).read w = .inf n → dequantBlock mode r w v = .exact (codeSigned n 0 0x7F800000)) ∧
      (∀ n, (FFmt.ofCode c).read w = .zero n → dequantBlock mode r w v = .exact (codeSigned n 0 0)) ∧
      (∀ e, (FFmt.ofCode c).read w = .fin e → dequantBlock mode r w v = roundTo (e * s) .fp32 mode false r) := by
  have format : ¬ (c < 3 ∨ 7 < c) := by omega
  unfold dequantBlock dequantBlockAs
  simp only [bitsOf_eq, code, if_neg format]
  refine ⟨fun scale => ?_, fun s scale => ?_⟩ <;> rw [scale]
  · rfl
  · refine ⟨fun read => ?_, fun n read => ?_, fun n read => ?_, fun e read => ?_⟩ <;> rw [read]
    · rfl
    · exact congrArg FRes.exact (fp32_inf n)
    · exact congrArg FRes.exact (fp32_zero n)

end

end

/-! ### Quotients (R115) -/

section
variable {w v : Word} {a b : Val} (read_w : FFmt.fp32.read w = a) (read_v : FFmt.fp32.read v = b)
include read_w read_v

theorem fdiv32_of_exact {e : Exact} (quotient : divExact a b = (e, 0)) : fdiv32 w v = e.round .fp32 .rne false 0 := by
  unfold fdiv32
  rw [read_w, read_v, quotient]
  simp

theorem fdiv32_of_byZero {n : Bool} (quotient : divExact a b = (.inf n, flDZ)) : fdiv32 w v = ⟨FFmt.fp32.inf n, flDZ, false⟩ := by
  unfold fdiv32
  rw [read_w, read_v, quotient]
  simp [Exact.round, FRes.exact, flNone]

end

/-! ### The approximated functions (R116) -/

theorem fp32_one (n : Bool) : (if n then 0xBF800000 else 0x3F800000 : Word) = codeSigned n 0 0x3F800000 := by
  revert n
  decide

/-- Settles O59: each function's rows, element by element, as the lemmas above give them. -/
theorem conversionFunctionsFollowTheirTables : Obligations.ConversionFunctionsFollowTheirTables := by
  intro w v mode sat r x none_ with_ at_ canon sign largest infinity signed low high width within
  have read_w : FFmt.fp32.read w = x := rfl
  clear_value x
  have range_eq (df : ℕ) (h : 8 ≤ df) (h' : df < 15) : (IFmt.ofCode df).range = (low df, high df) := by
    interval_cases df <;> rfl
  refine ⟨fun sf df hs hd => ?ff, fun sf df hs hd hd' => ?fi, fun sf df hs hs' hd => ?i_f, fun sf df hs hs' hd hd' => ?ii,
    fun q hq => ?quant, fun n hn => ?dequant, ?amax, ?blocks, ?roots, ?div, ?approx⟩
  case ff =>
    intro y
    have convert_eq : y = cvtFF ((FFmt.ofCode sf).read w) (.ofCode df) mode sat r := (if_pos hs).trans (if_pos hd)
    clear_value y
    subst convert_eq
    cases (FFmt.ofCode sf).read w with
    | nan => exact cvtNan_ofCode hd
    | inf n => exact cvtFF_inf hd n mode sat r
    | zero n => exact congrArg none_ (zero_ofCode df hd n)
    | fin q => rfl
  case fi =>
    intro y
    have convert_eq : y = cvtFI ((FFmt.ofCode sf).read w) (.ofCode df) mode sat r := (if_pos hs).trans (if_neg (by omega))
    clear_value y
    subst convert_eq
    cases (FFmt.ofCode sf).read w with
    | nan | zero => rfl
    | inf n =>
      dsimp only [cvtFI]
      rw [range_eq df hd hd']
      cases sat <;> rfl
    | fin q =>
      have rows := cvtFI_fin q (.ofCode df) mode sat r
      rw [range_eq df hd hd'] at rows
      exact rows
  case i_f =>
    intro n
    exact (if_neg (by omega)).trans (if_pos hd)
  case ii =>
    intro n
    have convert_eq : convert sf df mode sat r w = cvtII n (.ofCode df) sat := (if_neg (by omega)).trans (if_neg (by omega))
    have clamped := clampInt_eq (x := n) (range_ordered (.ofCode df))
    have wrapped := read_wordOfInt (.ofCode df) n
    have width_eq : (IFmt.ofCode df).width = width df := by interval_cases df <;> rfl
    rw [range_eq df hd hd'] at clamped
    rw [range_eq df hd hd', width_eq] at wrapped
    rw [convert_eq]
    constructor
    · rintro rfl
      refine congrArg (fun m => none_ (BitVec.ofInt 32 m)) (Eq.trans ?_ clamped)
      rw [if_pos rfl, satInt, range_eq df hd hd']
    · rintro rfl
      exact ⟨_, wrapped.1, wrapped.2, rfl⟩
  case quant =>
    intro z clamp y
    have bad (h : (∀ s, FFmt.fp16.read v ≠ .fin s) ∨ FFmt.fp32.read w = .nan) : y = with_ (clamp z) flNV := by
      refine (quantGroup_bad h).trans (congrArg (with_ · flNV) (congrArg (BitVec.ofInt 32) ?_))
      rw [sext_bitsOf v 16 7]
      exact clampInt_eq (by omega)
    cases scale : FFmt.fp16.read v with
    | nan | inf | zero => exact bad (.inl (by simp [scale]))
    | fin s =>
      obtain ⟨inf, zero, fin⟩ := quantGroup_rows (qmax := q) (mode := mode) (r := r) (w := w) scale (by omega)
      cases x with
      | nan => exact bad (.inr read_w)
      | inf n => exact inf n read_w
      | zero n => exact zero n read_w
      | fin a => exact fin a read_w
  case dequant =>
    intro d
    have small : d.natAbs < 512 := by
      have byte := (v.extractLsb' 16 8).isLt
      have toInt := BitVec.toInt_eq_toNat_cond (v.extractLsb' 16 8)
      have : w.toNat % 2 ^ n < 2 ^ 8 := (Nat.mod_lt _ (Nat.two_pow_pos n)).trans_le (Nat.pow_le_pow_right (by decide) (by omega))
      omega
    obtain ⟨nan, inf, fin, zero⟩ := dequantGroup_value w v d rfl small
    cases scale : FFmt.fp16.read v with
    | nan => exact nan scale
    | inf s => exact inf s scale
    | fin s => exact fin s scale
    | zero s => exact zero s scale
  case amax =>
    intro c y m
    have divisor : m = amaxDivisor c := rfl
    clear_value m
    subst divisor
    refine ⟨fun out int8 int4 => amaxScale_other rfl out int8 int4, fun low high => ?float, fun integer => ?integer⟩
    case float =>
      obtain ⟨nan, zero, inf, fin⟩ := amaxScale_float (w := w) (v := v) rfl low high
      cases x with
      | nan => exact nan read_w
      | zero n => exact zero n read_w
      | inf n => exact inf n read_w
      | fin q =>
        have pos := div_pos (abs_pos.mpr (FFmt.read_fin_ne_zero read_w)) (amaxDivisor_pos c)
        have choice : y = _ := fin q read_w
        clear_value y
        subst choice
        exact ⟨scaleAtLeast_of_gt, scaleAtLeast_least pos⟩
    case integer =>
      obtain ⟨nan, zero, inf, fin⟩ := amaxScale_int (w := w) (v := v) rfl integer
      cases x with
      | nan => exact nan read_w
      | zero n => exact zero n read_w
      | inf n => exact inf n read_w
      | fin q =>
        have pos := div_pos (abs_pos.mpr (FFmt.read_fin_ne_zero read_w)) (amaxDivisor_pos c)
        have choice : y = _ := fin q read_w
        clear_value y
        subst choice
        exact ⟨halfAtLeast_of_gt, halfAtLeast_least pos⟩
  case blocks =>
    intro f
    refine ⟨blocks_other rfl, fun low high => ⟨?quantBlock, ?dequantBlock⟩⟩
    case quantBlock =>
      obtain ⟨none', some'⟩ := quantBlock_rows (mode := mode) (r := r) (w := w) (v := v) rfl low high
      cases scale : blockScale v with
      | none => exact none' scale
      | some s =>
        obtain ⟨nan, inf, zero, fin⟩ := some' s scale
        cases x with
        | nan => exact nan read_w
        | zero n => exact zero n read_w
        | inf n => exact inf n read_w
        | fin q => exact fin q read_w
    case dequantBlock =>
      obtain ⟨none', some'⟩ := dequantBlock_rows (mode := mode) (r := r) (w := w) (v := v) rfl low high
      cases scale : blockScale v with
      | none => exact none' scale
      | some s =>
        obtain ⟨nan, inf, zero, fin⟩ := some' s scale
        cases element : (FFmt.ofCode f).read w with
        | nan => exact nan element
        | zero n => exact zero n element
        | inf n => exact inf n element
        | fin q => exact fin q element
  case roots =>
    cases x with
    | nan =>
      unfold frcp32 frsqrt32 fsqrt32
      rw [read_w]
      exact ⟨rfl, rfl, rfl⟩
    | zero n =>
      unfold frcp32 frsqrt32 fsqrt32
      rw [read_w]
      exact ⟨congrArg (with_ · flDZ) (fp32_inf n), congrArg (with_ · flDZ) (fp32_inf n), rfl⟩
    | inf n =>
      unfold frcp32 frsqrt32 fsqrt32
      rw [read_w]
      refine ⟨congrArg none_ (fp32_zero n), ?_, ?_⟩ <;> cases n <;> rfl
    | fin q =>
      refine ⟨?_, fun neg => ⟨frsqrt32_of_neg read_w neg, fsqrt32_of_neg read_w neg⟩,
        fun pos => ⟨fsqrt32_nearest read_w pos, frsqrt32_nearest read_w pos⟩⟩
      unfold frcp32
      rw [read_w]
  case div =>
    cases read_v : FFmt.fp32.read v with
    | nan => cases x <;> exact fdiv32_of_exact read_w read_v rfl
    | zero m =>
      cases x with
      | nan | zero => exact fdiv32_of_exact read_w read_v rfl
      | inf n => exact (fdiv32_of_exact read_w read_v rfl).trans (congrArg none_ (fp32_inf _))
      | fin p => exact (fdiv32_of_byZero read_w read_v rfl).trans (congrArg (with_ · flDZ) (fp32_inf _))
    | inf m =>
      cases x with
      | nan | inf => exact fdiv32_of_exact read_w read_v rfl
      | zero n => exact (fdiv32_of_exact read_w read_v rfl).trans (congrArg none_ (fp32_zero _))
      | fin p => exact (fdiv32_of_exact read_w read_v rfl).trans (congrArg none_ (fp32_zero _))
    | fin q =>
      cases x with
      | nan | fin => exact fdiv32_of_exact read_w read_v rfl
      | zero n => exact (fdiv32_of_exact read_w read_v rfl).trans (congrArg none_ (fp32_zero _))
      | inf n => exact (fdiv32_of_exact read_w read_v rfl).trans (congrArg none_ (fp32_inf _))
  case approx =>
    intro nearest steps sine cosine
    cases x with
    | nan =>
      unfold xexp2Lane xlog2Lane xsinLane xcosLane xtanhLane
      rw [read_w]
      exact ⟨rfl, rfl, rfl, rfl, rfl⟩
    | inf n =>
      unfold xexp2Lane xlog2Lane xsinLane xcosLane xtanhLane
      rw [read_w]
      refine ⟨rfl, ?_, rfl, rfl, congrArg none_ (fp32_one n)⟩
      cases n <;> rfl
    | zero n =>
      unfold xexp2Lane xlog2Lane xsinLane xcosLane xtanhLane
      rw [read_w]
      exact ⟨rfl, rfl, rfl, rfl, rfl⟩
    | fin q =>
      have coef_nearest (n : ℤ) (k : ℕ) : coef n k = nearest n k := coef_eq n k
      have horner_steps (p u : Word) (cs : List Word) : horner p u cs = steps p u cs := horner_eq_foldl u cs p
      have sinPoly_eq (a u : Word) : sinPoly a u = sine a u := by
        unfold sinPoly
        simp only [coef_nearest, horner_steps, sine]
      have cosPoly_eq (u : Word) : cosPoly u = cosine u := by
        unfold cosPoly
        simp only [coef_nearest, horner_steps, cosine]
      refine ⟨xexp2Lane_of_ge read_w, xexp2Lane_of_lt read_w, fun n => xexp2Lane_int read_w, fun low high => ?exp2,
        xlog2Lane_of_neg read_w, fun e m low high value => ?log2, ?sinCos, ?tanh⟩
      case exp2 =>
        intro n p y
        have coefs : exp2Coefs = [nearest 15403530 11, nearest 13333558 10, nearest 96181291 10, nearest 55504109 9,
            nearest 24022651 8, nearest 69314718 8, 0x3F800000] := by
          unfold exp2Coefs
          simp only [coef_one]
          simp only [coef_nearest]
        have poly : horner (coef 15252734 12) (fp32Of (q - n)) exp2Coefs = p := by
          rw [horner_steps, coef_nearest, coefs]
        exact xexp2Lane_rows (xexp2Lane_fin read_w low high (n := n) (p := p) rfl poly rfl)
      case log2 =>
        have result := xlog2Lane_fin read_w low high value
        unfold log2Coefs at result
        simp only [coef_nearest, horner_steps] at result
        exact result
      case sinCos =>
        refine ⟨(roundInt (q / halfPi) .rne 0).1, abs_roundInt_sub_le _ 0, ?_⟩
        intro a u row
        unfold xsinLane xcosLane
        rw [read_w]
        constructor
        · refine congrArg (with_ · flNX) ((sinCos_eq rfl).trans ?_)
          simp only [add_zero, sinPoly_eq, cosPoly_eq]
          rfl
        · refine congrArg (with_ · flNX) ((sinCos_eq rfl).trans ?_)
          simp only [sinPoly_eq, cosPoly_eq]
          rfl
      case tanh =>
        intro a back
        have result := xtanhLane_fin read_w
        simp only [coef_nearest, horner_steps] at result
        rw [result]
        refine ⟨fun huge => if_pos huge, fun small => ?_, fun large within => ?_⟩
        · rw [if_neg (by linarith), if_pos small]
        · rw [if_neg within.not_ge, if_neg large.not_gt]
          rfl

end Sys2Proof
end

/-! ## Minima, maxima and classes of VF32 (R105) -/

section
namespace Sys2Proof

open Machine

theorem minmax32_eq (hi : Bool) (x y : Word) :
    minmax32 hi x y = if isNan32 x || isNan32 y then 0x7FC00000 else minmax key32 hi x y := by
  unfold minmax32 ordered
  cases isNan32 x
  · cases isNan32 y
    · rfl
    · rfl
  · cases isNan32 y
    · rfl
    · rfl

theorem minmaxN32_eq (hi : Bool) (x y : Word) : minmaxN32 hi x y =
    if isNan32 x && isNan32 y then 0x7FC00000 else if isNan32 x then y else if isNan32 y then x else minmax key32 hi x y := by
  unfold minmaxN32 ordered
  cases isNan32 x
  · cases isNan32 y
    · rfl
    · rfl
  · cases isNan32 y
    · rfl
    · rfl

theorem negative_fp32 (x : Word) : FFmt.fp32.negative x = x.msb := by
  have := x.isLt
  unfold FFmt.negative
  rw [BitVec.msb_eq_decide, Bool.eq_iff_iff, beq_iff_eq, decide_eq_true_iff, show FFmt.fp32.mbits + FFmt.fp32.ebits = 31 from rfl]
  omega

/-- The exponent bits of a number are zero exactly when its magnitude bits lie below those of the least normal number. -/
theorem exponent_fp32_eq_zero {x : Word} (finite : x.toNat % 2 ^ 31 ≤ 0x7F7FFFFF) :
    (bitsOf x 23 8 == 0) = decide (x.toNat % 2 ^ 31 < 0x800000) := by
  unfold bitsOf
  rw [Bool.eq_iff_iff, beq_iff_eq, decide_eq_true_iff]
  omega

/-- VFCLASS by the magnitude bits and the sign bit. -/
theorem classMask_eq (x : Word) : classMask x =
    if 0x7F800000 < x.toNat % 2 ^ 31 then (if x.getLsbD 22 then 0x200 else 0x100)
    else if x.toNat % 2 ^ 31 = 0x7F800000 then (if x.msb then 1 else 0x80)
    else if x.toNat % 2 ^ 31 = 0 then (if x.msb then 8 else 0x10)
    else if x.toNat % 2 ^ 31 < 0x800000 then (if x.msb then 4 else 0x20)
    else if x.msb then 2 else 0x40 := by
  have read : FFmt.fp32.read x = if 0x7F800000 < x.toNat % 2 ^ 31 then .nan
      else if 0x7F7FFFFF < x.toNat % 2 ^ 31 then .inf (FFmt.fp32.negative x) else if x.toNat % 2 ^ 31 = 0 then _ else _ :=
    FFmt.read_eq x
  unfold classMask
  by_cases nan : 0x7F800000 < x.toNat % 2 ^ 31
  case pos => rw [read, if_pos nan, if_pos nan]
  rw [if_neg nan] at read ⊢
  by_cases inf : x.toNat % 2 ^ 31 = 0x7F800000
  case pos => rw [read, if_pos (by omega), if_pos inf, negative_fp32]
  have finite : x.toNat % 2 ^ 31 ≤ 0x7F7FFFFF := by omega
  rw [if_neg finite.not_gt] at read
  rw [if_neg inf]
  by_cases zero : x.toNat % 2 ^ 31 = 0
  case pos => rw [read, if_pos zero, if_pos zero, negative_fp32]
  rw [if_neg zero] at read ⊢
  have sign := FFmt.negative_of_read read
  rw [read]
  dsimp only
  rw [exponent_fp32_eq_zero finite]
  generalize (if FFmt.fp32.negative x = true then _ else _ : ℚ) = q at sign
  rw [negative_fp32] at sign
  rw [sign]
  by_cases neg : q < 0
  · simp only [neg, decide_true, decide_eq_true_iff, if_true]
  · simp only [neg, decide_false, decide_eq_true_iff, if_false, Bool.false_eq_true]

/-- Settles O12: each word applies its function lane by lane, and a pattern reads as its magnitude bits and sign say. -/
theorem floatingSelectionsFollowKeys : Obligations.FloatingSelectionsFollowKeys := by
  intro s d a b l nan lesser greater u2 u1
  have hnan : nan = isNan32 := funext fun x => (isNan32_eq x).symm
  rw [hnan]
  refine ⟨runsV2_of_vint2t rfl (minmax32_eq false), runsV2_of_vint2t rfl (minmax32_eq true),
    runsV2_of_vint2t rfl (minmaxN32_eq false), runsV2_of_vint2t rfl (minmaxN32_eq true),
    runsV1_of_vint1t rfl fun _ => rfl, runsV1_of_vint1t rfl fun _ => rfl, runsV2_of_vint2t rfl fun _ _ => rfl,
    runsV1_of_vint1t rfl fun x => ?_⟩
  rw [classMask_eq]
  simp only [isNan32_eq, decide_eq_true_iff]

end Sys2Proof
end

/-! ## The words of the X pipe (R109 to R118) -/

section
namespace Sys2Proof

open Machine

/-! ### Elements placed side by side (R110) -/

/-- A word masked to its low bits keeps the number that those bits are. -/
theorem toNat_and_ones (x : Word) {n : ℕ} (fits : n ≤ 32) : (x &&& BitVec.ofNat 32 (2 ^ n - 1)).toNat = bitsOf x 0 n := by
  have ones : 2 ^ n - 1 < 2 ^ 32 := lt_of_lt_of_le (Nat.sub_one_lt (by positivity)) (Nat.pow_le_pow_right two_pos fits)
  rw [BitVec.toNat_and, BitVec.toNat_ofNat, Nat.mod_eq_of_lt ones, Nat.and_two_pow_sub_one_eq_mod]
  unfold bitsOf
  rw [pow_zero, Nat.div_one]

/-- A word shifted over `n` bits that another fits in stands beside it. -/
theorem shiftLeft_or_eq (y : Word) {x : Word} {n : ℕ} (fits : x.toNat < 2 ^ n) :
    y <<< n ||| x = BitVec.ofNat 32 (y.toNat * 2 ^ n + x.toNat) := by
  apply BitVec.eq_of_toNat_eq
  rw [BitVec.toNat_or, BitVec.toNat_shiftLeft, BitVec.toNat_ofNat, ← Nat.shiftLeft_eq,
    Nat.shiftLeft_add_eq_or_of_lt fits, Nat.or_mod_two_pow, Nat.mod_eq_of_lt x.isLt]

/-- XPACKH of a lane. -/
theorem packHalves_eq (x y : Word) :
    y <<< 16 ||| (x &&& 0xFFFF) = BitVec.ofNat 32 (bitsOf y 0 16 * 2 ^ 16 + bitsOf x 0 16) := by
  have low : (x &&& 0xFFFF).toNat = bitsOf x 0 16 := toNat_and_ones x (n := 16) (by decide)
  have fits : bitsOf x 0 16 < 2 ^ 16 := Nat.mod_lt _ (by decide)
  rw [shiftLeft_or_eq y (low ▸ fits), low]
  apply BitVec.eq_of_toNat_eq
  simp only [BitVec.toNat_ofNat, bitsOf]
  omega

/-- XPACKB of a lane. -/
theorem packBytes_eq (x y z : Word) : z <<< 16 ||| (y &&& 0xFF) <<< 8 ||| (x &&& 0xFF) =
    BitVec.ofNat 32 (bitsOf z 0 16 * 2 ^ 16 + bitsOf y 0 8 * 2 ^ 8 + bitsOf x 0 8) := by
  have byte (w : Word) : (w &&& 0xFF).toNat = bitsOf w 0 8 := toNat_and_ones w (n := 8) (by decide)
  have small (w : Word) : bitsOf w 0 8 < 2 ^ 8 := Nat.mod_lt _ (by decide)
  have fits : bitsOf y 0 8 * 2 ^ 8 + bitsOf x 0 8 < 2 ^ 16 := by
    have := small x
    have := small y
    omega
  have low : ((y &&& 0xFF) <<< 8 ||| (x &&& 0xFF)).toNat = bitsOf y 0 8 * 2 ^ 8 + bitsOf x 0 8 := by
    rw [shiftLeft_or_eq _ (byte x ▸ small x), byte, byte, BitVec.toNat_ofNat]
    exact Nat.mod_eq_of_lt (fits.trans (by decide))
  rw [BitVec.or_assoc, shiftLeft_or_eq z (low ▸ fits), low]
  apply BitVec.eq_of_toNat_eq
  simp only [BitVec.toNat_ofNat, bitsOf]
  omega

/-- XUNPK4 writes a pair; vA is freed unless it is one of the two. -/
theorem ranTo_xunpk4 (s : State) {d : Reg} (a : Reg) (l : Bool) (pair : d.toNat ≤ 62) :
    RanTo (exec (.xunpk4 d a l) s) (fun t => ∃ fv, (fv = none ∨ fv = freesV l a d) ∧
      LanesTo s t (fun r =>
        if r = d.toNat + 1 then some (fun n => unpack4 (laneOf (s.rdV a) n) 16)
        else if r = d.toNat then some (fun n => unpack4 (laneOf (s.rdV a) n) 0)
        else none) (s.tagU [a]) fv (fun _ => 0) (fun _ => 0)) := by
  have wrote := ((LanesTo.refl s (s.tagU [a])).write d.toNat (fun n => unpack4 (laneOf (s.rdV a) n) 0) (by omega)).write
    (d.toNat + 1) (fun n => unpack4 (laneOf (s.rdV a) n) 16) (by omega)
  refine ⟨_, rfl, ?_⟩
  by_cases upper : a.toNat = d.toNat + 1
  · rw [if_pos upper]
    exact ⟨none, .inl rfl, wrote⟩
  · rw [if_neg upper]
    refine ⟨_, .inr rfl, wrote.freeD l a d fun other => ?_⟩
    have lower : a.toNat ≠ d.toNat := fun same => other (BitVec.eq_of_toNat_eq same)
    rw [if_neg upper, if_neg lower]

/-! ### Random streams (R117, R118) -/

/-- XRNGU's value of a draw is its upper 24 bits, scaled to the unit interval. -/
theorem unitDraw_eq (w : Word) : unitDraw w = fp32Of ((w.toNat / 256 : ℕ) * pow2 (-24)) := by
  unfold unitDraw
  rw [BitVec.toNat_ushiftRight, Nat.shiftRight_eq_div_pow]

/-- A word that writes vD from each lane's next draw takes one draw and raises no flag. -/
theorem ranTo_of_draw {s : State} {i : Instr} {d : Reg} {f g : Nat → Word}
    (runs : exec i s = .next (fword (fun n => ⟨g n, flNone, 1⟩) .g d s)) (same : ∀ n, g n = f n) :
    RanTo (exec i s) (LanesTo s · (fun r => if r = d.toNat then some f else none) .g none (fun _ => 0) (fun _ => 1)) := by
  obtain rfl : g = f := funext same
  exact ⟨_, runs, floatTo_plain s d d _ _⟩

/-- XRNGJ moves the draw index of the active lanes and writes no register. -/
theorem ranTo_xrngj (s : State) (a b : Reg) (l : Bool) :
    RanTo (exec (.xrngj a b l) s) (LanesTo s · (fun _ => none) .g (freesV0 l a) (fun _ => 0)
      (fun n => (laneOf (s.rdV a) n).toNat + (laneOf (s.rdV b) n).toNat * 2 ^ 32)) := by
  refine ⟨_, rfl, ((LanesTo.refl s .g).drawing _).free l a _ (fun marked => if_pos marked) (fun r freed => ?_) fun _ => rfl⟩
  unfold freesV0 at freed
  split at freed
  case isTrue => exact (Option.some.inj freed).symm
  case isFalse => cases freed

/-! ### Every word of the X pipe -/

/-- Settles O15: the conversions, special functions and quantisations are `fop1`, `fop2` and `vint2` with their function of a
lane; the packed elements stand side by side; the streams advance by the draws taken. -/
theorem conversionWordsApplyTheirFunction : Obligations.ConversionWordsApplyTheirFunction := by
  refine ⟨fun s d a b l => ?functions, fun s d a b l => ?packing, fun s d a b l => ?draws⟩
  case functions =>
    exact ⟨fun _ _ _ _ => runsF1_of_fop1 rfl, runsF1_of_fop1 rfl, runsF1_of_fop1 rfl, runsF1_of_fop1 rfl,
      runsF1_of_fop1 rfl, runsF1_of_fop1 rfl, runsF1_of_fop1 rfl, runsF1_of_fop1 rfl, runsF1_of_fop1 rfl,
      runsF2_of_fop2 rfl, runsF2_of_fop2 rfl, runsF2_of_fop2 rfl, runsV2_of_vint2t rfl fun _ _ => rfl,
      runsV2_of_vint2t rfl fun _ _ => rfl, runsF2_of_fop2 rfl, runsF2_of_fop2 rfl, runsF2_of_fop2 rfl⟩
  case packing =>
    intro bits four u1 u2
    refine ⟨?xpack6, ?xunpk6, ?xpack4, fun pair => ?xunpk4, ?xpackh, ?xpackb⟩
    case xpack6 => exact runsV1_of_vint1t rfl fun _ => rfl
    case xunpk6 => exact runsV1_of_vint1t rfl fun _ => rfl
    case xpack4 => exact runsV2_of_vint2t rfl fun _ _ => rfl
    case xunpk4 => exact ranTo_xunpk4 s a l pair
    case xpackh => exact runsV2_of_vint2t rfl packHalves_eq
    case xpackb => exact runsV3_of_vint3 rfl packBytes_eq
  case draws =>
    intro draw only
    refine ⟨?xrngb, ?xrngu, ?xrngk, ?xrngj⟩
    case xrngb => exact ranTo_of_draw rfl fun _ => rfl
    case xrngu => exact ranTo_of_draw rfl fun n => unitDraw_eq (draw n)
    case xrngk => exact runsV2_of_vint2t rfl fun _ _ => rfl
    case xrngj => exact ranTo_xrngj s a b l

end Sys2Proof
end

/-! ## Comparisons and votes (R102, R129, R130) -/

section
namespace Sys2Proof

open Machine

/-! ### Comparisons (R102) -/

/-- Flags that are raised leave the vector registers as a word reads them. -/
theorem rdV_raise (s : State) (f : Nat → Fl) (r : Reg) : (s.raise f).rdV r = s.rdV r := by
  unfold State.rdV State.rdVn State.src
  rw [State.raise_ctx, State.raise_stamp]
  cases s.ctx.grp with
  | none => rfl
  | some t => rfl

section
variable {s : State} {i : Instr} {d a b : Reg} {l : Bool}

/-- A word that `vcmp` performs writes the lanes where its condition holds. -/
theorem runsCmp_of_vcmp {p q : Word → Word → Bool} (low : d.toNat ≤ 61) (runs : exec i s = .next (vcmp q d a b l s))
    (same : ∀ x y, q x y = p x y) : RunsCmp s i d a b l p := by
  obtain rfl : q = p := funext fun x => funext (same x)
  exact ⟨_, runs, tripleTo s d a l _ low⟩

/-- A comparison that raises flags first reads the same lanes as before. -/
theorem ranTo_of_vcmp_raise {f : Nat → Fl} {p : Nat → Bool} {q : Word → Word → Bool} (low : d.toNat ≤ 61)
    (runs : exec i s = .next (vcmp q d a b l (s.raise f)))
    (same : ∀ n, (s.active.getLsbD n && q (laneOf (s.rdV a) n) (laneOf (s.rdV b) n)) = p n) :
    RanTo (exec i s) (TripleTo (s.raise f) · d (maskOf p) (freesV0 l a)) := by
  have active : (s.raise f).active = s.active := ((LanesTo.refl s .g).raising f).active
  have reads (r : Reg) : (s.raise f).rdV r = s.rdV r := rdV_raise s f r
  have holds : vcmp q d a b l (s.raise f) = ((s.raise f).wrMask d (maskOf p)).releaseV0 l a := by
    unfold vcmp
    rw [active, reads, reads]
    exact congrArg (fun g => ((s.raise f).wrMask d (maskOf g)).releaseV0 l a) (funext same)
  exact ⟨_, runs, holds ▸ tripleTo (s.raise f) d a l (maskOf p) low⟩

end

/-- Keys are equal where their numbers are. -/
theorem key32_beq (x y : Word) : (key32 x == key32 y) = ((key32 x).toNat == (key32 y).toNat) := by
  rw [Bool.eq_iff_iff, beq_iff_eq, beq_iff_eq, BitVec.toNat_inj]

/-- VFCLT and VFCLE in a lane: it is active, both operands are numbers, and the condition holds. -/
theorem and_ordered_and (m : Bool) (x y : Word) (c : Bool) :
    (m && (ordered x y && c)) = (m && !isNan32 x && !isNan32 y && c) := by
  unfold ordered
  simp only [Bool.and_assoc]

theorem not_ordered (x y : Word) : (!ordered x y) = (isNan32 x || isNan32 y) := by
  unfold ordered
  rw [Bool.not_and, Bool.not_not, Bool.not_not]

/-! ### Votes (R129) -/

/-- A scalar written by a word with a last-read mark on a vector register. -/
theorem scalarsTo_wrS_releaseV0 (s : State) (d a : Reg) (l : Bool) (x : Word) :
    ScalarsTo s ((s.wrS d x).releaseV0 l a) (fun r => if r = d.toNat then some x else none) none (freesV0 l a) :=
  ((ScalarsTo.refl s).write d.toNat x (by omega)).freeV l a

theorem bne_zero_eq_decide (x : Word) : (x != 0) = decide (x ≠ 0) := by
  rw [Bool.eq_iff_iff, bne_iff_ne, decide_eq_true_iff]

theorem boolWord_zero_or_one (c : Bool) : boolWord c = 0 ∨ boolWord c = 1 := by
  cases c
  · exact .inl rfl
  · exact .inr rfl

theorem boolWord_eq_one (c : Bool) : boolWord c = 1 ↔ c = true := by
  cases c
  · decide
  · decide

/-- WANY's condition: some lane of the mask holds a word other than 0. -/
theorem any_lanesIn (m : Mask) (x : Nat → Word) :
    (lanesIn m).any (fun n => x n != 0) = true ↔ ∃ n, n < 96 ∧ m.getLsbD n = true ∧ x n ≠ 0 := by
  simp only [List.any_eq_true, mem_lanesIn, bne_iff_ne, and_assoc]

/-- WALL's condition: every lane of the mask holds a word other than 0. -/
theorem all_lanesIn (m : Mask) (x : Nat → Word) :
    (lanesIn m).all (fun n => x n != 0) = true ↔ ∀ n, n < 96 → m.getLsbD n = true → x n ≠ 0 := by
  simp only [List.all_eq_true, mem_lanesIn, bne_iff_ne, and_imp]

/-- Settles O14: a comparison is `vcmp` of its condition, after the flags are raised for VFCLT and VFCLE; a vote asks the
active lanes. -/
theorem comparisonsAndVotesReadTheActiveLanes : Obligations.ComparisonsAndVotesReadTheActiveLanes := by
  refine ⟨fun s d a b l low => ?comparisons, fun s d a f l k => ?votes⟩
  case comparisons =>
    intro nan key raised
    have isNan : nan = isNan32 := funext fun x => (isNan32_eq x).symm
    have raisedNan : raised = nanRaises a b s := by
      simp only [raised, isNan]
      rfl
    rw [raisedNan, isNan]
    refine ⟨?vceq, ?vcne, ?vclt, ?vcle, ?vcltu, ?vcleu, ?vfceq, ?vfcne, ?vfcun, ?vfclt, ?vfcle⟩
    case vceq => exact runsCmp_of_vcmp low rfl fun _ _ => rfl
    case vcne => exact runsCmp_of_vcmp low rfl fun _ _ => rfl
    case vclt => exact runsCmp_of_vcmp low rfl fun _ _ => rfl
    case vcle => exact runsCmp_of_vcmp low rfl fun _ _ => rfl
    case vcltu => exact runsCmp_of_vcmp low rfl fun _ _ => rfl
    case vcleu => exact runsCmp_of_vcmp low rfl fun _ _ => rfl
    case vfceq => exact runsCmp_of_vcmp low rfl fun x y => congrArg (ordered x y && ·) (key32_beq x y)
    case vfcne => exact runsCmp_of_vcmp low rfl fun x y => by rw [not_ordered, bne, key32_beq]; rfl
    case vfcun => exact runsCmp_of_vcmp low rfl not_ordered
    case vfclt => exact ranTo_of_vcmp_raise low rfl fun _ => and_ordered_and _ _ _ _
    case vfcle => exact ranTo_of_vcmp_raise low rfl fun _ => and_ordered_and _ _ _ _
  case votes =>
    intro x
    refine ⟨fun low => ?wvote, fun low => ?wflg, ?wany, ?wall, ?wflclr⟩
    case wvote =>
      have nonzero : (fun n => s.active.getLsbD n && x n != 0) = fun n => s.active.getLsbD n && decide (x n ≠ 0) := by
        simp only [bne_zero_eq_decide]
      exact ⟨_, rfl, nonzero ▸ tripleTo s d a l _ low⟩
    case wflg => exact ⟨_, rfl, tripleTo_plain s d _ low⟩
    case wany =>
      exact ⟨_, boolWord_zero_or_one _, (boolWord_eq_one _).trans (any_lanesIn s.active x), _, rfl,
        scalarsTo_wrS_releaseV0 s d a l _⟩
    case wall =>
      exact ⟨_, boolWord_zero_or_one _, (boolWord_eq_one _).trans (all_lanesIn s.active x), _, rfl,
        scalarsTo_wrS_releaseV0 s d a l _⟩
    case wflclr => exact ⟨_, rfl, rfl, fun n lane => tableOf_getD _ _ _ lane⟩

end Sys2Proof
end

/-! ## Lane moves (R120, R123, R124) -/

section
namespace Sys2Proof

open Machine

/-! ### Effects on the active lanes -/

/-- What is given for a lane that is not active does not count. -/
theorem LanesTo.congr_active {s t : State} {w w' : Nat → Option (Nat → Word)} {tag : Tag} {fv : Option Nat}
    {fl fl' : Nat → Fl} {dr : Nat → Nat} (h : LanesTo s t w tag fv fl dr)
    (hw : ∀ r, (w r = none ∧ w' r = none) ∨
      ∃ f f', w r = some f ∧ w' r = some f' ∧ ∀ n ∈ lanesIn s.active, f n = f' n)
    (hf : ∀ n ∈ lanesIn s.active, fl n = fl' n) : LanesTo s t w' tag fv fl' dr := by
  have named {n : Nat} (lane : n < 96) (on : s.active.getLsbD n = true) : n ∈ lanesIn s.active :=
    (mem_lanesIn _ _).2 ⟨lane, on⟩
  refine ⟨h.only, fun r n hr hn free => ?regs, h.freed, fun r hr free => ?tags, h.tagFreed, fun n hn => ?flags, h.draws⟩
  case regs =>
    rw [h.regs r n hr hn free]
    obtain ⟨e, e'⟩ | ⟨f, f', e, e', same⟩ := hw r
    · rw [e, e']
    · simp only [e, e']
      by_cases on : s.active.getLsbD n = true
      · rw [if_pos on, if_pos on, same n (named hn on)]
      · rw [if_neg on, if_neg on]
  case tags =>
    rw [h.tags r hr free]
    obtain ⟨e, e'⟩ | ⟨f, f', e, e', -⟩ := hw r
    · rw [e, e']
    · rw [e, e']
  case flags =>
    rw [h.flags n hn]
    by_cases on : s.active.getLsbD n = true
    · rw [if_pos on, if_pos on, hf n (named hn on)]
    · rw [if_neg on, if_neg on]

/-- vD written with other values for the lanes that are not active. -/
theorem VectorTo.congr_active {s t : State} {d a : Reg} {l : Bool} {f f' : Nat → Word} {tag : Tag}
    (h : VectorTo s t d a l f tag) (same : ∀ n ∈ lanesIn s.active, f n = f' n) : VectorTo s t d a l f' tag := by
  refine LanesTo.congr_active h (fun r => ?_) fun _ _ => rfl
  by_cases written : r = d.toNat
  · exact .inr ⟨f, f', if_pos written, if_pos written, same⟩
  · exact .inl ⟨if_neg written, if_neg written⟩

/-- vD, flags and draws with other results for the lanes that are not active; the draws are the same. -/
theorem FloatTo.congr_active {s t : State} {d a : Reg} {l : Bool} {f f' : Nat → Word × Fl} {tag : Tag}
    (h : FloatTo s t d a l (fun n => ⟨(f n).1, (f n).2, 0⟩) tag) (same : ∀ n ∈ lanesIn s.active, f n = f' n) :
    FloatTo s t d a l (fun n => ⟨(f' n).1, (f' n).2, 0⟩) tag := by
  refine LanesTo.congr_active h (fun r => ?_) fun n on => congrArg Prod.snd (same n on)
  by_cases written : r = d.toNat
  · exact .inr ⟨_, _, if_pos written, if_pos written, fun n on => congrArg Prod.fst (same n on)⟩
  · exact .inl ⟨if_neg written, if_neg written⟩

/-! ### Source lanes (R120, R123) -/

theorem sourceLane_eq_movedLane (s : State) (a : Reg) (n : Nat) : sourceLane s.active (s.rdV a) n = movedLane s a n := by
  unfold sourceLane movedLane
  simp only [Bool.and_eq_true, decide_eq_true_eq]

/-- An index past the last lane reads 0. -/
theorem movedLane_of_le (s : State) (a : Reg) {n : Nat} (past : 96 ≤ n) : movedLane s a n = 0 :=
  if_neg fun lane => absurd lane.1 past.not_gt

/-- A word that `wmove` performs reads the lane that its index names, and 0 where it names none. -/
theorem runsMove_of_wmove {s : State} {i : Instr} {d a : Reg} {l : Bool} {index : Nat → Option Nat} {src : Nat → Nat}
    (runs : exec i s = .next (wmove index d a l s))
    (names : ∀ n, index n = some (src n) ∨ index n = none ∧ 96 ≤ src n) : RunsMove s i d a l src := by
  refine ⟨_, runs, VectorTo.congr_active (vectorTo s d a l _ .g) fun n _ => ?_⟩
  obtain named | ⟨unnamed, past⟩ := names n
  · rw [named]
    exact sourceLane_eq_movedLane s a (src n)
  · rw [unnamed, movedLane_of_le s a past]

/-- WUP names no lane below the shift. -/
theorem wup_names (k n : Nat) :
    (if n < k then none else some (n - k)) = some (if n < k then 96 else n - k) ∨
      (if n < k then none else some (n - k)) = none ∧ 96 ≤ if n < k then 96 else n - k := by
  by_cases below : n < k
  · rw [if_pos below, if_pos below]
    exact .inr ⟨rfl, le_refl _⟩
  · rw [if_neg below, if_neg below]
    exact .inl rfl

/-! ### Packing (R124) -/

/-- Values dealt out to rising lanes: a lane gets the value whose place is the number of lanes below it. -/
theorem find_zip_lane {α : Type} {lanes : List Nat} (rising : lanes.Pairwise (· < ·)) (vals : List α) {n : Nat}
    (on : n ∈ lanes) :
    ((lanes.zip vals).find? (fun p => p.1 == n)).map Prod.snd = vals[(lanes.filter (· < n)).length]? := by
  induction lanes generalizing vals with
  | nil => cases on
  | cons first rest ih =>
    obtain ⟨above, rising'⟩ := List.pairwise_cons.1 rising
    cases vals with
    | nil => rfl
    | cons v vs =>
      rw [List.zip_cons_cons]
      by_cases here : first = n
      · have none_below : (first :: rest).filter (· < n) = [] := by
          rw [List.filter_eq_nil_iff]
          intro m later
          have : n ≤ m := by
            obtain rfl | later := List.mem_cons.1 later
            · exact here.ge
            · exact here ▸ (above m later).le
          simpa using this
        rw [List.find?_cons_of_pos (by simpa using here), none_below]
        rfl
      · have later : n ∈ rest := (List.mem_cons.1 on).resolve_left (Ne.symm here)
        have below : first < n := above n later
        rw [List.find?_cons_of_neg (by simpa using here), ih rising' vs later,
          List.filter_cons_of_pos (by simpa using below), List.length_cons, List.getElem?_cons_succ]

/-- Zeros that follow a list change no value read with the default 0. -/
theorem getD_append_zeros (vals : List Word) (k n : Nat) : (vals ++ List.replicate k 0)[n]?.getD 0 = vals[n]?.getD 0 := by
  by_cases inside : n < vals.length
  · rw [List.getElem?_append_left inside]
  · have past : vals.length ≤ n := not_lt.1 inside
    rw [List.getElem?_append_right past, List.getElem?_eq_none past, List.getElem?_replicate]
    split
    · rfl
    · rfl

/-- WCOMP gives an active lane the selected value whose place is the number of active lanes below it. -/
theorem ranTo_wcomp (s : State) (d a b : Reg) (l : Bool) :
    RanTo (exec (.wcomp d a b l) s) (VectorTo s · d a l (fun n =>
      (((lanesIn s.active).filter (fun m => laneOf (s.rdV b) m ≠ 0))[(lanesBefore s n).length]?.map
        (laneOf (s.rdV a))).getD 0) .g) := by
  refine ⟨_, rfl, VectorTo.congr_active (vectorTo s d a l _ .g) fun n on => ?_⟩
  rw [find_zip_lane (lanesIn_sorted s.active) _ on, getD_append_zeros, List.getElem?_map]
  simp only [bne_zero_eq_decide]
  rfl

/-! ### WBC (R25, R81, R123) -/

/-- A last-read mark on a scalar register leaves the others as they read. -/
theorem rdS_mark_other (t : Thread) (sp : BitVec 2) (stamp : Nat) {a r : Nat} (other : r ≠ a) :
    ({ t with srel := t.srel ||| ((1 : BitVec 64) <<< a) } : Thread).rdS sp stamp r = t.rdS sp stamp r := by
  simp only [Thread.rdS, setBit_other _ _ _ other]

/-- The marked register reads its value or zero. -/
theorem rdS_mark_self (t : Thread) (sp : BitVec 2) (stamp : Nat) {a : Nat} (general : a < 60) :
    ({ t with srel := t.srel ||| ((1 : BitVec 64) <<< a) } : Thread).rdS sp stamp a = t.rdS sp stamp a ∨
      ({ t with srel := t.srel ||| ((1 : BitVec 64) <<< a) } : Thread).rdS sp stamp a = 0 := by
  have notZero : a ≠ 63 := by omega
  have notMask : ¬ (60 ≤ a ∧ (!t.mcc) = true) := fun mask => absurd mask.1 general.not_ge
  simp only [Thread.rdS, if_neg notZero, if_neg notMask, setBit_self _ _ (show a < 64 by omega)]
  cases Config.scalarReleased stamp a with
  | true => exact .inr rfl
  | false => exact .inl (by simp only [Bool.and_false])

/-- WBC with a last-read mark on sA. -/
theorem ranTo_wbc_marked (s : State) (d a : Reg) :
    RanTo (exec (.wbc d a true) s) (fun t => ∃ u, VectorTo s u d d false (fun _ => s.rdS a) .u ∧
      t = { u with thr := { u.thr with srel := t.thr.srel } } ∧
      (∀ r, r < 64 → r ≠ a.toNat → seesS t r = seesS u r) ∧
      (seesS t a.toNat = seesS u a.toNat ∨ seesS t a.toNat = 0)) := by
  have wrote := vectorTo_plain s d d (fun _ => s.rdS a) .u
  by_cases general : a.toNat < 60
  case pos =>
    refine ⟨_, rfl, _, wrote, ?_⟩
    rw [if_pos (by simpa using general)]
    exact ⟨rfl, fun r _ other => rdS_mark_other _ _ _ other, rdS_mark_self _ _ _ general⟩
  case neg =>
    refine ⟨_, rfl, _, wrote, ?_⟩
    rw [if_neg (by simpa using general)]
    exact ⟨rfl, fun _ _ _ => rfl, .inl rfl⟩

/-- Settles O16: the moves are `wmove` with the index of R123, WCOMP deals the selected values out to the active lanes, WBC
writes sA. -/
theorem laneMovesReadTheirSourceLane : Obligations.LaneMovesReadTheirSourceLane := by
  intro s d a b n l
  refine ⟨?wshf, ?wshfi, ?wxor, ?wup, ?wdn, ?wcomp, ?wbc, ?wbcMarked⟩
  case wshf => exact runsMove_of_wmove rfl fun _ => .inl rfl
  case wshfi => exact runsMove_of_wmove rfl fun _ => .inl rfl
  case wxor => exact runsMove_of_wmove rfl fun _ => .inl rfl
  case wup => exact runsMove_of_wmove rfl (wup_names n.toNat)
  case wdn => exact runsMove_of_wmove rfl fun _ => .inl rfl
  case wcomp => exact ranTo_wcomp s d a b l
  case wbc => exact ⟨_, rfl, vectorTo_plain s d d _ _⟩
  case wbcMarked => exact ranTo_wbc_marked s d a

end Sys2Proof
end

/-! ## Scans and reductions (R125 to R128, R131) -/

section
namespace Sys2Proof

open Machine

/-! ### Integer scans (R125) -/

/-- One word more at the end of a sequence is combined last. -/
theorem combined_append (f : Word → Word → Word) {xs : List Word} (x : Word) (some_before : xs ≠ []) :
    combined f (xs ++ [x]) = f (combined f xs) x := by
  obtain ⟨y, ys, rfl⟩ := List.exists_cons_of_ne_nil some_before
  exact List.foldl_append

/-- Of lanes that rise from `first`, none but `first` lies up to it. -/
theorem filter_le_first {first : Nat} {rest : List Nat} (above : ∀ m ∈ rest, first < m) :
    (first :: rest).filter (· ≤ first) = [first] := by
  have none_else : rest.filter (· ≤ first) = [] := by
    rw [List.filter_eq_nil_iff]
    exact fun m later => by simpa using above m later
  rw [List.filter_cons_of_pos (by simp), none_else]

/-- The lanes up to an active lane are the lanes before it and the lane itself. -/
theorem filter_le_eq {lanes : List Nat} (rising : lanes.Pairwise (· < ·)) {n : Nat} (on : n ∈ lanes) :
    lanes.filter (· ≤ n) = lanes.filter (· < n) ++ [n] := by
  induction lanes with
  | nil => cases on
  | cons first rest ih =>
    obtain ⟨above, rising'⟩ := List.pairwise_cons.1 rising
    obtain rfl | later := List.mem_cons.1 on
    · have none_before : (n :: rest).filter (· < n) = [] := by
        rw [List.filter_eq_nil_iff]
        exact fun m later => by simpa using (List.mem_cons.1 later).elim Eq.ge fun later => (above m later).le
      rw [filter_le_first above, none_before, List.nil_append]
    · have below : first < n := above n later
      rw [List.filter_cons_of_pos (by simpa using below.le), List.filter_cons_of_pos (by simpa using below), ih rising' later,
        List.cons_append]

theorem lanesUpTo_eq (s : State) {n : Nat} (on : n ∈ lanesIn s.active) : lanesUpTo s n = lanesBefore s n ++ [n] :=
  filter_le_eq (lanesIn_sorted s.active) on

section
variable {s : State} {i : Instr} {d a : Reg} {l : Bool}

/-- A scan's entry for an active lane. -/
theorem scanList_active (f : Word → Word → Word) (x : Lanes) {n : Nat} (on : n ∈ lanesIn s.active) :
    entryOf (scanList f x (lanesIn s.active) none) n = combined f ((lanesUpTo s n).map (laneOf x)) :=
  scanList_entry f x _ none n (lanesIn_sorted s.active) on

/-- A word that `wscan` performs gives each active lane the combination of the active lanes up to it. -/
theorem ranTo_of_wscan {f g : Word → Word → Word} (runs : exec i s = .next (wscan g d a l s)) (same : ∀ x y, g x y = f x y) :
    RanTo (exec i s) (VectorTo s · d a l (fun n => combined f ((lanesUpTo s n).map (laneOf (s.rdV a)))) .g) := by
  obtain rfl : g = f := funext fun x => funext (same x)
  exact ⟨_, runs, VectorTo.congr_active (vectorTo s d a l _ .g) fun n on => scanList_active g _ on⟩

/-- A word that `wred` performs gives every active lane the combination of them all. -/
theorem ranTo_of_wred {f g : Word → Word → Word} (runs : exec i s = .next (wred g d a l s)) (same : ∀ x y, g x y = f x y) :
    RanTo (exec i s)
      (VectorTo s · d a l (fun _ => combined f ((lanesIn s.active).map (laneOf (s.rdV a)))) (s.tagU [a])) := by
  obtain rfl : g = f := funext fun x => funext (same x)
  exact ⟨_, runs, vectorTo s d a l _ _⟩

end

/-- The sum up to an active lane less the lane's own term is the sum before it. -/
theorem sumUpTo_sub (s : State) (x : Lanes) {n : Nat} (on : n ∈ lanesIn s.active) :
    combined (fun p q => p + q) ((lanesUpTo s n).map (laneOf x)) - laneOf x n =
      combined (fun p q => p + q) ((lanesBefore s n).map (laneOf x)) := by
  rw [lanesUpTo_eq s on, List.map_append, List.map_singleton]
  by_cases first : (lanesBefore s n).map (laneOf x) = []
  · rw [first]
    exact BitVec.sub_self _
  · rw [combined_append _ _ first]
    exact BitVec.add_sub_cancel _ _

/-- WSCANX gives each active lane the sum before it. -/
theorem ranTo_wscanx (s : State) (d a : Reg) (l : Bool) : RanTo (exec (.wscanx d a l) s)
    (VectorTo s · d a l (fun n => combined (fun p q => p + q) ((lanesBefore s n).map (laneOf (s.rdV a)))) .g) :=
  ⟨_, rfl, VectorTo.congr_active (vectorTo s d a l _ .g) fun n on =>
    (congrArg (· - laneOf (s.rdV a) n) (scanList_active _ _ on)).trans (sumUpTo_sub s (s.rdV a) on)⟩

/-! ### Floating scans (R126) -/

/-- One addition of a running sum: the rounded sum, its flags added to those raised so far. -/
def addTerm (mode : RMode) (sum : Word × Fl) (y : Word) : Word × Fl :=
  ((fadd .fp32 mode 0 sum.1 y).v, sum.2 ||| (fadd .fp32 mode 0 sum.1 y).fl)

theorem summed_cons (mode : RMode) (x : Word) (xs : List Word) : summed mode (x :: xs) = xs.foldl (addTerm mode) (x, flNone) :=
  rfl

/-- A lane's entry in a list of sums; 0 and no flag for a lane that has none. -/
def sumOf (ps : List (Nat × Word × Fl)) (n : Nat) : Word × Fl := ((ps.find? (fun p => p.1 == n)).map Prod.snd).getD (0, flNone)

theorem sumOf_cons_self (n : Nat) (v : Word × Fl) (ps : List (Nat × Word × Fl)) : sumOf ((n, v) :: ps) n = v := by
  simp [sumOf]

theorem sumOf_cons_other {m n : Nat} (other : m ≠ n) (v : Word × Fl) (ps : List (Nat × Word × Fl)) :
    sumOf ((m, v) :: ps) n = sumOf ps n := by
  simp [sumOf, other]

/-- The sum that goes on from lower lanes, at a lane: the lanes up to it are added, one after another. -/
theorem scanFloat_some_entry (mode : RMode) (x : Lanes) {lanes : List Nat} (rising : lanes.Pairwise (· < ·))
    (sum : Word × Fl) {n : Nat} (on : n ∈ lanes) :
    sumOf (scanFloat mode x lanes (some sum)) n = ((lanes.filter (· ≤ n)).map (laneOf x)).foldl (addTerm mode) sum := by
  induction lanes generalizing sum with
  | nil => cases on
  | cons first rest ih =>
    obtain ⟨above, rising'⟩ := List.pairwise_cons.1 rising
    have unrolled : scanFloat mode x (first :: rest) (some sum) = (first, addTerm mode sum (laneOf x first)) ::
        scanFloat mode x rest (some (addTerm mode sum (laneOf x first))) := rfl
    rw [unrolled]
    obtain rfl | later := List.mem_cons.1 on
    · rw [sumOf_cons_self, filter_le_first above]
      rfl
    · have below : first < n := above n later
      rw [sumOf_cons_other below.ne, ih rising' _ later, List.filter_cons_of_pos (by simpa using below.le)]
      rfl

/-- The sum at a lane starts with the lowest lane. -/
theorem scanFloat_entry (mode : RMode) (x : Lanes) {lanes : List Nat} (rising : lanes.Pairwise (· < ·)) {n : Nat}
    (on : n ∈ lanes) : sumOf (scanFloat mode x lanes none) n = summed mode ((lanes.filter (· ≤ n)).map (laneOf x)) := by
  cases lanes with
  | nil => cases on
  | cons first rest =>
    obtain ⟨above, rising'⟩ := List.pairwise_cons.1 rising
    have unrolled : scanFloat mode x (first :: rest) none =
        (first, laneOf x first, flNone) :: scanFloat mode x rest (some (laneOf x first, flNone)) := rfl
    rw [unrolled]
    obtain rfl | later := List.mem_cons.1 on
    · rw [sumOf_cons_self, filter_le_first above]
      rfl
    · have below : first < n := above n later
      rw [sumOf_cons_other below.ne, scanFloat_some_entry mode x rising' _ later,
        List.filter_cons_of_pos (by simpa using below.le), List.map_cons, summed_cons]

/-- WSCANF gives each active lane the sum up to it, with the flags raised so far. -/
theorem ranTo_wscanf (s : State) (d a : Reg) (l : Bool) : RanTo (exec (.wscanf d a l) s) (FloatTo s · d a l (fun n =>
    ⟨(summed s.laneMode ((lanesUpTo s n).map (laneOf (s.rdV a)))).1,
      (summed s.laneMode ((lanesUpTo s n).map (laneOf (s.rdV a)))).2, 0⟩) .g) :=
  ⟨_, rfl, FloatTo.congr_active
    (floatTo s d a l (fun n => ⟨(sumOf (scanFloat s.laneMode (s.rdV a) (lanesIn s.active) none) n).1,
      (sumOf (scanFloat s.laneMode (s.rdV a) (lanesIn s.active) none) n).2, 0⟩) .g)
    fun _ on => scanFloat_entry s.laneMode (s.rdV a) (lanesIn_sorted s.active) on⟩

/-! ### The tree (R128) -/

/-- Neighbours combined two by two. -/
theorem treeLevel_map_range (mode : RMode) (node : Nat → Option Word × Fl) (n : Nat) :
    treeLevel mode ((List.range (2 * n)).map node) =
      (List.range n).map (fun i => combF mode (node (2 * i)) (node (2 * i + 1))) := by
  induction n generalizing node with
  | zero => rfl
  | succ n ih =>
    have two_more : List.range (2 * (n + 1)) = 0 :: 1 :: (List.range (2 * n)).map (· + 2) := by
      rw [show 2 * (n + 1) = 2 * n + 1 + 1 by ring, List.range_succ_eq_map, List.range_succ_eq_map]
      simp
    have step := ih (fun i => node (i + 2))
    rw [two_more, List.range_succ_eq_map]
    simp only [List.map_cons, List.map_map, treeLevel]
    exact congrArg _ step

/-- A level of the tree follows from the level below. -/
theorem treeLevel_treeNode (mode : RMode) (leaf : Nat → Option Word) (k n : Nat) :
    treeLevel mode ((List.range (2 * n)).map (treeNode mode leaf k)) = (List.range n).map (treeNode mode leaf (k + 1)) :=
  treeLevel_map_range mode (treeNode mode leaf k) n

/-- The sum of a beat is the root of its tree. -/
theorem beatSum_eq_treeNode (mode : RMode) (m : Mask) (x : Lanes) (b : Nat) : beatSum mode m x b =
    treeNode mode (fun i => if m.getLsbD (32 * b + i) then some (laneOf x (32 * b + i)) else none) 5 0 := by
  generalize tree : treeNode mode (fun i => if m.getLsbD (32 * b + i) then some (laneOf x (32 * b + i)) else none) = node
  have level (k n : Nat) : treeLevel mode ((List.range (2 * n)).map (node k)) = (List.range n).map (node (k + 1)) :=
    tree ▸ treeLevel_treeNode mode _ k n
  have leaves : (List.range 32).map (fun i =>
      (if m.getLsbD (32 * b + i) then some (laneOf x (32 * b + i)) else none, flNone)) = (List.range 32).map (node 0) :=
    tree ▸ rfl
  unfold beatSum
  simp only [leaves, level 0 16, level 1 8, level 2 4, level 3 2, level 4 1]
  rfl

/-- WREDF gives every active lane the sum of the three trees, with the flags of all their additions. -/
theorem ranTo_wredf (s : State) (d a : Reg) (l : Bool) (beat : Nat → Option Word × Fl)
    (sums : ∀ b, beatSum s.laneMode s.active (s.rdV a) b = beat b) :
    RanTo (exec (.wredf d a l) s) (FloatTo s · d a l (fun _ =>
      ⟨(combF s.laneMode (combF s.laneMode (beat 0) (beat 1)) (beat 2)).1.getD 0,
        (combF s.laneMode (combF s.laneMode (beat 0) (beat 1)) (beat 2)).2, 0⟩) (s.tagU [a])) := by
  obtain rfl : beatSum s.laneMode s.active (s.rdV a) = beat := funext sums
  exact ⟨_, rfl, floatTo s d a l _ _⟩

/-! ### The greatest pair (R131) -/

/-- A pair of words as R131 orders it: by the first word, then by the second. -/
def pairKey (p : Word × Word) : ℕ ×ₗ ℕ := toLex (p.1.toNat, p.2.toNat)

theorem pairKey_le_iff (p q : Word × Word) :
    pairKey p ≤ pairKey q ↔ p.1.toNat < q.1.toNat ∨ p.1 = q.1 ∧ p.2.toNat ≤ q.2.toNat := by
  unfold pairKey
  rw [Prod.Lex.toLex_le_toLex, BitVec.toNat_inj]

theorem pairMax_eq (p q : Word × Word) : pairMax p q = if pairKey p < pairKey q then q else p := by
  have less : (decide (p.1.toNat < q.1.toNat) || (p.1 == q.1 && decide (p.2.toNat < q.2.toNat))) = true ↔
      pairKey p < pairKey q := by
    unfold pairKey
    rw [Prod.Lex.toLex_lt_toLex, BitVec.toNat_inj, Bool.or_eq_true, Bool.and_eq_true, decide_eq_true_iff, beq_iff_eq,
      decide_eq_true_iff]
  unfold pairMax
  simp only [less]

theorem pairMax_mem (p q : Word × Word) : pairMax p q = p ∨ pairMax p q = q := by
  rw [pairMax_eq]
  split
  · exact .inr rfl
  · exact .inl rfl

theorem le_pairMax (p q : Word × Word) : pairKey p ≤ pairKey (pairMax p q) ∧ pairKey q ≤ pairKey (pairMax p q) := by
  rw [pairMax_eq]
  split
  case isTrue less => exact ⟨less.le, le_refl _⟩
  case isFalse notLess => exact ⟨le_refl _, not_lt.1 notLess⟩

/-- The fold of `pairMax` is one of the pairs, and none lies above it. -/
theorem foldl_pairMax (p : Word × Word) (ps : List (Word × Word)) : ps.foldl pairMax p ∈ p :: ps ∧
    ∀ q ∈ p :: ps, pairKey q ≤ pairKey (ps.foldl pairMax p) := by
  induction ps generalizing p with
  | nil => exact ⟨List.mem_singleton.2 rfl, fun q only => le_of_eq (congrArg pairKey (List.mem_singleton.1 only))⟩
  | cons next rest ih =>
    obtain ⟨found, greatest⟩ := ih (pairMax p next)
    obtain ⟨leLeft, leRight⟩ := le_pairMax p next
    have start : pairKey (pairMax p next) ≤ pairKey (rest.foldl pairMax (pairMax p next)) := greatest _ List.mem_cons_self
    rw [List.foldl_cons]
    refine ⟨?_, fun q given => ?_⟩
    · obtain same | later := List.mem_cons.1 found
      · obtain left | right := pairMax_mem p next
        · exact List.mem_cons.2 (.inl (same.trans left))
        · exact List.mem_cons_of_mem _ (List.mem_cons.2 (.inl (same.trans right)))
      · exact List.mem_cons_of_mem _ (List.mem_cons_of_mem _ later)
    · obtain rfl | given := List.mem_cons.1 given
      · exact leLeft.trans start
      obtain rfl | given := List.mem_cons.1 given
      · exact leRight.trans start
      · exact greatest q (List.mem_cons_of_mem _ given)

/-- The pair that WMAXI finds in a list. -/
def greatestPair : List (Word × Word) → Word × Word
  | [] => (0, 0)
  | p :: ps => ps.foldl pairMax p

/-- Of some lanes, the greatest pair is that of one lane, above which none lies. -/
theorem greatestPair_lane (f : Nat → Word × Word) {lanes : List Nat} (some_lane : lanes ≠ []) :
    ∃ m ∈ lanes, greatestPair (lanes.map f) = f m ∧ ∀ n ∈ lanes, pairKey (f n) ≤ pairKey (f m) := by
  obtain ⟨first, rest, rfl⟩ := List.exists_cons_of_ne_nil some_lane
  obtain ⟨found, greatest⟩ := foldl_pairMax (f first) (rest.map f)
  rw [← List.map_cons] at found greatest
  obtain ⟨m, on, same⟩ := List.mem_map.1 found
  refine ⟨m, on, same.symm, fun n on' => ?_⟩
  rw [same]
  exact greatest _ (List.mem_map_of_mem on')

/-- A mask that is not empty has a lane. -/
theorem lanesIn_ne_nil {m : Mask} (some_bit : m ≠ 0) : lanesIn m ≠ [] := by
  intro none_listed
  refine some_bit (BitVec.eq_of_getLsbD_eq fun n lane => ?_)
  have off : n ∉ lanesIn m := none_listed ▸ List.not_mem_nil
  rw [mem_lanesIn] at off
  refine (Bool.eq_false_iff.2 ?_).trans BitVec.getLsbD_zero.symm
  exact fun on => off ⟨lane, on⟩

/-- The state after WMAXI found a pair: vD and vD+1 are written, and vA is freed unless it is one of the two. -/
def wrotePair (s : State) (d a : Reg) (l : Bool) (p : Word × Word) (tag : Tag) : State :=
  let t := (s.wrVn d.toNat (fun _ => p.1) tag).wrVn (d.toNat + 1) (fun _ => p.2) tag
  if a.toNat = d.toNat + 1 then t else t.releaseV l a d

theorem exec_wmaxi (s : State) (d a b : Reg) (l : Bool) : exec (.wmaxi d a b l) s = .next (wrotePair s d a l
    (greatestPair ((lanesIn s.active).map (fun n => (laneOf (s.rdV a) n, laneOf (s.rdV b) n)))) (s.tagU [a, b])) := rfl

/-- With no active lane the pair goes nowhere. -/
theorem wrotePair_idle {s : State} (idle : s.active = 0) (d a : Reg) (l : Bool) (p : Word × Word) (tag : Tag) :
    wrotePair s d a l p tag = s := by
  have unwritten (r : Nat) (f : Nat → Word) : s.wrVn r f tag = s := if_pos idle
  have unfreed : s.releaseV l a d = s := by
    unfold State.releaseV State.releaseV0
    simp [idle]
  unfold wrotePair
  rw [unwritten, unwritten]
  exact (congrArg (ite _ s) unfreed).trans (ite_self s)

theorem lanesTo_wrotePair (s : State) {d : Reg} (a : Reg) (l : Bool) (p : Word × Word) (tag : Tag) (pair : d.toNat ≤ 62) :
    ∃ fv, (fv = none ∨ fv = freesV l a d) ∧ LanesTo s (wrotePair s d a l p tag)
      (fun r => if r = d.toNat + 1 then some (fun _ => p.2) else if r = d.toNat then some (fun _ => p.1) else none) tag fv
      (fun _ => 0) (fun _ => 0) := by
  have wrote := ((LanesTo.refl s tag).write d.toNat (fun _ => p.1) (by omega)).write (d.toNat + 1) (fun _ => p.2) (by omega)
  unfold wrotePair
  by_cases upper : a.toNat = d.toNat + 1
  · rw [if_pos upper]
    exact ⟨none, .inl rfl, wrote⟩
  · rw [if_neg upper]
    refine ⟨_, .inr rfl, wrote.freeD l a d fun other => ?_⟩
    have lower : a.toNat ≠ d.toNat := fun same => other (BitVec.eq_of_toNat_eq same)
    rw [if_neg upper, if_neg lower]

/-! ### Every scan and reduction -/

/-- Settles O17: a scan's entry for a lane combines the lanes up to it; the reductions fold the active lanes, or combine the
roots of the three trees; WMAXI folds the greater of two pairs. -/
theorem scansAndReductionsCombineTheLanes : Obligations.ScansAndReductionsCombineTheLanes := by
  refine ⟨fun s d a l => ?scans, fun s d a l => ?reductions, fun s d a b l pair => ?greatest⟩
  case scans =>
    exact ⟨ranTo_of_wscan rfl fun _ _ => rfl, ranTo_of_wscan rfl sminW_eq, ranTo_of_wscan rfl smaxW_eq,
      ranTo_wscanx s d a l, ranTo_wscanf s d a l⟩
  case reductions =>
    intro x mode red beat total
    exact ⟨ranTo_of_wred rfl fun _ _ => rfl, ranTo_of_wred rfl sminW_eq, ranTo_of_wred rfl smaxW_eq,
      ranTo_of_wred rfl fun _ _ => rfl, ranTo_of_wred rfl fun _ _ => rfl,
      ranTo_wredf s d a l beat (beatSum_eq_treeNode s.laneMode s.active (s.rdV a))⟩
  case greatest =>
    intro x y
    rw [exec_wmaxi]
    refine ⟨fun idle => ?idle, fun busy => ?busy⟩
    case idle => exact ⟨_, rfl, none, .inl rfl, (wrotePair_idle idle d a l _ _).symm ▸ LanesTo.refl s .g⟩
    case busy =>
      obtain ⟨m, on, found, greatest⟩ := greatestPair_lane (fun n => (x n, y n)) (lanesIn_ne_nil busy)
      obtain ⟨lane, active⟩ := (mem_lanesIn _ _).1 on
      refine ⟨m, lane, active, fun n lane' active' => ?_, ?_⟩
      · exact (pairKey_le_iff _ _).1 (greatest n ((mem_lanesIn _ _).2 ⟨lane', active'⟩))
      · rw [found]
        exact ⟨_, rfl, lanesTo_wrotePair s a l (x m, y m) _ pair⟩

end Sys2Proof
end
